-- ==== Sys2Proof/Word.lean ====
section
/-!
DEFINITION. The word types of the AB816. Multi-byte fields are little-endian (R5); the byte-order and bit-field
helpers are in Machine/Bits.lean.
-/
namespace Sys2Proof

/-- A byte of any memory. -/
abbrev Byte := BitVec 8

/-- A 16-bit field. -/
abbrev Half := BitVec 16

/-- A 32-bit register, table word or FP32 value (R9, R181). -/
abbrev Word := BitVec 32

/-- A 64-bit register, operand reference (R95) or count. -/
abbrev DWord := BitVec 64

/-- A 128-bit tile instruction (R146). -/
abbrev TileWord := BitVec 128

/-- A 96-bit tile mask: bit t is tile t (R83). -/
abbrev TileMask := BitVec 96

/-- The 64 bytes of a descriptor, byte 0 lowest (R94). -/
abbrev DescWord := BitVec 512

/-- The 32-byte header of an Oaruxa frame, byte 0 lowest (R262). -/
abbrev HdrWord := BitVec 256

abbrev CtxId := Fin 64
abbrev TileId := Fin 96
abbrev PortId := Fin 64
abbrev BayId := Fin 16
abbrev DieId := Fin 8
abbrev StackId := Fin 16
abbrev LinkId := Fin 10
abbrev RingId := Fin 16

end Sys2Proof
end

