-- ==== Sys2Proof/Syntax.lean ====
section
/-!
DEFINITION. The commands of the AB816: one constructor of `Instr` per row of spec/opcode_table.json, in the table's order, with
the row's operands. A descriptor is named by its context, ring and submit position (R86); a tile instruction by its tile and by
its place `k` among the instructions the sequencer may issue (0 to n-1: those held by R130, n: the one at the PC; R147); a prep
core by tile, cluster and core. What the outside world supplies with an event (levels, readings, received frames, the host's
own stores) is an operand.
-/
namespace Sys2Proof

/-- The two host connectors HOST_A and HOST_B (R78). -/
inductive HPort where
  | a
  | b
  deriving DecidableEq, Repr

/-- Physical function 0 or virtual function n (R81). -/
inductive Func where
  | pf
  | vf (n : CtxId)
  deriving DecidableEq, Repr

/-- The firmware images of the two flash parts (R59). -/
inductive ImageSlot where
  | a
  | b
  deriving DecidableEq, Repr

/-- Which of the two paths a management request or an image comes by (R57, R59). -/
inductive MgmtPath where
  | mailbox
  | bus
  deriving DecidableEq, Repr

/-- A link rate of R75, in GT/s: 2.5, 5, 8, 16, 32, 64. -/
inductive LinkRate where
  | g2
  | g5
  | g8
  | g16
  | g32
  | g64
  deriving DecidableEq, Repr

/-- A link width of R75. -/
inductive LinkWidth where
  | x1
  | x2
  | x4
  | x8
  | x16
  deriving DecidableEq, Repr

/-- What the enumeration of a host port settles (R75, R76): link rate and width, FLIT mode, whether the host offered CXL 3.1, which the
port then runs with CXL.io only, the BAR4 size by Resizable BAR, 1 GiB times 2^bar4, and the MSI-X vectors that the host's tables mask. -/
structure LinkSetup where
  rate : LinkRate := .g2
  width : LinkWidth := .x1
  flit : Bool := false
  cxl : Bool := false
  bar4 : Fin 7 := 0
  msixMasked : List (Func × Nat) := []
  deriving DecidableEq, Repr

/-- The enumeration of a host port (R33). -/
structure Enumeration where
  port : HPort
  setup : LinkSetup := {}
  deriving DecidableEq, Repr

/-- A management request and the path it comes by (R57). -/
structure Via (α : Type) where
  path : MgmtPath
  req : α
  deriving DecidableEq, Repr

/-- The sensors of R57 that PLDM Platform Monitoring and Control reads. -/
inductive Sensor where
  | junction
  | inlet
  | outlet
  | voltage (feed : Bool)
  | current (feed : Bool)
  | power (feed : Bool)
  | feedState
  | stage
  deriving DecidableEq, Repr

/-- The test-port instructions of R45 and the private ones of R63. -/
inductive DbgOp where
  | bypass
  | samplePreload
  | extest
  | idcode
  | privateTest (code : Nat)
  deriving DecidableEq, Repr

/-- An access to a register of BAR0 (R9). The table's one row for plain register accesses is a write; the model carries the
read beside it, since R8 to R10 and the access codes RC and WO say what a read does (log 9). -/
inductive RegAccess where
  | write32 (v : Word)
  | write64 (v : DWord)
  | read32
  | read64
  deriving DecidableEq, Repr

/-- What the host has done to its own memory before a doorbell: bytes stored, the IOVA ranges a function may not reach from then on
(`deny`) and those whose reads then return poisoned completions (`poison`); each range is (first byte, length) (log 6). -/
structure HostUpdate where
  stores : List (Nat × List Byte) := []
  deny : List (Func × Nat × Nat) := []
  poison : List (Nat × Nat) := []
  deriving DecidableEq, Repr

/-- The measured sums of one check of R136: actual, expected, magnitude M, each FP32. -/
structure CheckSum where
  actual : Word
  expected : Word
  magnitude : Word
  deriving DecidableEq, Repr

/-- The faults that meet the array and its checksum path in one run of a 512-row block; with none the run is fault free. `rows` and `cols`
give, by row and by column of the block, what a faulty checksum path compared in place of the sums of R136; `faulty` is the
product that a faulty array formed in place of that of R117 (rows of 192 FP32 values). -/
structure CheckObs where
  rows : List (Nat × CheckSum) := []
  cols : List (Nat × CheckSum) := []
  faulty : Option (List (List Word)) := none
  deriving DecidableEq, Repr

/-- The identity record of a laser cartridge (R284). -/
structure CartRecord where
  serial : DWord
  model : Word
  mfgDate : Word
  ratedLife : Word
  wear : Word
  bias0 : Half
  pHalf : Half
  deriving DecidableEq, Repr

/-- What a cartridge presents at its authentication (R285; log 70): whether its certificate chain leads to Haevo's root, its certificate with
the serial and public key that this names, the nonce that the management core sent, and the signature. -/
structure CartProof where
  chainOk : Bool
  cert : List Byte
  serial : DWord
  keyX : BitVec 384
  keyY : BitVec 384
  nonce : BitVec 256
  sigR : BitVec 384
  sigS : BitVec 384
  deriving DecidableEq, Repr

/-- What the power manager reads at a tick (R417, R419, R421): 1 ms average P and its tile part C, 100 ms average, coolant
inlet and outlet in degrees, hottest junction per die, temperature per stack. -/
structure PowerSample where
  p : Nat
  c : Nat
  avg100 : Nat
  inlet : Nat
  outlet : Nat
  tj : List Nat
  stackTemp : List Nat
  deriving DecidableEq, Repr

/-- One rank's contribution to the commit reduction (R393): step, attempt, FAIL with cause and first failing rank, the norm
contribution of R350 (scalar P or slot vector V, and N), and its digest verdicts: whether it formed digests and they passed. -/
structure Contribution where
  step : DWord
  attempt : Word
  fail : Bool
  cause : Byte
  failRank : Nat
  p : Word
  v : List Word
  nonfinite : Bool
  digestsPass : Bool := false
  deriving DecidableEq, Repr

/-- A rank of the pair's group and the SEQ of the turn that its frame carries (R371). -/
structure TurnRank where
  rank : Nat
  seq : Nat := 0
  deriving DecidableEq, Repr

/-- The measured outcome of one unit of a SELFTEST (R429). -/
structure UnitObs where
  outcome : Nat
  failTest : Nat
  margin : Half
  tjMax : Nat
  errors : DWord
  deriving DecidableEq, Repr

/-- What the FEC of a port makes of a received frame: whether every codeword was correctable, and how many it corrected (R264). -/
structure Fec where
  ok : Bool := true
  corrected : Nat := 0
  deriving DecidableEq, Repr

/-- A frame as it arrives on a port (R262, R264). -/
structure RxFrame where
  fec : Fec := {}
  hdr : HdrWord
  payload : List Byte := []
  crc : Word
  deriving DecidableEq, Repr

/-- What a READY says: the sender's tag, module address and epoch, the transfer, and its OP, DTYPE and COUNT (R273); of a fill's message also
the lengths of the sender's ranges (R410; log 18). -/
structure ReadyInfo where
  tag : BitVec 24
  src : BitVec 12
  epoch : Half
  group : Nat
  seq : Word
  op : Nat
  dtype : Nat
  count : Nat
  lens : List Nat := []
  deriving DecidableEq, Repr

/-- A READY frame and the OP, DTYPE and COUNT that its payload carries (R273; log 18). -/
structure ReadyFrame where
  rx : RxFrame
  op : Nat
  dtype : Nat
  count : Nat
  deriving DecidableEq, Repr

/-- A Causeway link and one of its directions: `back` from the second die of the table to the first (R252). -/
structure LinkDir where
  link : LinkId
  back : Bool := false
  deriving DecidableEq, Repr

/-- What a performance sample observed (R433): of the tile's oldest tagged instruction that has ended its cycles, or that a prep cluster is
sampled. -/
inductive SampleObs where
  | tagged (queued start done : Word)
  | prep (cluster : Fin 27)
  deriving DecidableEq, Repr

/-- A tile counter or a module counter (R431, R432). -/
inductive CounterId where
  | tile (t : TileId) (k : Fin 16)
  | module (i : Fin 16)
  deriving DecidableEq, Repr

/-- How a self-test slice ended (R427). -/
inductive SliceResult where
  | pass
  | marginal (test : Nat)
  | fail (test : Nat)
  deriving DecidableEq, Repr

/-- Which digests a DIGEST_FRAME carries (R403). -/
inductive DigestKind where
  | replica
  | shadow
  deriving DecidableEq, Repr

/-- The commands: one constructor per row of spec/opcode_table.json. -/
inductive Instr where
  -- start, power and management (spec/01, spec/02)
  | auxPowerOn
  | alwaysOnReady
  | strapSample (pins : BitVec 15)
  | stage0Complete
  | firmwareReady (img : ImageSlot) (sigOk : Bool) (svn : Half)
  | firmwareReadyTimeout (img : Option ImageSlot)
  | recoveryImage (path : MgmtPath) (sigOk : Bool) (svn : Half)
  | mainInputGood (feedA feedB : Bool)
  | stage2Complete (failure : Option (Byte × Byte))
  | stage3Complete (failedDie : Option DieId)
  | inputTrip (overV feedB : Bool)
  | reversePolarity (feedB : Bool)
  | feedLost (feedB : Bool)
  | feedRestored (feedB : Bool)
  | railOverCurrent (rail : Nat) (domains : List Nat)
  | mgmtHoldRelease
  | mgmtStuck
  | mgmtLineReleased
  | mgmtDynamicAddress (addr : BitVec 7)
  | mctpControl (path : MgmtPath) (msg : List Byte)
  | pldmMonitoring (path : MgmtPath) (sensor : Sensor)
  | pldmFirmwareUpdate (off : Via Nat) (data : List Byte)
  | spdmGetMeasurements (index : Via (Bool × Nat))
  | spdmKeyExchange (msg : Via (List Byte))
  | spdmFinish (macOk : Via Bool)
  | unlockNonce (path : MgmtPath)
  | dbgUnlock (sigOk : Bool) (serial nonce : DWord) (age : Nat)
  | dbgInstruction (op : DbgOp)
  | throttleAssert
  | throttleRelease
  | perstAssert (h : HPort)
  | perstRelease (h : HPort) (cableA cableB : Bool)
  | hostPortEnumerated (h : Enumeration)
  | functionLevelReset (h : HPort) (f : Func)
  | sriovNumvfsWrite (h : HPort) (enable : Bool) (n : CtxId)
  | refclkLoss
  | hostLinkDown (h : HPort)
  | hostLinkUp (h : HPort)
  | hostPathLostTimeout
  | mailboxGetStatus
  | mailboxGetIdentity
  | mailboxReadLog (off : Nat)
  | mailboxImageWrite (off : Nat) (data : List Byte)
  | mailboxImageCommit (sigOk : Bool) (svn : Half)
  | mailboxRestart
  | mailboxAdvanceSvn
  | bar0BadAccess (write : Bool) (off size : Nat)
  | registerWrite (f : Func) (off : Nat) (acc : RegAccess)
  -- sleep and clocks (spec/02)
  | tileGate (t : TileId)
  | tileDoze (t : TileId)
  | diePllStop (d : DieId)
  | diePllLock (d : DieId)
  | tileWakeDone (t : TileId)
  -- contexts and rings (spec/03)
  | ctxTileMaskApply (f : Func) (c : CtxId) (hi : Word)
  | ctxEnable (f : Func) (c : CtxId)
  | ctxDisable (f : Func) (c : CtxId)
  | ctxRunSet (f : Func) (c : CtxId)
  | ctxRunClear (f : Func) (c : CtxId)
  | ctxResume (f : Func) (c : CtxId)
  | ctxReset (f : Func) (c : CtxId)
  | ctxResetDone (c : CtxId)
  | ctxRingCfgWrite (f : Func) (c : CtxId) (q : RingId) (v : Word)
  | ctxCqCfgWrite (f : Func) (c : CtxId) (v : Word)
  | ringDb (f : Func) (c : CtxId) (q : RingId) (v : Word) (host : HostUpdate)
  | cqDb (f : Func) (c : CtxId) (v : Word)
  | descriptorFetch (c : CtxId) (n : Nat)
  | descriptorUndefinedOpcode (c : CtxId) (q : RingId) (p : Word)
  | descriptorComplete (c : CtxId) (q : RingId) (p : Word)
  | coalesceTimeout (c : CtxId)
  | descriptorTimeout (c : CtxId) (q : RingId) (p : Word)
  | fence (c : CtxId) (q : RingId) (p : Word)
  | copy (c : CtxId) (q : RingId) (p : Word)
  | execStart (c : CtxId) (q : RingId) (p : Word)
  | execFaultStop (c : CtxId) (q : RingId) (p : Word)
  | queryCtxPage (c : CtxId) (q : RingId) (p : Word)
  | queryModuleStage (c : CtxId) (q : RingId) (p : Word)
  | queryTileState (c : CtxId) (q : RingId) (p : Word)
  | queryObjectEntry (c : CtxId) (q : RingId) (p : Word)
  | queryEpoch (c : CtxId) (q : RingId) (p : Word)
  | queryHealthLog (c : CtxId) (q : RingId) (p : Word)
  | queryMilepost (c : CtxId) (q : RingId) (p : Word)
  | queryTollgate (c : CtxId) (q : RingId) (p : Word)
  -- the matrix array and its drain (spec/04)
  | mload (t : TileId) (k : Nat)
  | shadowLoadDone (t : TileId)
  | swapFront (t : TileId)
  | mpass (t : TileId) (k : Nat)
  | passInputStart (t : TileId)
  | blockCheckDone (t : TileId) (obs : CheckObs)
  | voteDone (t : TileId) (run1 run2 : CheckObs)
  | passCommit (t : TileId)
  | streamBlockCommit (t : TileId)
  | mdrain (t : TileId) (k : Nat)
  | drainStart (t : TileId)
  | drainComplete (t : TileId) (stats : Bool)
  | mclear (t : TileId) (k : Nat)
  | mstat (t : TileId) (k : Nat)
  | maccr (t : TileId) (k : Nat)
  | maccw (t : TileId) (k : Nat)
  -- vector engine, DMA, events, prep (spec/05)
  | vlaunch (t : TileId) (k : Nat)
  | vlaunchStart (t : TileId)
  | vlaunchComplete (t : TileId)
  | vtap (t : TileId) (k : Nat)
  | dget (t : TileId) (k : Nat)
  | dput (t : TileId) (k : Nat)
  | dmove (t : TileId) (k : Nat)
  | dmaTransferComplete (t : TileId) (i : Nat)
  | esignal (t : TileId) (k : Nat)
  | esignalRemoteArrive (t src : TileId) (ctr : Fin 32)
  | efence (t : TileId) (k : Nat)
  | efenceCount (t : TileId) (i : Nat)
  | ewait (t : TileId) (k : Nat)
  | ewaitRetire (t : TileId)
  | endInsn (t : TileId) (k : Nat)
  | tileProgramEnd (t : TileId)
  | yieldInsn (t : TileId) (k : Nat)
  | callInsn (t : TileId) (k : Nat)
  | tileWatchdog (t : TileId)
  | pdispatch (t : TileId) (k : Nat)
  | pdispatchStart (t : TileId)
  | prepTrap (t : TileId) (cl : Fin 27) (i : Fin 32)
  | pxNext (t : TileId) (cl : Fin 27) (i : Fin 32)
  | pxSkip (t : TileId) (cl : Fin 27) (i : Fin 32)
  | pxUni (t : TileId) (cl : Fin 27) (i : Fin 32)
  | hfAdd (t : TileId) (cl : Fin 27) (i : Fin 32)
  | hfSub (t : TileId) (cl : Fin 27) (i : Fin 32)
  | hfMul (t : TileId) (cl : Fin 27) (i : Fin 32)
  | hfDiv (t : TileId) (cl : Fin 27) (i : Fin 32)
  | hfSqrt (t : TileId) (cl : Fin 27) (i : Fin 32)
  | hfMin (t : TileId) (cl : Fin 27) (i : Fin 32)
  | hfMax (t : TileId) (cl : Fin 27) (i : Fin 32)
  | hfExp (t : TileId) (cl : Fin 27) (i : Fin 32)
  | hfLog (t : TileId) (cl : Fin 27) (i : Fin 32)
  | hfLt (t : TileId) (cl : Fin 27) (i : Fin 32)
  | hfLe (t : TileId) (cl : Fin 27) (i : Fin 32)
  | hfEq (t : TileId) (cl : Fin 27) (i : Fin 32)
  | hfCvtSW (t : TileId) (cl : Fin 27) (i : Fin 32)
  | hfCvtWS (t : TileId) (cl : Fin 27) (i : Fin 32)
  | ltLd (t : TileId) (cl : Fin 27) (i : Fin 32)
  | ltAdd (t : TileId) (cl : Fin 27) (i : Fin 32)
  | plMap (t : TileId) (cl : Fin 27) (i : Fin 32)
  | plLdl (t : TileId) (cl : Fin 27) (i : Fin 32)
  | plLdh (t : TileId) (cl : Fin 27) (i : Fin 32)
  | plSt (t : TileId) (cl : Fin 27) (i : Fin 32)
  | scPut (t : TileId) (cl : Fin 27) (i : Fin 32)
  | scWait (t : TileId) (cl : Fin 27) (i : Fin 32)
  | dgInit (t : TileId) (cl : Fin 27) (i : Fin 32)
  | dgBlk (t : TileId) (cl : Fin 27) (i : Fin 32)
  | hxDone (t : TileId) (cl : Fin 27) (i : Fin 32)
  | hxSig (t : TileId) (cl : Fin 27) (i : Fin 32)
  | hxTime (t : TileId) (cl : Fin 27) (i : Fin 32)
  | hxTimeh (t : TileId) (cl : Fin 27) (i : Fin 32)
  -- overflow, placement and memory (spec/06, spec/07, spec/09)
  | overflowRepeat (c : CtxId) (q : RingId) (p : Word)
  | ctxNumCtlWrite (f : Func) (c : CtxId) (v : Word)
  | placeCreate (c : CtxId) (q : RingId) (p : Word)
  | placeRelease (c : CtxId) (q : RingId) (p : Word)
  | placePromote (c : CtxId) (q : RingId) (p : Word)
  | placeDemote (c : CtxId) (q : RingId) (p : Word)
  | placeRehome (c : CtxId) (q : RingId) (p : Word)
  | placeSetFlags (c : CtxId) (q : RingId) (p : Word)
  | placeLift (c : CtxId) (q : RingId) (p : Word)
  | releaseFramesFree (obj : Nat)
  | migrationSwitch (obj blk : Nat)
  | frameCleared (frame : Nat)
  | prefetchPlan (c : CtxId) (q : RingId) (p : Word)
  | bar4Read (off n : Nat)
  | bar4Write (off : Nat) (data : List Byte)
  | eccCorrected (st : StackId) (row : Nat) (frame : Nat)
  | uncorrectableError (addr : Nat)
  | patrolScrub (errors : List Nat)
  | slowReadFail (addr n : Nat) (retryOk : Bool)
  | memSlowSizeWrite (f : Func) (n : Fin 16) (v : DWord)
  | memSlowBaseWrite (f : Func) (n : Fin 16) (v : DWord)
  | memCtxObjRangeWrite (f : Func) (c : CtxId) (v : DWord)
  | memCtxFloorWrite (f : Func) (c : CtxId) (v : Word)
  | memCtxLedgerWrite (f : Func) (c : CtxId) (v : DWord)
  | memCtxSeqWrite (f : Func) (c : CtxId) (v : DWord)
  | ctxKvLayoutWrite (f : Func) (c : CtxId) (v : Word)
  -- Causeway, ports and frames (spec/08)
  | causewayCrcRetry (l : LinkId)
  | causewayLaneSpare (l : LinkDir)
  | causewayLinkDown (l : LinkId)
  | portConnectorOpen (d : DieId)
  | portReturnLost (p : PortId)
  | portConnectorClose (d : DieId)
  | portProbeBurst (p : PortId)
  | portProbeSeen (p : PortId) (serial : DWord) (farPort : Fin 64)
  | portCrossedPair (p : PortId) (serial : DWord) (farPort : Fin 64)
  | portLoopDetect (p : PortId)
  | portTrainDone (p : PortId) (peerMod : BitVec 12) (peerPort : Fin 64)
  | portTrainFail (p : PortId)
  | portHoldExpire (p : PortId)
  | portFailExpire (p : PortId)
  | opxPortDisable (f : Func) (p : PortId) (v : Word)
  | frameData (p : PortId) (fec : Fec) (hdr : HdrWord) (payload : List Byte) (payCrc : Word)
  | frameReady (p : PortId) (r : ReadyFrame)
  | frameCredit (p : PortId) (vc : Fin 4) (n : Nat) (f : RxFrame)
  | frameAck (p : PortId) (f : RxFrame)
  | frameNak (p : PortId) (f : RxFrame)
  | frameCtrl (p : PortId) (f : RxFrame)
  | frameAckTimeout (p : PortId) (seq : Half)
  | opxModuleAddrWrite (f : Func) (v : Word)
  | opxRouteMaskWrite (f : Func) (v : DWord)
  | opxCtxTagWrite (f : Func) (c : CtxId) (v : Word)
  | reduceScatter (c : CtxId) (q : RingId) (p : Word)
  | allGather (c : CtxId) (q : RingId) (p : Word)
  | allReduce (c : CtxId) (q : RingId) (p : Word)
  | broadcast (c : CtxId) (q : RingId) (p : Word)
  | send (c : CtxId) (q : RingId) (p : Word)
  | recv (c : CtxId) (q : RingId) (p : Word)
  | qsend (c : CtxId) (q : RingId) (p : Word)
  | qrecv (c : CtxId) (q : RingId) (p : Word)
  | collectiveTimeout (c : CtxId) (q : RingId) (p : Word)
  | qsendTimeout (c : CtxId) (q : RingId) (p : Word)
  | queueFlushMarker (c : CtxId) (queue : Fin 64) (seq : Nat)
  -- laser cartridges (spec/08)
  | bayLatchClose (b : BayId) (orientOhm : Option Nat)
  | cartridgeAuthenticated (b : BayId) (proof : CartProof) (record : CartRecord)
  | cartridgeRampDone (d : DieId)
  | bayInterlockOpen (b : BayId)
  | cartridgeSenseFault (b : BayId)
  | cartridgeOverPower (b : BayId)
  | cartridgeOverTemp (b : BayId)
  | wearHourly (b : BayId) (load1000 temp10 bias power : Nat)
  | lsrBayRetire (f : Func) (b : BayId)
  -- ledger and rollout (spec/09, spec/10)
  | ledgerEdit (c : CtxId) (q : RingId) (p : Word)
  | ledgerEditApply (c : CtxId) (q : RingId) (p : Word)
  | serveStep (c : CtxId) (q : RingId) (p : Word)
  | servePlanEntry (c : CtxId) (q : RingId) (p : Word)
  | serveSample (c : CtxId) (q : RingId) (p : Word)
  | adapterBind (c : CtxId) (q : RingId) (p : Word)
  | adapterUnbind (c : CtxId) (q : RingId) (p : Word)
  | prefixPin (c : CtxId) (q : RingId) (p : Word)
  | prefixRelease (c : CtxId) (q : RingId) (p : Word)
  | tollgateCredit (c : CtxId)
  | ctxTgCtlWrite (f : Func) (c : CtxId) (v : Word)
  | ctxTgDepthWrite (f : Func) (c : CtxId) (v : Word)
  | ctxTgRateWrite (f : Func) (c : CtxId) (v : Word)
  -- Switchback (spec/12)
  | switchbackDeclare (c : CtxId) (q : RingId) (p : Word)
  | switchbackToRollout (c : CtxId) (q : RingId) (p : Word)
  | switchbackToLearner (c : CtxId) (q : RingId) (p : Word)
  | switchbackDrop (c : CtxId) (q : RingId) (p : Word)
  | sbAgreeFrame (c : CtxId) (rank : TurnRank) (step : DWord) (digest : BitVec 256)
  | sbConfirmFrame (c : CtxId) (rank : Nat) (digest : BitVec 256)
  | sbFlip (c : CtxId)
  | sbAbort (c : CtxId) (rank : Nat) (status : Byte) (stage : Nat)
  | sbTimerExpire (c : CtxId)
  | loadSigned (c : CtxId) (q : RingId) (p : Word)
  | secPubCtlWrite (f : Func) (k : Fin 32) (v : Word)
  -- Milepost and shadows (spec/13)
  | milepostOpen (c : CtxId) (q : RingId) (p : Word)
  | milepostCommit (c : CtxId) (q : RingId) (p : Word)
  | milepostAbandon (c : CtxId) (q : RingId) (p : Word)
  | failFrame (c : CtxId) (step : DWord) (attempt : Word) (cause : Byte) (rank : Nat)
  | digestFrame (c : CtxId) (kind : DigestKind) (rank : Nat) (digest : BitVec 256)
  | commitResult (c : CtxId) (ranks : List Contribution)
  | commitTimerExpire (c : CtxId)
  | shadowSetup (c : CtxId) (q : RingId) (p : Word)
  | shadowAdvance (c : CtxId) (q : RingId) (p : Word)
  | shadowWaymark (c : CtxId) (q : RingId) (p : Word)
  | shadowRestore (c : CtxId) (q : RingId) (p : Word)
  | shadowFillSend (c : CtxId) (q : RingId) (p : Word)
  | shadowFillRecv (c : CtxId) (q : RingId) (p : Word)
  | shadowTakeover (c : CtxId) (q : RingId) (p : Word)
  | shadowExpel (c : CtxId) (q : RingId) (p : Word)
  -- power, ageing, self-test and counters (spec/14)
  | powerTick (x : PowerSample)
  | peakClamp
  | averageClamp
  | clampRelease (average : Bool)
  | thermalTrip
  | flowLow
  | pathMonitorRead (slacks : List (DieId × Int))
  | plan24h
  | hltReplanWrite (f : Func)
  | selftestRound
  | selftestSliceStart (t : TileId)
  | selftestSliceEnd (t : TileId) (r : SliceResult)
  | selftestSlice (c : CtxId) (q : RingId) (p : Word) (obs : List UnitObs)
  | selftestStress (c : CtxId) (q : RingId) (p : Word) (obs : List UnitObs)
  | selftestPortLoop (c : CtxId) (q : RingId) (p : Word) (obs : List UnitObs)
  | pmcCounterWrap (which : CounterId)
  | pmcSample (t : TileId) (x : SampleObs)
  | pmcSnapshot (c : CtxId)
  | p12vAuxLoss
  | junctionBelow100C
  | stickyCauseClear (f : Func) (v : Word)
  | prepCoreInstruction (t : TileId) (cl : Fin 27) (i : Fin 32)
  | illegalTileInstruction (t : TileId) (k : Nat)
  | fillNoProgressTimeout (c : CtxId) (q : RingId) (p : Word)
  | sliceDigestFormed (c : CtxId)
  | weightDigestFormed (c : CtxId)
  deriving DecidableEq, Repr

end Sys2Proof
end

