-- ==== Sys2Proof/Decode.lean ====
section
/-!
DEFINITION. The commands that a word of the opcode table spells. No row of spec/opcode_table.json gives bits, so no word spells
a command (log 11).
-/
namespace Sys2Proof

/-- The command whose bits are w: none, since the table gives no row any bits. -/
def decodeTableWord (_nbits _w : Nat) : Option Instr := none

end Sys2Proof
end

