-- ==== Sys2Proof/Machine/Bits.lean ====
section
/-!
DEFINITION. Bit fields and byte order. A field is named by its lowest bit and its length (R4); multi-byte fields are
little-endian (R5).
-/
namespace Sys2Proof.Machine

/-- Bits lo to lo + len - 1 of n (R4). -/
def fld (n lo len : Nat) : Nat := (n >>> lo) % 2 ^ len

/-- Bit i of n. -/
def bitOf (n i : Nat) : Bool := n.testBit i

/-- 1 for true, 0 for false. -/
def b2n (b : Bool) : Nat := if b then 1 else 0

/-- n with bits lo to lo + len - 1 replaced by the low bits of v. -/
def setFld (n lo len v : Nat) : Nat := n - (fld n lo len) * 2 ^ lo + (v % 2 ^ len) * 2 ^ lo

/-- The n low bytes of v, lowest first (R5). -/
def leBytes : Nat → Nat → List Byte
  | 0, _ => []
  | n + 1, v => BitVec.ofNat 8 v :: leBytes n (v / 256)

/-- The number whose bytes, lowest first, are bs (R5). -/
def leNat : List Byte → Nat
  | [] => 0
  | b :: bs => b.toNat + 256 * leNat bs

def byte (n : Nat) : Byte := BitVec.ofNat 8 n
def half (n : Nat) : Half := BitVec.ofNat 16 n
def word (n : Nat) : Word := BitVec.ofNat 32 n
def dword (n : Nat) : DWord := BitVec.ofNat 64 n

/-- The field of `n` bytes at byte offset `off` of a record. -/
def recNat (r : List Byte) (off n : Nat) : Nat := leNat ((r.drop off).take n)

/-- Bytes off to off + n - 1 of a word held as a number. -/
def byteFld (w off n : Nat) : Nat := fld w (8 * off) (8 * n)

/-- x limited to lo .. hi. -/
def clampNat (lo hi x : Nat) : Nat := if x < lo then lo else if hi < x then hi else x

/-- 0 acts as 1. -/
def atLeast1 (x : Nat) : Nat := if x = 0 then 1 else x

/-- x + y, saturating at m. -/
def satAdd (m x y : Nat) : Nat := if m ≤ x + y then m else x + y

def ceilDiv (a b : Nat) : Nat := (a + b - 1) / b

/-- The numbers i below n with p i, ascending. -/
def below (n : Nat) (p : Nat → Bool) : List Nat := (List.range n).filter p

/-- The numbers of the set bits of x below n. -/
def bitList (x n : Nat) : List Nat := below n (fun i => x.testBit i)

/-- How many bits of x below n are set. -/
def popCount (x n : Nat) : Nat := (bitList x n).length

/-- The number of bits of x (0 for 0). -/
def bitLen (x : Nat) : Nat := if x = 0 then 0 else Nat.log2 x + 1

/-- x put before the first element that it does not follow. -/
def insertBy (first : α → α → Bool) (x : α) : List α → List α
  | [] => [x]
  | y :: l => if first x y then x :: y :: l else y :: insertBy first x l

/-- The list in the order of `first`, equal elements in their order. -/
def sortBy (first : α → α → Bool) (l : List α) : List α := l.foldr (insertBy first) []

/-- Updates element i of a list; nothing if there is none. -/
def updAt (l : List α) (i : Nat) (f : α → α) : List α := l.modify i f

end Sys2Proof.Machine
end

