-- ==== Sys2Proof/Machine/Ecdsa.lean ====
section
/-!
DEFINITION. Verification of ECDSA P-384 signatures (R380, R381): the curve of FIPS 186, whose constants the spec does not repeat
(log 12). Points are Jacobian triples (X, Y, Z); Z = 0 is the point at infinity.
-/
namespace Sys2Proof.Machine

def p384P : Nat := 2 ^ 384 - 2 ^ 128 - 2 ^ 96 + 2 ^ 32 - 1
def p384B : Nat :=
  0xb3312fa7e23ee7e4988e056be3f82d19181d9c6efe8141120314088f5013875ac656398d8a2ed19d2a85c8edd3ec2aef
def p384N : Nat :=
  0xffffffffffffffffffffffffffffffffffffffffffffffffc7634d81f4372ddf581a0db248b0a77aecec196accc52973
def p384Gx : Nat :=
  0xaa87ca22be8b05378eb1c71ef320ad746e1d3b628ba79b9859f741e082542a385502f25dbf55296c3a545e3872760ab7
def p384Gy : Nat :=
  0x3617de4a96262c6f5d9e98bf9292dc29f8f41dbd289a147ce9da3113b5f0b8c00a60b1ce1d7e819d7a431d7c90ea0e5f

def subMod (m a b : Nat) : Nat := (a + (m - b % m)) % m

/-- b^e mod m for e below 2^n, by squaring from the top bit. -/
def powMod (m b e : Nat) : Nat → Nat
  | 0 => 1
  | n + 1 =>
    let h := powMod m b (e / 2) n
    let q := h * h % m
    if e % 2 = 1 then q * b % m else q

def invMod (m a : Nat) : Nat := powMod m (a % m) (m - 2) 384

def ecDouble (p : Nat × Nat × Nat) : Nat × Nat × Nat :=
  let (x, y, z) := p
  if z = 0 ∨ y = 0 then (1, 1, 0) else
    let m := p384P
    let d := z * z % m
    let g := y * y % m
    let b := x * g % m
    let a := 3 * (subMod m x d * ((x + d) % m) % m) % m
    let x3 := subMod m (a * a % m) (8 * b % m)
    let z3 := subMod m (subMod m ((y + z) * (y + z) % m) g) d
    let y3 := subMod m (a * subMod m (4 * b % m) x3 % m) (8 * (g * g % m) % m)
    (x3, y3, z3)

def ecAdd (p q : Nat × Nat × Nat) : Nat × Nat × Nat :=
  let (x1, y1, z1) := p
  let (x2, y2, z2) := q
  if z1 = 0 then q else if z2 = 0 then p else
    let m := p384P
    let a := z1 * z1 % m
    let b := z2 * z2 % m
    let u1 := x1 * b % m
    let u2 := x2 * a % m
    let s1 := y1 * z2 % m * b % m
    let s2 := y2 * z1 % m * a % m
    let h := subMod m u2 u1
    let r := subMod m s2 s1
    if h = 0 then (if r = 0 then ecDouble p else (1, 1, 0)) else
      let h2 := h * h % m
      let h3 := h * h2 % m
      let v := u1 * h2 % m
      let x3 := subMod m (subMod m (r * r % m) h3) (2 * v % m)
      let y3 := subMod m (r * subMod m v x3 % m) (s1 * h3 % m)
      (x3, y3, z1 * z2 % m * h % m)

/-- k·P for k below 2^n. -/
def ecMul (p : Nat × Nat × Nat) (k : Nat) : Nat → Nat × Nat × Nat
  | 0 => (1, 1, 0)
  | n + 1 =>
    let h := ecDouble (ecMul p (k / 2) n)
    if k % 2 = 1 then ecAdd h p else h

/-- Whether (x, y) is a point of the curve. -/
def ecOnCurve (x y : Nat) : Bool :=
  decide (x < p384P) && decide (y < p384P) && (y * y % p384P == (x * x % p384P * x + (p384P - 3) * x + p384B) % p384P)

/-- Whether (r, s) is a signature of the 384-bit digest z under the public key (qx, qy). -/
def ecdsaVerify (qx qy z r s : Nat) : Bool :=
  if ecOnCurve qx qy && decide (0 < r ∧ r < p384N) && decide (0 < s ∧ s < p384N) then
    let w := invMod p384N s
    let (x, _, zz) := ecAdd (ecMul (p384Gx, p384Gy, 1) (z * w % p384N) 384) (ecMul (qx, qy, 1) (r * w % p384N) 384)
    if zz = 0 then false else
      let zi := invMod p384P zz
      x * (zi * zi % p384P) % p384P % p384N == r
  else false

end Sys2Proof.Machine
end

