-- ==== Sys2Proof/Config.lean ====
section
/-!
DEFINITION. What an implementation fixes and the spec leaves open: opaque constants without a body, so that nothing can be
proved of their values. A free value is `freeWord` (or `freeByte`) applied to the counter `State.fresh`, which the
step that uses it advances (log 2). The encodings below stand for record layouts that the spec does not give (log 8): each is
an unknown function of the true contents.
-/
namespace Sys2Proof.Config

/-- A value the spec calls undefined or does not state, 64 bits, one per use (log 2). -/
opaque freeWord : Nat → DWord

/-- Whether PX.UNI takes the upper of the two FP32 values beside a value that FP32 does not hold, by its word (R176; log 38). -/
opaque uniUp : Word → Bool

/-- A byte the spec calls undefined (log 2). -/
opaque freeByte : Nat → Byte

/-- The module's 64-bit serial number (R58, R63). -/
opaque serial : DWord

/-- Part number, boot ROM version and version of the running image returned by GET_IDENTITY, by image code and security version (R58). -/
opaque identity : Nat → Half → List Byte

/-- The bytes of the boot ROM, whose digest is measurement index 1 (R62). -/
opaque bootRom : List Byte

/-- The length in bytes of an image, which the image itself gives (R62; log 8). -/
opaque imageLen : List (Nat × Byte) → Nat

/-- The certificate chain of slot 0 (R62). -/
opaque certSlot0 : List Byte

/-- A message sealed under the keys of the SPDM session that a handshake transcript gave, by its number in the session (R62, DSP0277). -/
opaque spdmSeal : List Byte → Nat → List Byte → List Byte

/-- The bytes of an event report on the management bus: its kind and arguments (R19; log 8). -/
opaque busReport : Nat → List Nat → List Byte

/-- The answer to a PLDM Firmware Update request: its offset and data (R57, DSP0267; log 8). -/
opaque pldmUpdate : Nat → List Byte → List Byte

/-- The nonces the module issues for a private test unlock, by issue number (R63). -/
opaque nonce : Nat → DWord

/-- The record layout of QUERY 0x0002: GLB_STAGE, GLB_STRAP, identity (R99). -/
opaque encodeModuleStage : Word → Word → List Byte

/-- The record layout of QUERY 0x0003: for each tile of the mask its number, sleep state and fence state (R99). -/
opaque encodeTileStates : List (Nat × Nat × Bool) → List Byte

/-- The record layout of QUERY 0x0005: placement epoch and stale-result count (R99). -/
opaque encodeEpoch : Half → Word → List Byte

/-- The bytes of one health-log entry: kind and arguments (R56). -/
opaque encodeLog : Nat → List Nat → List Byte

/-- The answer to an MCTP control message (R57, DSP0233 and DSP0237). -/
opaque mctpAnswer : List Byte → List Byte

/-- The bytes of a PLDM sensor reading: sensor number and value (R57). -/
opaque pldmReading : Nat → Nat → List Byte

/-- The signature the device identity key gives over a message (R62). -/
opaque deviceSign : List Byte → List Byte

/-- The answer to an SPDM FINISH, by the handshake transcript and whether the MAC over it verified (R62). -/
opaque spdmFinish : List Byte → Bool → List Byte

/-- The sensor values a PLDM request reads beside those of the registers: input voltage, current and power per feed (R57). -/
opaque analogue : Nat → Nat

/-- The die, stack and slack predictions of the ageing model behind R423: worst predicted slack in ps of die d at V_OFF mv and
F_CEIL mhz, given the readings (log 21). -/
opaque predictedSlack : Nat → Nat → Nat → List Int → Int

end Sys2Proof.Config
end

