-- ==== Sys2Proof/Machine/State.lean ====
section
/-!
DEFINITION. The state of the AB816, as plain data: everything the spec gives the module, the part of the host's memory it
reads and writes, and the queue of commands that wait. Registers without behaviour of their own are held in `State.regs` by
BAR0 offset (Machine/Regs.lean gives each its name, reset value and writable bits); every other register is a field below.
`Tab α` is a table keyed by a number; an index that is not listed holds the table's stated default, so that the tables of
`State.reset` are empty.
-/
namespace Sys2Proof.Machine

/-- A table keyed by number; the default of an unlisted index is given where it is read. -/
abbrev Tab (α : Type) := List (Nat × α)

/-- Byte memory: (address, byte) pairs, addresses strictly rising, no zero byte listed; an unlisted address reads as zero
(R54, R71, R224; host memory and prep memories: log 3, log 6). -/
abbrev Mem := List Host.Cell

/-- Reasons the machine stops. Raised by no meaning of this model: every state of the AB816 that the spec describes is a next
state (safe: a fault stops a run). -/
inductive Fault where
  /-- Kept for a step that the spec calls impossible; no meaning raises it. Safe. -/
  | impossible
  deriving DecidableEq, Repr

/-- Reasons a command has no meaning. -/
inductive Refusal where
  /-- Raised by an arm of `exec` whose command has no meaning yet. Safe. -/
  | notModelled (mnemonic : String)
  /-- Raised by DBG_INSTRUCTION on a private test instruction once DBG_UNLOCK is set: R63 unlocks those instructions and the
  spec says nowhere what they do. Safe. -/
  | privateTestInstruction
  deriving DecidableEq, Repr

/-- What the module sends outside, in order. -/
inductive Out where
  /-- An MSI-X message and the host port it leaves by (R80, R93). -/
  | msix (h : HPort) (f : Func) (vector : Nat)
  /-- The zero-length read that goes before a completion record, by the path that is not the home port (R80). -/
  | zeroRead (h : HPort) (f : Func)
  /-- Data returned by a register or BAR4 read. -/
  | readData (data : List Byte)
  /-- A poisoned TLP (R222, R246). -/
  | poisonedTlp
  /-- A mailbox answer with its status word (R58). -/
  | mailbox (status : Nat) (data : List Byte)
  /-- An answer on the management bus (R57). -/
  | mgmt (data : List Byte)
  /-- The IDCODE or bypass bit shifted out of DBG (R45). -/
  | dbg (data : Word)
  /-- An Oaruxa frame leaving a port: header, payload, PAY_CRC (R262). -/
  | frame (port : Nat) (hdr : HdrWord) (payload : List Byte) (crc : Word)
  /-- A probe burst on a port with the module's serial (R259). -/
  | probe (port : Nat) (serial : DWord)
  deriving DecidableEq, Repr

/-- One entry of the health log (R56): a kind and its arguments. -/
structure LogEntry where
  kind : Nat
  args : List Nat
  deriving DecidableEq, Repr

/-- One host connector (R72, R75 to R82, R113); `setup` is what its enumeration settled, `aerUncorr` and `aerCorr` the status words of its
Advanced Error Reporting (R75; log 15). -/
structure HostPortSt where
  cable : Bool := false
  perst : Bool := true
  enumerated : Bool := false
  link : Bool := false
  active : Bool := false
  vfEnable : Bool := false
  numVfs : Nat := 0
  lost : Bool := false
  setup : LinkSetup := {}
  aerUncorr : Word := 0#32
  aerCorr : Word := 0#32
  deriving DecidableEq, Repr

/-- Start, power inputs and management: spec/01 and spec/02. `recFailed`: a recovery image has failed at this start (R59); `portsChosen`:
the active port of the present module reset is chosen (R78). -/
structure Chip where
  auxOn : Bool := true
  alwaysOn : Bool := false
  rom : Bool := false
  stage : Nat := 0
  cause : Byte := 0#8
  unit : Byte := 255#8
  strapped : Bool := false
  strap : Word := 0#32
  safeHold : Bool := false
  dbgUnlock : Bool := false
  image : Nat := 0
  svn : Half := 0#16
  aOk : Bool := false
  bOk : Bool := false
  wdog : Bool := false
  tried : List ImageSlot := []
  recFailed : Bool := false
  portsChosen : Bool := false
  errors : Nat := 0
  deriving DecidableEq, Repr

/-- A margin plan as the history keeps it: version, trigger, V_OFF in mV and F_CEIL in MHz by die, doubled refresh by stack (R422 to R424). -/
structure MarginPlan where
  version : Half
  trigger : Byte
  vOff : Tab Nat
  fCeil : Tab Nat
  refresh : BitVec 16
  deriving DecidableEq, Repr

/-- What survives every reset kind: flash and fuses (R56, R61, R72, R244, R424). -/
structure Flash where
  imageA : Mem := []
  imageB : Mem := []
  nextBoot : Option ImageSlot := none
  log : List LogEntry := []
  tileFence : TileMask := 0#96
  dieFence : BitVec 8 := 0#8
  retired : List Nat := []
  fuses : List Half := []
  planVersion : Half := 0#16
  planTrigger : Byte := 0#8
  vOff : Tab Nat := []
  fCeil : Tab Nat := []
  refresh : BitVec 16 := 0#16
  ageing : Bool := false
  history : List MarginPlan := []
  deriving DecidableEq, Repr

/-- Feeds, rails, pins and the sticky bits of HLT_INPUT_STATUS (R17 to R37). `switchA` and `switchB`: the input switches that are closed;
`removed`: main input has been removed and is not restored yet (R23); `tripHold`: an input trip holds stage 0; `tripPerst`: a PERST
input has been asserted and released since (R17). -/
structure Inputs where
  sticky : Word := 0#32
  feedA : Bool := false
  feedB : Bool := false
  revA : Bool := false
  revB : Bool := false
  switchA : Bool := false
  switchB : Bool := false
  removed : Bool := false
  pwrGood : Bool := false
  throttle : Bool := false
  railsOff : List Nat := []
  domainsOff : List Nat := []
  tripHold : Bool := false
  tripPerst : Bool := false
  lostInService : Bool := false
  smbAlert : Bool := false
  faultN : Bool := false
  refclkLost : Bool := false
  deriving DecidableEq, Repr

/-- An input switch is closed (R16, R17). -/
def Inputs.switches (x : Inputs) : Bool := x.switchA || x.switchB

/-- The management bus, mailbox, SPDM and test port (R25 to R27, R57 to R63). `reports` are the events the module has still to report on
the bus (R19). `session` is the handshake transcript of the SPDM session, which its keys derive from, and `sealed` how many messages it has
sealed (R62, DSP0277). -/
structure Mgmt where
  dynAddr : Option (BitVec 7) := none
  stuck : Bool := false
  busResets : Nat := 0
  command : Word := 0#32
  status : Word := 0#32
  buffer : List Byte := []
  recovery : Mem := []
  pending : Option Half := none
  spdm : Nat := 0
  session : List Byte := []
  sealed : Nat := 0
  nonces : List DWord := []
  nonceCount : Nat := 0
  reports : List LogEntry := []
  deriving DecidableEq, Repr

/-- The power manager, temperature and self-test status (R416 to R430). `cap`: the cap that the manager holds (R22, R416; 3,600 is the
lowest class, held until the first tick; log 3); `hot`: stage 0 is held after a thermal trip;
`hotReset`: a module reset has followed it; `hotCool`: every sensor has fallen below 100 degrees (R420). -/
structure Power where
  m : Nat := 64
  cap : Nat := 3600
  power : Nat := 0
  dieLimit : Tab Nat := []
  peakHold : Bool := false
  avgHold : Bool := false
  peakHit : Bool := false
  capped : Bool := false
  therm : Bool := false
  trip : Bool := false
  hot : Bool := false
  hotReset : Bool := false
  hotCool : Bool := false
  flowLow : Bool := false
  inletHigh : Bool := false
  inlet : Nat := 0
  outlet : Nat := 0
  tjMax : Nat := 0
  lastTile : Byte := 255#8
  failTest : Byte := 0#8
  marginal : Bool := false
  replan : Bool := false
  deriving DecidableEq, Repr

/-- A fault of a tile program or descriptor: completion status, secondary code, unit, result (R98, R101). -/
structure Ending where
  status : Byte
  secondary : Half := 0#16
  unit : Half := 65535#16
  result : DWord := 0#64
  deriving DecidableEq, Repr

/-- The first overflow that a run of an EXEC reported (R205, R210): LAYER and FMT of its plan entry if it has one, and the program
of the repeat it starts, if any, with its length and layer format code. -/
structure Overflow where
  count : Nat
  nonfinite : Bool
  saturated : Bool
  tile : Nat
  entry : Option (Nat × Nat) := none
  wide : Option (Nat × Nat × Nat) := none
  deriving DecidableEq, Repr

/-- An EXEC, or a plan entry of a SERVE_STEP, in progress (R98, R205, R322, R405): `running` are the tiles whose part has not ended,
none while it waits for its tiles (R89); `code` is its program's reference with an alias replaced, `named` as it was named (R204, R363);
`overflow` is that of the present run, `first` that of the first; `ovfCount` the
elements the first run reported; `partner` that the partner tiles run too. -/
structure ExecRun where
  tiles : TileMask
  running : TileMask := 0#96
  code : DWord
  named : DWord := code
  codeBytes : Nat
  args : DWord
  argBytes : Nat
  argCopy : Option (List Byte) := none
  debug : Bool := false
  ending : Option Ending := none
  overflow : Option Overflow := none
  first : Option Overflow := none
  ovfCount : Nat := 0
  repeats : Nat := 0
  fmt : Nat := 0
  partner : Bool := false
  deriving DecidableEq, Repr

/-- A COLLECTIVE in progress (R271 to R283, R344); `src` and `dst` name banks in place of the alias (R363). `armed` is the trigger
entry it waits for, `entry` the one that started it; `ready` the ranks whose READY matched, `sent` those served
and `sentG` those sent a shard of an ALL_REDUCE's gather; `seen` the 256-byte units received by sender and offset, `got` their bytes
by sender; `out` what waits for a rank's READY (rank, offset, bytes); `sums` the sums of an arrival-order reduction, `final` that they
are complete, or that a QSEND has filled slot `seq`; `since` when its trigger started it (R276), and `image` what the gradient buffer holds
but for writes of others (R340); `delivered` the elements delivered to DST, by number (R347); `held` that its host transfer waits (R113). -/
structure CollRun where
  op : Nat
  dtIn : Nat := 0
  dtOut : Nat := 0
  arrival : Bool := false
  bulk : Bool := false
  group : Nat
  peer : Nat := 0
  src : DWord := 0#64
  dst : DWord := 0#64
  count : Nat
  seq : Nat
  me : Nat := 0
  ranks : List Nat := []
  armed : Option Nat := none
  entry : Option Nat := none
  ready : List Nat := []
  sent : List Nat := []
  sentG : List Nat := []
  seen : List (Nat × Nat) := []
  got : Tab Nat := []
  out : List (Nat × Nat × List Byte) := []
  sums : Tab Word := []
  final : Bool := false
  written : Nat := 0
  since : Option DWord := none
  image : List Byte := []
  delivered : Tab Word := []
  held : Bool := false
  deriving DecidableEq, Repr

/-- One LEDGER_EDIT record as read (R307). -/
structure EditRec where
  op : Nat
  free : Bool
  check : Bool
  version : Half
  seq : Nat
  arg0 : Nat
  arg1 : Nat
  data : DWord
  values : List DWord := []
  deriving DecidableEq, Repr

/-- A LEDGER_EDIT or PREFIX_PIN waiting for the steps before it (R312). -/
structure EditRun where
  recs : List EditRec
  rows : List Nat
  waits : List Nat
  out : DWord
  outBytes : Nat
  pin : Bool := false
  deriving DecidableEq, Repr

/-- One batch record of a SERVE_STEP as admitted (R320, R323). -/
structure BatchRec where
  seq : Nat
  new : Nat
  first : Bool
  sample : Bool
  feed : Bool
  adapter : Nat
  tokens : List Word
  handle : DWord
  params : DWord
  len : Nat := 0
  outRow : Nat := 65535
  tokIdx : Nat := 0
  deriving DecidableEq, Repr

/-- One plan entry (R322). -/
structure PlanEntry where
  code : DWord
  codeBytes : Nat
  argBytes : Nat
  args : DWord
  deriving DecidableEq, Repr

/-- A SERVE_STEP in progress: phase 2 until `admitted`, phase 3 while entries remain, then phase 4, `sampling` while its sampler holds
prep clusters (R321 to R330). -/
structure ServeRun where
  serveId : DWord
  batch : List BatchRec
  plan : List PlanEntry
  out : DWord
  outBytes : Nat
  index : Nat := 0
  run : Option ExecRun := none
  admitted : Bool := false
  sampling : Bool := false
  repeated : List (Nat × Half × Byte × Nat) := []
  waits : List Nat := []
  deriving DecidableEq, Repr

/-- Blocks of an object on their way (R226, R228, R241): kind 3 promotion, 4 demotion, 5 rehoming; `left` have no frame yet,
`flight` are being copied; `st` is the stack the next block tries first; `item` the plan item, `stop` the status that ended it early. -/
structure MoveJob where
  obj : Nat
  kind : Nat
  allowSlow : Bool := false
  item : Option Nat := none
  left : List Nat
  flight : List Nat := []
  st : Nat := 0
  moved : Nat := 0
  stop : Option Byte := none
  deriving DecidableEq, Repr

/-- A PLACE whose blocks are moving, and whether it sets PIN at its end (R226). -/
structure PlaceRun where
  job : MoveJob
  pin : Bool := false
  deriving DecidableEq, Repr

/-- A FILL_SEND or FILL_RECV in progress (R410): bytes to carry, whether the other end is ready and the data sent, the units
received and how many bytes, and what arrived behind the data. -/
structure FillRun where
  send : Bool
  kind : Bool
  peer : Nat
  total : Nat
  sent : Bool := false
  seen : List (Nat × Nat) := []
  bytes : Nat := 0
  tail : Mem := []
  deriving DecidableEq, Repr

/-- What a started descriptor is doing. -/
inductive Work where
  | idle
  /-- Its host transfer waits for a path to the host (R113). -/
  | hostWait
  | exec (r : ExecRun)
  | coll (r : CollRun)
  | edit (r : EditRun)
  | serve (r : ServeRun)
  | place (r : PlaceRun)
  | fill (r : FillRun)
  /-- MILEPOST COMMIT; its progress is in `Mile.commit`. -/
  | commit
  /-- SWITCHBACK TO_ROLLOUT; its progress is in `Pair.turn`. -/
  | turn
  /-- SWITCHBACK TO_LEARNER or DROP waiting as the flip does for the listed starts (R369, R379). -/
  | flipWait (drop : Bool) (waits : List Nat)
  /-- A WAYMARK that has read the shadow ranges, with their bytes; a write to them before it completes spoils it (R408). -/
  | waymark (image : List Byte)
  /-- FENCE: the submit counts of the 16 rings when its doorbell arrived (R96). -/
  | fence (mask : Nat) (upTo : List Nat)
  deriving DecidableEq, Repr

/-- A fetched descriptor that has no completion record yet (R85 to R92): `before` are the published counts of the 16 rings when the
doorbell that published it arrived (R96). `start` is none until it starts, then its start
order; `ending` is set once its work has ended. -/
structure Desc where
  ring : Nat
  pos : Nat
  bytes : DescWord
  before : List Nat := []
  start : Option Nat := none
  time : DWord := 0#64
  work : Work := .idle
  ending : Option Ending := none
  deriving DecidableEq, Repr

/-- A submission ring's counts: descriptors published and fetched since it was enabled, the stored doorbell value, and for each
accepted doorbell the count it published up to and the 16 rings' published counts before it (R86, R87, R96). -/
structure Ring where
  published : Nat := 0
  fetched : Nat := 0
  stored : Option Word := none
  pubs : List (Nat × List Nat) := []
  deriving DecidableEq, Repr

/-- A completion record to be written: its 32 bytes without PHASE, and its IRQ flag (R92, R100). -/
structure Rec where
  bytes : List Byte
  irq : Bool
  deriving DecidableEq, Repr

/-- A frame queued or unacknowledged on a port: `mask` is the port mask of its destination when it was queued (R267); `since` when a result
of a newer epoch began to wait (R112). -/
structure Frame where
  hdr : HdrWord
  payload : List Byte
  crc : Word
  replays : Nat := 0
  mask : DWord := 0#64
  since : DWord := 0#64
  deriving DecidableEq, Repr

/-- A stage queue (R281 to R283): role 1 producer, 2 consumer; `next` the next slot's SEQ; bytes received per slot's SEQ, and their
256-byte units as (SEQ, offset) (R277); slots whose data failed its PAY_CRC with UNIT (R280); credit waits in microseconds; `flushing` waits
for a flush marker, `marked` that one came before this end's OPEN (R397). -/
structure QueueSt where
  peer : Nat := 0
  role : Nat := 0
  slots : Nat := 0
  slotBytes : Nat := 0
  buf : DWord := 0#64
  credits : Nat := 0
  next : Nat := 0
  filled : List (Nat × Nat) := []
  seen : List (Nat × Nat) := []
  bad : List (Nat × Half) := []
  stallUs : DWord := 0#64
  openUs : DWord := 0#64
  flushing : Bool := false
  marked : Bool := false
  deriving DecidableEq, Repr

/-- A trigger entry with its count in the open step (R342, R343, R347, R348). -/
structure TrigEntry where
  prog : Nat
  gradObj : Nat
  fireAfter : Nat
  layer : Nat
  norm : Bool
  count : Nat := 0
  fired : Bool := false
  normArmed : Bool := false
  shardSq : Word := 0#32
  nonfinite : Nat := 0
  deriving DecidableEq, Repr

/-- A prefetch plan step and item (R240). -/
structure PfStep where
  fwd : Option Nat
  bwd : Option Nat
  first : Nat
  nitems : Nat
  fwdExecs : Nat
  deriving DecidableEq, Repr

structure PfItem where
  obj : Nat
  action : Nat
  fwd : Bool
  bwd : Bool
  off : Nat
  len : Nat
  deriving DecidableEq, Repr

/-- The context's prefetch plan with its cursor (R239 to R242): `started` items of this sweep, `counts` forward EXECs per step. -/
structure PfPlan where
  steps : List PfStep
  items : List PfItem
  lead : Nat
  cursor : Option Nat := none
  forward : Bool := true
  started : List Nat := []
  counts : Tab Nat := []
  deriving DecidableEq, Repr

/-- A request on a sequence (R324 to R328). -/
structure Request where
  key : DWord
  salt : DWord
  temp : Word
  topP : Word
  topK : Nat
  maxNew : Nat
  maxLen : Nat
  stops : List Word
  samples : Nat := 0
  last : Option Word := none
  adapter : Option (Nat × Nat) := none
  stopped : Bool := false
  deriving DecidableEq, Repr

/-- An adapter version (R336 to R338). -/
structure Adapter where
  ctx : Nat
  id : Nat
  version : Nat
  rank : Nat
  obj : Nat
  refs : Nat := 0
  draining : Bool := false
  releaseOld : Bool := false
  deriving DecidableEq, Repr

/-- A prefix handle (R332, R333); `users` are sequences. -/
structure Prefix where
  ctx : Nat
  handle : DWord
  base : Nat
  pages : Nat
  plen : Nat
  users : List Nat
  draining : Bool := false
  deriving DecidableEq, Repr

/-- A kept record of a segment map (R365): `base` is where its bytes lie in the turn's transfer (log 17). -/
structure SegRec where
  index : Nat
  srcRank : Nat
  slice : Nat
  fmt : Nat
  elems : Nat
  srcObj : Nat
  srcOff : Nat
  dstOff : Nat
  scaleOff : Nat
  base : Nat
  deriving DecidableEq, Repr

/-- An agreement of a rank on a turn, by the SEQ of the turn: STEP and map digest (R371). -/
structure Agree where
  rank : Nat
  seq : Nat
  step : DWord
  digest : BitVec 256
  deriving DecidableEq, Repr

/-- A turn to rollout in progress (R371): stage 1 to 6, the agreements and confirmations held, the data that came before stage 3 as (rank,
offset, bytes), the transfer bytes received, the digests that arrived, and the starts that the flip waits for. -/
structure Turn where
  ring : Nat
  pos : Nat
  step : DWord
  seq : Nat
  stage : Nat := 1
  agrees : List Agree := []
  confirms : List (Nat × BitVec 256) := []
  quiesce : List Nat := []
  sent : Bool := false
  early : List (Nat × Nat × List Byte) := []
  seen : List (Nat × Nat) := []
  bytes : Nat := 0
  arrived : Mem := []
  slice : Option (BitVec 256) := none
  flipWaits : Option (List Nat) := none
  written : Nat := 0
  deriving DecidableEq, Repr

/-- A layout pair (R362 to R379): phase 1 LEARN, 2 TURNING, 3 ROLLOUT; bank states 0 INVALID, 1 VALID, 2 FILLING. -/
structure Pair where
  group : Nat
  nranks : Nat
  me : Nat
  ranks : List Nat
  qslice : Nat
  aliasId : Nat
  bank0 : Nat
  bank1 : Nat
  recs : List SegRec
  mapDigest : BitVec 256
  phase : Nat := 1
  active : Nat := 0
  st0 : Nat := 0
  st1 : Nat := 0
  async : Bool
  turn : Option Turn := none
  deriving DecidableEq, Repr

/-- The Switchback registers beside the pair (spec/12). -/
structure SbRegs where
  failRank : Nat := 0
  lastCause : Byte := 0#8
  step : DWord := 0#64
  failed : Word := 0#32
  done : Word := 0#32
  digest : BitVec 256 := 0#256
  deriving DecidableEq, Repr

/-- A range of a Milepost list (R414). -/
structure Rng where
  obj : Nat
  off : Nat
  len : Nat
  deriving DecidableEq, Repr

/-- The SHADOW_CTL SETUP lists (R414). -/
structure MpSetup where
  shadowGroup : Nat
  replicaGroup : Nat
  shard : List Rng
  shadow : List Rng
  replica : List Rng
  keepObj : Nat
  stateObj : Nat
  deriving DecidableEq, Repr

/-- COMMIT in progress (R391, R393, R402): `taken` the bytes of the replica, shard and shadow ranges at its start where it forms digests,
whether steps 2 to 6 are done, the digests formed, and whether this rank has contributed. -/
structure CommitRun where
  taken : List (List Byte) := []
  checked : Bool := false
  formed : Bool := false
  contributed : Bool := false
  replica : BitVec 256 := 0#256
  shard : BitVec 256 := 0#256
  deriving DecidableEq, Repr

/-- The outcome the module keeps for a step (R415). -/
structure StepOut where
  step : DWord
  outcome : Nat
  cause : Byte
  attempt : Word
  failRank : Nat
  deriving DecidableEq, Repr

/-- The Milepost of a context (R387 to R415): `state` as TRN_MP_STATUS; `openStart` the start order at OPEN; `ownFail` that
this rank's own local failure started the failure; `replicaIn` and `shadowIn` the digests received (R403), `block` the successor's
provisional state block (R407) and `blockSeen` its 256-byte units received, as (SEQ, offset) (R277); `contribs` the contributions of other
ranks that have come (R393). -/
structure Mile where
  state : Nat := 0
  setup : Option MpSetup := none
  last : DWord := 0#64
  shard : DWord := 0#64
  shadow : DWord := 0#64
  expected : Word := 0#32
  attempt : Word := 0#32
  group : Nat := 0
  me : Nat := 0
  ranks : List Nat := []
  cause : Byte := 0#8
  failRank : Nat := 0
  staleFail : Nat := 0
  ownFail : Bool := false
  failedStep : DWord := 0#64
  openStart : Nat := 0
  badWork : Bool := false
  tOpen : DWord := 0#64
  tLastFire : Option DWord := none
  staleAtOpen : Word := 0#32
  commit : Option CommitRun := none
  replicaIn : List (Nat × BitVec 256) := []
  shadowIn : Option (BitVec 256) := none
  block : Mem := []
  blockSeen : List (Nat × Nat) := []
  digest : BitVec 256 := 0#256
  odd : Nat := 0
  outcomes : List StepOut := []
  contribs : List (Nat × Contribution) := []
  recs : Word := 0#32
  deriving DecidableEq, Repr

/-- The life of a context (R85). -/
inductive CtxState where
  | off
  | idle
  | active
  | faulted
  | stopping
  | resetting
  deriving DecidableEq, Repr

/-- Rollout state of a context (spec/10, spec/09). -/
structure Rollout where
  level : Nat := 0
  carry : Nat := 0
  requests : Tab Request := []
  deriving DecidableEq, Repr

/-- A context: its CTX page and everything it works on. `cqHold`: a record write has failed since the last RESUME, so records wait (R106);
`slotCredits`: slot credits that came before their queue opened (R282); `badReadies`: group, SEQ and UNIT of READYs that failed their
PAY_CRC before their COLLECTIVE moved (R280). -/
structure Ctx where
  state : CtxState := .off
  func : Func := .pf
  run : Bool := false
  strict : Bool := false
  resetReq : Bool := false
  enable : Bool := false
  pmcRead : Bool := false
  cause : Nat := 0
  faultInfo : DWord := 0#64
  maskErr : Bool := false
  linkHold : Bool := false
  epoch : Half := 1#16
  mask : TileMask := 0#96
  maskLatch : DWord := 0#64
  rings : Tab Ring := []
  descs : List Desc := []
  produced : Nat := 0
  consumed : Nat := 0
  held : List Rec := []
  cqHold : Bool := false
  coalN : Nat := 0
  msiPending : List Nat := []
  staleDrop : Word := 0#32
  integ : DWord := 0#64
  collSeq : Tab Nat := []
  readies : List ReadyInfo := []
  newer : List (Nat × Frame) := []
  queues : Tab QueueSt := []
  slotCredits : Tab Nat := []
  badReadies : List (Nat × Nat × Half) := []
  trig : List TrigEntry := []
  plan : Option PfPlan := none
  pfJobs : List MoveJob := []
  pfLate : Nat := 0
  pfSkipped : Nat := 0
  rollout : Rollout := {}
  pair : Option Pair := none
  sb : SbRegs := {}
  sbAgrees : List Agree := []
  mile : Mile := {}
  ovfProduced : Word := 0#32
  pmcProduced : Word := 0#32
  pmcLost : Word := 0#32
  deriving DecidableEq, Repr

/-- The sleep states of a tile (R66). -/
inductive Sleep where
  | running
  | gated
  | doze
  | off
  deriving DecidableEq, Repr

/-- A stationary set in the cells (R114, R115, R436): segment r of stationary row c at index 192c + r of `segs`, and the E8M0
scale of block b of row c at 32c + b of `scales`; the checksum column: σ and σ_abs of K element k at k of `sigma` and `sigmaAbs`
(R120); `lines` are the tile-store lines it was loaded from, as (first, count) (R123). Unlisted values are zero. -/
structure StatSet where
  fmt : Nat := 0
  ncols : Nat := 192
  kseg : Nat := 192
  segs : Tab Word := []
  scales : Tab Byte := []
  sigma : Tab Word := []
  sigmaAbs : Tab Word := []
  lines : List (Nat × Nat) := []
  deriving DecidableEq, Repr

/-- The pending MLOAD: its instruction number and word, and whether the shadow set is loaded (R124, R147). -/
structure Shadow where
  id : Nat
  word : TileWord
  loaded : Bool := false
  set : StatSet := {}
  deriving DecidableEq, Repr

/-- A pass that has read its input 0 (R125 to R129): the set it uses, the products of R117 of the blocks whose checks are decided and
not committed yet (rows of 192), blocks decided, blocks committed of a stream pass, the armed drain's number and word and what of its
output waits for protected lines (R123), TILE_MX_TOL at its start, scoreboard before it issued. -/
structure Pass where
  id : Nat
  word : TileWord
  pc : Nat
  set : StatSet
  sums : List (List (List Word)) := []
  checked : Nat := 0
  committed : Nat := 0
  armed : Option (Nat × TileWord) := none
  waiting : List (Nat × List Byte) := []
  tol : Nat
  scoreBefore : Word
  deriving DecidableEq, Repr

/-- An issued matrix instruction that has not started (R147). `pc` is its byte offset, `before` the scoreboard before it
issued, `armed` the armed drain of a stream pass. -/
structure MxOp where
  id : Nat
  word : TileWord
  pc : Nat
  before : Word
  armed : Option (Nat × TileWord) := none
  deriving DecidableEq, Repr

/-- A drain, MACCR or MACCW that has started (R132), and whether it holds all 32 channels; of an armed drain whose stream pass has
committed, what it has still to write (R123, R129). -/
structure Drain where
  id : Nat
  word : TileWord
  all : Bool
  left : Option (List (Nat × List Byte)) := none
  deriving DecidableEq, Repr

/-- A statistics record (R135). -/
structure StatRec where
  count : Word := 0#32
  nonfinite : Word := 0#32
  sum : Word := 0#32
  sumSq : Word := 0#32
  mean : Word := 0#32
  m2 : Word := 0#32
  maxAbs : Word := 0#32
  deriving DecidableEq, Repr

/-- A vote in progress on a block of a pass (R140): the product of run 0. -/
structure Vote where
  pass : Nat
  block : Nat
  run0 : List (List Word)
  deriving DecidableEq, Repr

/-- A tap slot of the norm tap (R167). -/
structure TapSlot where
  name : Half := 0#16
  count : Word := 0#32
  nonfinite : Word := 0#32
  sumSq : Word := 0#32
  deriving DecidableEq, Repr

/-- An issued vector instruction with its address (R158, R165); a launch that has started holds its parameter block and micro-operations. -/
structure VecOp where
  id : Nat
  word : TileWord
  pc : Nat := 0
  started : Bool := false
  param : List Byte := []
  prog : List Word := []
  deriving DecidableEq, Repr

/-- An issued DMA transfer (R169 to R171): parameter block, the DEV and SCALE_DEV references resolved at issue (R363),
whether it has started, and whether it holds its queue entry's stream prefetcher (R238). -/
structure DmaOp where
  id : Nat
  op : Nat
  pc : Nat
  params : List Byte
  dev : DWord
  scaleDev : DWord := 0#64
  started : Bool := false
  pf : Bool := false
  deriving DecidableEq, Repr

/-- An issued PDISPATCH not started (R173). -/
structure PrepOp where
  id : Nat
  word : TileWord
  deriving DecidableEq, Repr

/-- A mark of EFENCE that has not counted (R152): counter, and the marked instructions that have not completed. -/
structure Mark where
  counter : Nat
  ids : List Nat
  deriving DecidableEq, Repr

/-- The tile sequencer (R146 to R157): the descriptor it runs for, PC, CALL block (address, instructions, next; the return PC is
`pc`), instructions held by R130 as (address, word), wait code of TILE_SEQ_STATUS, the
counter and N that an EWAIT waits for, END reached, YIELD taken by a slice, whether the program ended by a fault of this tile whose earlier
instructions still run to their end (R131, R143), marks,
issued instructions not complete with their unit of R152, next number, armed drain with its number, events. An instruction's
address is its byte offset in the program, or 2^32 plus its tile-store address in a CALL block. -/
structure Seq where
  owner : Option (Nat × Nat × Nat) := none
  pc : Nat := 0
  call : Option (Nat × Nat × Nat) := none
  held : List (Nat × TileWord) := []
  wait : Nat := 0
  waitCtr : Nat := 0
  waitN : Nat := 0
  evSat : Bool := false
  ended : Bool := false
  yielded : Bool := false
  finish : Bool := false
  marks : List Mark := []
  busy : List (Nat × Nat) := []
  nextId : Nat := 0
  armed : Option (Nat × TileWord) := none
  events : Tab Half := []
  deriving DecidableEq, Repr

/-- A prep core (R172 to R177): registers x1 to x31, pc, private memory, CSRs by number, LR reservation, whether it runs,
SC.PUTs not yet in the junction cache. -/
structure Core where
  x : Tab Word := []
  pc : Word := 0#32
  priv : Mem := []
  csr : Tab Word := []
  resv : Option Nat := none
  running : Bool := false
  puts : List (Nat × List Byte) := []
  deriving DecidableEq, Repr

/-- A prep cluster (R173, R174): cluster memory, the image it holds as (address, length), the PDISPATCH it runs, whether
descriptor-driven work holds it. -/
structure Cluster where
  mem : Mem := []
  image : Option (Nat × Nat) := none
  dispatch : Option Nat := none
  desc : Bool := false
  cores : Tab Core := []
  deriving DecidableEq, Repr

/-- A self-test slice of a tile (R425). -/
inductive Slice where
  | none
  | pending
  | running
  deriving DecidableEq, Repr

/-- The matrix array and drain of a tile (spec/04): accumulator word (a, copy, row, column) at
((2a + copy) * 512 + row) * 192 + column; the selector of row r of tile a at 512a + r; `bar` and `barAbs` are the checksum row, ā and
ā_abs of the block checked last, by K element (R114, R136). -/
structure Matrix where
  acc : Tab Word := []
  sel : Tab Bool := []
  active : StatSet := {}
  bar : List Word := []
  barAbs : List Word := []
  shadow : Option Shadow := none
  score : Word := 0#32
  queue : List MxOp := []
  passes : List Pass := []
  drains : List Drain := []
  stats : Tab StatRec := []
  vote : Option Vote := none
  voteReg : DWord := 0xFF000000#64
  blocks : DWord := 0#64
  skipped : Nat := 0
  mismatch : Nat := 0
  arrayEv : List DWord := []
  chkEv : List DWord := []
  undecEv : List DWord := []
  undec : Bool := false
  chkFenced : Bool := false
  arrayFenced : Bool := false
  undecFenced : Bool := false
  deriving DecidableEq, Repr

/-- A write into tile store while instructions ran on other units: the 4-byte word, what it held before, and the numbers of the
instructions in flight, which may meet the word before or after the write (R155). -/
structure Race where
  word : Nat
  old : List Byte
  ids : List Nat
  deriving DecidableEq, Repr

/-- A tagged matrix or vector instruction whose sample is not written yet (R433): its number where it has one, its address, its word,
when it issued. -/
structure Tag where
  id : Option Nat
  pc : Nat
  word : TileWord
  issued : DWord
  deriving DecidableEq, Repr

/-- A tile. `races` are the words that instructions in flight may still meet as they were (R155); `writes` are, with REDUNDANT, the
device writes and LT.ADD results that its copy's other tile has not made yet: unit, address, bytes (R405); `sliceNext`: a slice is
pending while one runs (R425); `tags`: the tagged instructions without a sample yet, and `turns` the core each cluster sampled last (R433). -/
structure Tile where
  sleep : Sleep := .off
  waking : Bool := false
  store : Mem := []
  races : List Race := []
  mx : Matrix := {}
  seq : Seq := {}
  vec : List VecOp := []
  taps : Tab TapSlot := []
  dma : List DmaOp := []
  prep : List PrepOp := []
  clusters : Tab Cluster := []
  prepFault : Word := 0#32
  prepEpc : Word := 0#32
  prepTval : Word := 0#32
  writes : List (Nat × Nat × List Byte) := []
  slice : Slice := .none
  sliceNext : Bool := false
  tags : List Tag := []
  turns : Tab Nat := []
  pmc : Tab DWord := []
  pmcOvf : BitVec 16 := 0#16
  deriving DecidableEq, Repr

/-- An object (R223 to R225, R249): how many PROMOTEs in progress will set its PIN (R233), the frame of each block, whether LOAD_SIGNED filled it and verified it since its
quarantine, the promotions in flight, and the starts that a RELEASE waits for. -/
structure Obj where
  ubase : Nat
  size : Nat
  ctx : Nat
  state : Nat := 1
  cls : Nat := 0
  pin : Bool := false
  pinning : Nat := 0
  readOnly : Bool := false
  poisoned : Bool := false
  promoting : Nat := 0
  stackMask : BitVec 16 := 0#16
  touch : Word := 0#32
  frames : List Nat := []
  signed : Bool := false
  verified : Bool := false
  waits : List Nat := []
  deriving DecidableEq, Repr

/-- A block on its way to another frame (R229), and the writes that wait for it. -/
structure Mig where
  obj : Nat
  blk : Nat
  frame : Nat
  writes : List (Nat × List Byte) := []
  deriving DecidableEq, Repr

/-- Device memory (spec/07): contents of the blocks in HBM by unified address, unified blocks marked as zero-filled (R230), poisoned
64-byte lines by number, objects by ID, frames being
cleared, blocks moving, the size of BAR4 (R75, R222; log 15), region bases in force, times of corrected errors by row. -/
structure Memory where
  data : Mem := []
  zeroed : List Nat := []
  poison : List Nat := []
  objs : Tab Obj := []
  clearing : List Nat := []
  migs : List Mig := []
  barW : Nat := 2 ^ 30
  cfgErr : Bool := false
  eccCorrected : Tab Word := []
  eccUncorrected : Tab Half := []
  eccRows : Tab (List DWord) := []
  slowBase : Tab DWord := []
  adapters : List Adapter := []
  handles : List Prefix := []
  deriving DecidableEq, Repr

/-- The Page Ledger and the length table (spec/09): entries by number, sequences by number. -/
structure SeqEntry where
  len : Nat := 0
  base : Nat := 0
  cap : Nat := 0
  version : Half := 0#16
  live : Bool := false
  editWait : Bool := false
  deriving DecidableEq, Repr

structure Ledger where
  entries : Tab DWord := []
  seqs : Tab SeqEntry := []
  deriving DecidableEq, Repr

/-- An Oaruxa port (R255 to R264): state code of R255; `credits` granted by the far end per virtual channel; `share` what VC1, VC2 and VC3
have sent of their shares: bytes, times 2 for VC2 and 4 for VC3 (R263). -/
structure Port where
  state : Nat := 0
  swapped : Bool := false
  conn : Bool := false
  ret : Bool := false
  peerMod : Nat := 0
  peerPort : Nat := 0
  fails : Nat := 0
  linkSeq : Half := 0#16
  recvSeq : Half := 0#16
  credits : Tab Nat := []
  share : Tab Nat := []
  queued : List Frame := []
  replay : List Frame := []
  corrected : Word := 0#32
  uncorr : Half := 0#16
  replays : Half := 0#16
  deriving DecidableEq, Repr

/-- A laser bay (R284 to R291): state code and cause of R289, the cartridge's record, hourly wear additions and bias samples. -/
structure Bay where
  state : Nat := 0
  cause : Nat := 0
  ilk : Bool := false
  retire : Bool := false
  ramping : Bool := false
  lifeWarn : Bool := false
  serial : DWord := 0#64
  record : Option CartRecord := none
  wear : Word := 0#32
  life : Word := 0#32
  bias : Half := 0#16
  power : Half := 0#16
  adds : List Nat := []
  biases : List Nat := []
  deriving DecidableEq, Repr

/-- A remote signal on its way from one tile to a counter of another (R154, R251). -/
structure Signal where
  src : Nat
  dst : Nat
  ctr : Nat
  n : Nat
  deriving DecidableEq, Repr

/-- The fabric (spec/08). `signals` are the remote signals on their way, oldest first; `waiting` holds frames none of whose mask's ports is
UP (R277); `cwSpares` counts the spare lanes in use of direction 2l + back of link l (R252). -/
structure Fabric where
  signals : List Signal := []
  ports : Tab Port := []
  routes : Tab DWord := []
  waiting : List Frame := []
  cfgErr : Bool := false
  enginesOff : BitVec 8 := 0#8
  dropTag : Nat := 0
  dropHops : Nat := 0
  cwSpares : Tab Nat := []
  cwSpared : BitVec 10 := 0#10
  cwDown : BitVec 10 := 0#10
  bays : Tab Bay := []
  deriving DecidableEq, Repr

/-- Host memory as the module reaches it (R77, R105). -/
structure HostMem where
  data : Mem := []
  deny : List (Func × Nat × Nat) := []
  poison : List (Nat × Nat) := []
  deriving DecidableEq, Repr

/-- The state of the module. `nextFetch`: for each PRIO the ring, 16 times its context plus its number, that the round-robin of R90 looks at
first. -/
structure State where
  time : DWord := 0#64
  chip : Chip := {}
  flash : Flash := {}
  inputs : Inputs := {}
  mgmt : Mgmt := {}
  power : Power := {}
  hostA : HostPortSt := {}
  hostB : HostPortSt := {}
  pll : Tab Nat := []
  regs : Tab DWord := []
  latches : Tab Word := []
  ctxs : Tab Ctx := []
  tiles : Tab Tile := []
  mem : Memory := {}
  ledger : Ledger := {}
  fabric : Fabric := {}
  host : HostMem := {}
  pmcMod : Tab DWord := []
  pmcModOvf : BitVec 16 := 0#16
  pmcTime : DWord := 0#64
  nextFetch : Tab Nat := []
  nextStart : Nat := 0
  fresh : Nat := 0
  out : List Out := []
  pending : List Instr := []
  deriving DecidableEq, Repr

/-- Right after auxiliary power-on (R72): nothing volatile is kept, stage 0 is not reached yet, both PERST inputs are held
asserted by their internal pull-downs, context 0 is Idle, since it is never Off (R85), and the queue is empty. Values the spec does not give: log 3, log 4, log 5, log 6. -/
def State.reset : State := { ctxs := [(0, { state := .idle, enable := true })] }

end Sys2Proof.Machine
end

