-- ==== Sys2Proof/Machine/Store.lean ====
section
/-!
DEFINITION. Tables keyed by number and byte memories in canonical form: addresses strictly rising and no zero byte listed, so
that equal memories are equal lists. Writing a zero removes the entry.
-/
namespace Sys2Proof.Machine

/-- The entry of key k, or d. -/
def Tab.get (d : α) : Tab α → Nat → α
  | [], _ => d
  | (a, x) :: r, k => if a = k then x else Tab.get d r k

/-- The entry of key k, if listed. -/
def Tab.find? : Tab α → Nat → Option α
  | [], _ => none
  | (a, x) :: r, k => if a = k then some x else Tab.find? r k

/-- Sets the entry of key k, keeping the keys rising. -/
def Tab.set : Tab α → Nat → α → Tab α
  | [], k, v => [(k, v)]
  | (a, x) :: r, k, v =>
    if k < a then (k, v) :: (a, x) :: r else if a = k then (k, v) :: r else (a, x) :: Tab.set r k v

/-- Removes the entry of key k. -/
def Tab.erase : Tab α → Nat → Tab α
  | [], _ => []
  | (a, x) :: r, k => if a = k then r else (a, x) :: Tab.erase r k

/-- Changes the entry of key k. -/
def Tab.mod (d : α) (t : Tab α) (k : Nat) (f : α → α) : Tab α := t.set k (f (t.get d k))

/-- Keys strictly rising from above lo, no zero byte. -/
def Mem.wfFrom : Nat → Mem → Bool
  | _, [] => true
  | lo, (a, b) :: r => decide (lo ≤ a) && decide (b ≠ 0#8) && Mem.wfFrom (a + 1) r

/-- The canonical form of a byte memory. -/
def Mem.wf (m : Mem) : Bool := Mem.wfFrom 0 m

/-- The byte at address a; zero where none is listed. -/
def Mem.read : Mem → Nat → Byte
  | [], _ => 0#8
  | (k, b) :: r, a => if k = a then b else Mem.read r a

/-- Writes one byte. -/
def Mem.write : Mem → Nat → Byte → Mem
  | [], a, v => if v = 0#8 then [] else [(a, v)]
  | (k, b) :: r, a, v =>
    if a < k then (if v = 0#8 then (k, b) :: r else (a, v) :: (k, b) :: r)
    else if k = a then (if v = 0#8 then r else (a, v) :: r)
    else (k, b) :: Mem.write r a v

/-- The n bytes from address a. -/
def Mem.readN (m : Mem) (a : Nat) : Nat → List Byte
  | 0 => []
  | n + 1 => m.read a :: Mem.readN m (a + 1) n

/-- Writes bytes from address a upwards. -/
def Mem.writeN : Mem → Nat → List Byte → Mem
  | m, _, [] => m
  | m, a, b :: bs => Mem.writeN (m.write a b) (a + 1) bs

/-- Zeros the n bytes from address a. -/
def Mem.clear : Mem → Nat → Nat → Mem
  | [], _, _ => []
  | (k, b) :: r, a, n => if a ≤ k ∧ k < a + n then Mem.clear r a n else (k, b) :: Mem.clear r a n

/-- The cells of the n bytes from address a, as if these lay at address b. -/
def Mem.part : Mem → Nat → Nat → Nat → Mem
  | [], _, _, _ => []
  | (k, x) :: r, a, n, b => if a ≤ k ∧ k < a + n then (k - a + b, x) :: Mem.part r a n b else Mem.part r a n b

/-- Writes the cells of a part at address b upwards. -/
def Mem.put (m part : Mem) (b : Nat) : Mem := part.foldl (fun m x => m.write (x.1 + b) x.2) m

/-- The little-endian number of n bytes from address a. -/
def Mem.readLE (m : Mem) (a n : Nat) : Nat := leNat (m.readN a n)

/-- Writes the n low bytes of v from address a. -/
def Mem.writeLE (m : Mem) (a n v : Nat) : Mem := m.writeN a (leBytes n v)

end Sys2Proof.Machine
end

