-- ==== Sys2Proof/Machine/RegMap.lean ====
section
/-!
DEFINITION. Offsets of the BAR0 registers that hold a set-up value of their own (`State.regs`), and their reset values. A 64-bit
register is held at the offset of its low word (R9). The names are the spec's register maps'.
-/
namespace Sys2Proof.Machine

def ctxPage (c : Nat) : Nat := 0x100000 + 0x1000 * c
def trnPage (c : Nat) : Nat := 0xF00000 + 0x200 * c

def rSleepCtl : Nat := 0xA00100
def rPwrCtl : Nat := 0xA00200
def rThrottleCtl : Nat := 0xA00204
def rThermCtl : Nat := 0xA00210
def rStCtl : Nat := 0xA00300
def rMemWin : Nat := 0x200010
def rScrub : Nat := 0x200020
def rJcPf : Nat := 0x200024
def rSlowSize (n : Nat) : Nat := 0x200108 + 0x10 * n
def rSlowBase (n : Nat) : Nat := 0x200100 + 0x10 * n
def rFloor (c : Nat) : Nat := 0x201000 + 0x20 * c
def rSlowLimit (c : Nat) : Nat := 0x201004 + 0x20 * c
def rObjRange (c : Nat) : Nat := 0x201008 + 0x20 * c
def rLedgerRange (c : Nat) : Nat := 0x202000 + 0x20 * c
def rSeqRange (c : Nat) : Nat := 0x202008 + 0x20 * c
def rModAddr : Nat := 0x800000
def rRouteIdx : Nat := 0x800010
def rPortCtl (p : Nat) : Nat := 0x801004 + 0x20 * p
def rCtxTag (c : Nat) : Nat := 0x804000 + 0x10 * c
def rPubCtl (k : Nat) : Nat := 0xE01000 + 0x40 * k
def rPubCtx (k : Nat) : Nat := 0xE01008 + 0x40 * k
def rPubHash (k w : Nat) : Nat := 0xE01010 + 0x40 * k + 4 * w
def rTimers (c : Nat) : Nat := ctxPage c + 0xC
def rCqBase (c : Nat) : Nat := ctxPage c + 0x20
def rCqCfg (c : Nat) : Nat := ctxPage c + 0x28
def rRingBase (c q : Nat) : Nat := ctxPage c + 0x40 + 0x10 * q
def rRingCfg (c q : Nat) : Nat := ctxPage c + 0x48 + 0x10 * q
def rHwinBase (c w : Nat) : Nat := ctxPage c + 0x140 + 0x10 * w
def rHwinSize (c w : Nat) : Nat := ctxPage c + 0x148 + 0x10 * w
def rNumCtl (c : Nat) : Nat := ctxPage c + 0x300
def rOvfPlan (c : Nat) : Nat := ctxPage c + 0x308
def rOvfCfg (c : Nat) : Nat := ctxPage c + 0x310
def rOvfLogBase (c : Nat) : Nat := ctxPage c + 0x318
def rOvfLogCfg (c : Nat) : Nat := ctxPage c + 0x320
def rCollTimeout (c : Nat) : Nat := ctxPage c + 0x400
def rGroupBase (c : Nat) : Nat := ctxPage c + 0x408
def rGroupCfg (c : Nat) : Nat := ctxPage c + 0x410
def rQueueBase (c : Nat) : Nat := ctxPage c + 0x418
def rKvLayout (c : Nat) : Nat := ctxPage c + 0x800
def rServeLogits (c : Nat) : Nat := ctxPage c + 0xA00
def rServeCfg (c : Nat) : Nat := ctxPage c + 0xA08
def rServeStepBlk (c : Nat) : Nat := ctxPage c + 0xA10
def rTgCtl (c : Nat) : Nat := ctxPage c + 0xA20
def rTgRate (c : Nat) : Nat := ctxPage c + 0xA24
def rTgDepth (c : Nat) : Nat := ctxPage c + 0xA28
def rSbTimeout (c : Nat) : Nat := ctxPage c + 0xE10
def rPmcBuf (c : Nat) : Nat := ctxPage c + 0xF00
def rPmcCfg (c : Nat) : Nat := ctxPage c + 0xF08
def rPmcSnap (c : Nat) : Nat := ctxPage c + 0xF10
def rTrigBase (c : Nat) : Nat := trnPage c
def rTrigCfg (c : Nat) : Nat := trnPage c + 0x8
def rClipMax (c : Nat) : Nat := trnPage c + 0xC
def rClipEps (c : Nat) : Nat := trnPage c + 0x10
def rNormBase (c : Nat) : Nat := trnPage c + 0x18
def rCommitOut (c : Nat) : Nat := trnPage c + 0x20
def rRecBase (c : Nat) : Nat := trnPage c + 0x28
def rRecCfg (c : Nat) : Nat := trnPage c + 0x30
def rMpCtl (c : Nat) : Nat := trnPage c + 0x40
def rMpTimeout (c : Nat) : Nat := trnPage c + 0x44
def rMxTol (t : Nat) : Nat := 0x1000200 + 0x10000 * t
def rPmcSel (t k : Nat) : Nat := 0xC00000 + 0x400 * t + 4 * k
def rPmcTag (t : Nat) : Nat := 0xC00184 + 0x400 * t

/-- The power class in W that the strap bits of GLB_STRAP select (R29). -/
def classOfStrap (strap : Nat) : Nat :=
  match fld strap 11 2 with
  | 1 => 4800
  | 2 => 4200
  | _ => 3600

/-- The reset value of a register of a CTX page at page offset p. -/
def ctxReset (p : Nat) : Nat :=
  if p = 0x00C then 2000 * 2 ^ 16 + 1000
  else if p = 0x028 then 16 * 2 ^ 24 + 50 * 2 ^ 16 + 2 * 2 ^ 8
  else if p = 0x300 then 8
  else if p = 0x400 then 5000
  else if p = 0x800 then 2 ^ 16 + 64
  else if p = 0xA20 then 32
  else if p = 0xE10 then 60000
  else 0

/-- The reset value of a register of a TRN block at offset r. -/
def trnReset (r : Nat) : Nat :=
  if r = 0x0C then 0x3F800000 else if r = 0x10 then 0x358637BD else if r = 0x40 then 8 else if r = 0x44 then 10000 else 0

/-- The reset value of the register at a BAR0 offset, given the power class. -/
def regReset (cls off : Nat) : Nat :=
  if 0x100000 ≤ off ∧ off < 0x140000 then ctxReset (off % 0x1000)
  else if off = 0x200020 then 2 ^ 31 + 24
  else if off = 0x200024 then 2 ^ 31 + 16
  else if off = rSleepCtl then 2 ^ 25 + 2 ^ 24 + 10 * 2 ^ 16 + 500
  else if off = rPwrCtl then cls
  else if off = rThrottleCtl then 32 * 2 ^ 16 + cls / 2
  else if off = rThermCtl then 105
  else if off = rStCtl then 2 ^ 31 + 600
  else if 0xC00000 ≤ off ∧ off < 0xC18000 then (if off % 0x400 = 0x184 then 12 * 2 ^ 24 + 16 * 2 ^ 16 else 0)
  else if 0xF00000 ≤ off ∧ off < 0xF08000 then trnReset (off % 0x200)
  else if 0x1000000 ≤ off ∧ off < 0x1600000 then
    (if off % 0x10000 = 0x200 then 110 * 2 ^ 24 + 12 * 2 ^ 8 + 13 else 0)
  else 0

/-- The value held by a set-up register. -/
def State.reg (s : State) (off : Nat) : Nat :=
  match Tab.find? s.regs off with
  | some v => v.toNat
  | none => regReset (classOfStrap s.chip.strap.toNat) off

/-- Sets a set-up register. -/
def State.setReg (s : State) (off v : Nat) : State := { s with regs := s.regs.set off (dword v) }

end Sys2Proof.Machine
end

