-- ==== Sys2Proof/Machine/Ops.lean ====
section
/-!
DEFINITION. Named operations over the state that every family shares: contexts, tiles, free values, logs, FAULT_N, interrupts and
paths to the host.
-/
namespace Sys2Proof.Machine

def State.ctx (s : State) (c : Nat) : Ctx := s.ctxs.get {} c
def State.setCtx (s : State) (c : Nat) (x : Ctx) : State := { s with ctxs := s.ctxs.set c x }
def State.modCtx (s : State) (c : Nat) (f : Ctx → Ctx) : State := s.setCtx c (f (s.ctx c))
def State.tile (s : State) (t : Nat) : Tile := s.tiles.get {} t
def State.setTile (s : State) (t : Nat) (x : Tile) : State := { s with tiles := s.tiles.set t x }
def State.modTile (s : State) (t : Nat) (f : Tile → Tile) : State := s.setTile t (f (s.tile t))
def State.port (s : State) (p : Nat) : Port := s.fabric.ports.get {} p
def State.setPort (s : State) (p : Nat) (x : Port) : State :=
  { s with fabric := { s.fabric with ports := s.fabric.ports.set p x } }
def State.modPort (s : State) (p : Nat) (f : Port → Port) : State := s.setPort p (f (s.port p))
def State.bay (s : State) (b : Nat) : Bay := s.fabric.bays.get {} b
def State.setBay (s : State) (b : Nat) (x : Bay) : State :=
  { s with fabric := { s.fabric with bays := s.fabric.bays.set b x } }
def State.obj? (s : State) (o : Nat) : Option Obj := s.mem.objs.find? o
def State.setObj (s : State) (o : Nat) (x : Obj) : State := { s with mem := { s.mem with objs := s.mem.objs.set o x } }
def State.modObj (s : State) (o : Nat) (f : Obj → Obj) : State :=
  match s.obj? o with
  | some x => s.setObj o (f x)
  | none => s
def State.hostPort (s : State) (h : HPort) : HostPortSt :=
  match h with
  | .a => s.hostA
  | .b => s.hostB
def State.setHostPort (s : State) (h : HPort) (x : HostPortSt) : State :=
  match h with
  | .a => { s with hostA := x }
  | .b => { s with hostB := x }
def State.modHostPort (s : State) (h : HPort) (f : HostPortSt → HostPortSt) : State := s.setHostPort h (f (s.hostPort h))

/-- The number of a function: 0 for physical function 0, n for virtual function n. -/
def funcNum : Func → Nat
  | .pf => 0
  | .vf n => n.val

/-- Advances the counter of free values (log 2). -/
def State.bump (s : State) : State := { s with fresh := s.fresh + 1 }
/-- The free value of this use; the user advances the counter with `bump`. -/
def State.free (s : State) : DWord := Config.freeWord s.fresh
/-- n free bytes of this use. -/
def State.freeBytes (s : State) (n : Nat) : List Byte := (List.range n).map (fun i => Config.freeByte (s.fresh * 2 ^ 41 + i))

/-- Sends something outside the module. -/
def State.emit (s : State) (o : Out) : State := { s with out := s.out ++ [o] }

/-- Records an event in the health log (R56). Kinds: 1 fence, 2 rail, 3 Causeway lane, 4 Causeway link, 5 corrected errors, 6
retirement, 7 quarantine, 8 marginal, 9 self-test failure, 10 life warning, 11 reverse polarity, 12 image failure, 13 plan, 14
path monitors, 15 array event, 16 checksum-path event, 17 undecided vote, 18 uncorrectable error. -/
def State.logEv (s : State) (kind : Nat) (args : List Nat) : State :=
  { s with flash := { s.flash with log := s.flash.log ++ [⟨kind, args⟩] } }

/-- Counts an access in the global error counters (R10, R50). -/
def State.countErr (s : State) : State := { s with chip := { s.chip with errors := s.chip.errors + 1 } }

/-- Adds n to module counter i, 48 bits wide, with its sticky wrap bit (R431, R432). -/
def State.countMod (s : State) (i n : Nat) : State :=
  let v := (s.pmcMod.get 0#64 i).toNat + n
  { s with
    pmcMod := s.pmcMod.set i (dword (v % 2 ^ 48))
    pmcModOvf := if 2 ^ 48 ≤ v then s.pmcModOvf ||| BitVec.ofNat 16 (2 ^ i) else s.pmcModOvf }


/-- The module counters of time up to now: microseconds with THROTTLE_N asserted, with m below 64 for power, and held by R419 (R432). The
microseconds that have begun since the last count pass in the state in force. -/
def State.accrue (s : State) : State :=
  let n := s.time.toNat / 1000 - s.pmcTime.toNat / 1000
  if n = 0 then s else
    { ((s.countMod 1 (if s.inputs.throttle then n else 0)).countMod 2 (if s.power.m < 64 then n else 0)).countMod 3 (if s.power.therm then n else 0) with
      pmcTime := s.time }

/-- Microseconds and 2^20 ns units of the global time base. -/
def State.us (s : State) : Nat := s.time.toNat / 1000
def State.touchNow (s : State) : Word := word (s.time.toNat / 2 ^ 20)

def State.strapNat (s : State) : Nat := s.chip.strap.toNat
def State.pwrClass (s : State) : Nat := classOfStrap s.strapNat
def State.safeBootN (s : State) : Bool := bitOf s.strapNat 13
def State.hostSplit (s : State) : Bool := bitOf s.strapNat 4
/-- Live feeds: bit 0 PWR_A, bit 1 PWR_B (HLT_INPUT_STATUS.FEED). -/
def State.feeds (s : State) : Nat := b2n s.inputs.feedA + 2 * b2n s.inputs.feedB
def State.oneFeed (s : State) : Bool := s.inputs.feedA != s.inputs.feedB
/-- Whether the connector is a live feed (R20). -/
def State.live (s : State) (feedB : Bool) : Bool := if feedB then s.inputs.feedB else s.inputs.feedA
/-- The electrical peak in W (R21, R47). -/
def State.peakW (s : State) : Nat := if s.oneFeed then 4400 else 6000

/-- A sticky bit of HLT_INPUT_STATUS. -/
def State.setSticky (s : State) (i : Nat) : State :=
  { s with inputs := { s.inputs with sticky := s.inputs.sticky ||| word (2 ^ i) } }

/-- Both cartridges of an engine out, the engine's dies (R44, R291). -/
def State.engineOff (s : State) (d : Nat) : Bool := s.fabric.enginesOff.toNat.testBit d

/-- Bits of HLT_INPUT_STATUS that keep FAULT_N asserted: REV_A, REV_B, UV, OV, OCP, CLASS_FEED (R34). -/
def faultSticky : Nat := 0xFC0

/-- A present cause of FAULT_N (R34). -/
def State.faultPresent (s : State) : Bool :=
  (s.chip.stage == 0 && decide (3 ≤ s.chip.cause.toNat ∧ s.chip.cause.toNat ≤ 9)) || s.chip.safeHold || s.power.hot
    || !s.inputs.railsOff.isEmpty || s.inputs.revA || s.inputs.revB || s.inputs.lostInService
    || (s.oneFeed && decide (3600 < s.pwrClass)) || s.fabric.enginesOff != 0#8

/-- A sticky cause of FAULT_N (R34). -/
def State.faultHeld (s : State) : Bool := s.inputs.sticky.toNat &&& faultSticky != 0 || s.power.trip

def State.assertFault (s : State) : State := { s with inputs := { s.inputs with faultN := true } }

/-- FAULT_N is released once no cause is present and no sticky cause bit is set (R34). -/
def State.refreshFault (s : State) : State :=
  if s.faultPresent || s.faultHeld then s else { s with inputs := { s.inputs with faultN := false } }

/-- The die that a power domain belongs to; none for the module's shared domains (R66). -/
def domainDie (d : Nat) : Option Nat := if d < 384 then some (d / 48) else if d < 408 then some ((d - 384) / 3) else none

/-- PD410, the host interface, and PD411, HBM, Causeway and the global time base (R66). -/
def pdHost : Nat := 410
def pdMem : Nat := 411

/-- A tripped rail has turned the domain off (R23). -/
def State.railCut (s : State) (d : Nat) : Bool := s.inputs.domainsOff.contains d

/-- A tripped rail feeds a domain of the die, or the HBM, whose tiles are then out of service (R23; log 54). -/
def State.dieRailOff (s : State) (d : Nat) : Bool := s.inputs.domainsOff.any (fun x => domainDie x == some d) || s.railCut pdMem

/-- Codes of `State.pll`: the compute PLL of a die is locked, or it has stopped. -/
def pllLocked : Nat := 0
def pllStopped : Nat := 1

/-- The recovered receive clock of a port runs: it has trained and is UP (R65, R256). -/
def State.rxClock (s : State) (p : Nat) : Bool := decide (3 ≤ s.chip.stage) && (s.port p).state == 4

/-- Clock domain CDn of R65 runs. CD02 to CD09 are the compute clocks of the dies, on demand (R68); CD20 runs with its ports, port by
port (`State.rxClock`). -/
def State.clockOn (s : State) (n : Nat) : Bool :=
  if n = 0 then s.chip.auxOn && s.chip.alwaysOn
  else if n = 1 ∨ n = 23 ∨ n = 24 then s.chip.rom
  else if 2 ≤ n ∧ n ≤ 9 then decide (2 ≤ s.chip.stage) && s.pll.get pllLocked (n - 2) == pllLocked
  else if 10 ≤ n ∧ n ≤ 17 then decide (2 ≤ s.chip.stage)
  else if n = 18 ∨ n = 22 then decide (2 ≤ s.chip.stage) && !s.railCut pdMem
  else if n = 19 then decide (3 ≤ s.chip.stage)
  else if n = 20 then (List.range 64).any s.rxClock
  else if n = 21 then (s.hostA.enumerated || s.hostB.enumerated) && !s.inputs.refclkLost && !s.railCut pdHost
  else false

/-- A prep cluster of one half of a tile holds a dispatch; half 0 is clusters 0 to 13, on prep domain A (R66, R67). -/
def Tile.prepHalf (x : Tile) (b : Bool) : Bool :=
  x.clusters.any (fun c => (decide (14 ≤ c.1) == b) && (c.2.desc || c.2.dispatch.isSome))

/-- Power domain PDn of R66 is on: of a tile as its sleep state says, and in Doze a prep domain while a dispatch that a descriptor sent
straight to the tile needs it (R67). -/
def State.domainOn (s : State) (n : Nat) : Bool :=
  let x := s.tile (n / 4)
  !s.railCut n &&
    (if n < 384 then
      (match x.sleep with
       | .off => false
       | .running | .gated => true
       | .doze => n % 4 == 1 || (decide (2 ≤ n % 4) && x.prepHalf (n % 4 == 3)))
     else if n < 408 then decide ((if n % 3 = 2 then 3 else 2) ≤ s.chip.stage)
     else if n = 408 then s.chip.auxOn
     else if n = 409 then s.chip.rom
     else if n = 410 then s.inputs.pwrGood
     else decide (n = 411 ∧ 2 ≤ s.chip.stage))

/-- One tick of the global time base, which CD22 clocks (R65; log 13). -/
def tick (s : State) : State := if s.clockOn 22 then { s with time := s.time + 1#64 } else s

/-- A retired HBM stack: one whose 32,768 frames are all retired (R244, R406; log 125). -/
def State.stackRetired (s : State) (st : Nat) : Bool := decide (32768 ≤ (s.flash.retired.filter (fun f => f / 32768 == st)).length)

/-- DEGRADED of GLB_STAGE: a unit fenced, a rail tripped, an HBM stack retired, an engine off, or a Causeway link down (R253, R406). -/
def State.degraded (s : State) : Bool :=
  !s.inputs.railsOff.isEmpty || s.flash.tileFence != 0#96 || s.flash.dieFence != 0#8 || s.fabric.enginesOff != 0#8 || s.fabric.cwDown != 0#10
    || (List.range 16).any s.stackRetired

/-- Whether a tile is fenced, itself or with its die (R141, R423). -/
def State.tileFenced (s : State) (t : Nat) : Bool :=
  s.flash.tileFence.toNat.testBit t || s.flash.dieFence.toNat.testBit (t / 12)

/-- A host port that carries a function: its link is up and it presents the function (R79, R80). -/
def HostPortSt.presents (p : HostPortSt) (f : Func) : Bool :=
  p.link && p.enumerated && (match f with
    | .pf => true
    | .vf n => p.vfEnable && decide (0 < n.val ∧ n.val ≤ p.numVfs))

/-- A path from a function to the host is up (R113). -/
def State.pathUp (s : State) (f : Func) : Bool := s.hostA.presents f || s.hostB.presents f

/-- The home port of a function: HOST_A while its link is up and it presents the function, else HOST_B (R80). -/
def State.homePort (s : State) (f : Func) : HPort := if s.hostA.presents f then .a else .b

/-- Both ports are live paths of the function (R79). -/
def State.twoPaths (s : State) (f : Func) : Bool := s.hostA.presents f && s.hostB.presents f

/-- The port by which a data access of a function to a host address travels: over two live paths they alternate at each 4 KiB (R79;
which of the two takes the even pages is log 92). -/
def State.dataPort (s : State) (f : Func) (addr : Nat) : HPort :=
  if s.twoPaths f then (if addr / 4096 % 2 = 0 then .a else .b) else s.homePort f

/-- The management controller reaches the module by the bus (R27, R57). -/
def State.busUp (s : State) : Bool := s.chip.rom && !s.mgmt.stuck
/-- The host reaches the mailbox: physical function 0 on an enumerated port (R33, R48, R58). -/
def State.mailboxUp (s : State) : Bool := s.chip.rom && s.pathUp .pf
/-- A management request arrives by a path (R57). -/
def State.mgmtUp (s : State) (path : MgmtPath) : Bool :=
  match path with
  | .bus => s.busUp
  | .mailbox => s.mailboxUp

/-- Reports an event over the management bus, or keeps the report until the bus is there (R19, R27). -/
def State.report (s : State) (kind : Nat) (args : List Nat) : State :=
  if s.busUp then s.emit (.mgmt (Config.busReport kind args))
  else { s with mgmt := { s.mgmt with reports := s.mgmt.reports ++ [⟨kind, args⟩] } }

/-- Sends the reports that waited for the bus. -/
def State.sendReports (s : State) : State :=
  if s.busUp then
    s.mgmt.reports.foldl (fun (s : State) e => s.emit (.mgmt (Config.busReport e.kind e.args))) { s with mgmt := { s.mgmt with reports := [] } }
  else s

/-- The function that a context belongs to by the ports' present settings (R82). -/
def State.funcOf (s : State) (c : Nat) : Func :=
  if h : 0 < c ∧ c < 64 then
    if (s.hostA.enumerated && s.hostA.vfEnable && decide (c ≤ s.hostA.numVfs))
        || (s.hostB.enumerated && s.hostB.vfEnable && decide (c ≤ s.hostB.numVfs))
    then .vf ⟨c, h.2⟩ else .pf
  else .pf

/-- The MSI-X vector number of vector v of context c in its function (R93). -/
def Ctx.vectorNo (x : Ctx) (c v : Nat) : Nat :=
  match x.func with
  | .pf => 32 * c + v
  | .vf _ => v

/-- The host has masked a vector of a function on its home port (R75; log 15). -/
def State.vecMasked (s : State) (f : Func) (n : Nat) : Bool := (s.hostPort (s.homePort f)).setup.msixMasked.contains (f, n)

/-- Raises vector v of context c, or leaves it pending while no path is up or the host masks it (R75, R93, R113). -/
def State.raiseVec (s : State) (c v : Nat) : State :=
  let x := s.ctx c
  if s.pathUp x.func && !s.vecMasked x.func (x.vectorNo c v) then s.emit (.msix (s.homePort x.func) x.func (x.vectorNo c v))
  else s.setCtx c { x with msiPending := if x.msiPending.contains v then x.msiPending else x.msiPending ++ [v] }

/-- Every context that the spec numbers, 0 to 63. -/
def allCtxs : List Nat := List.range 64
def allTiles : List Nat := List.range 96

def CtxState.code : CtxState → Nat
  | .off => 0
  | .idle => 1
  | .active => 2
  | .faulted => 3
  | .stopping => 4
  | .resetting => 5

/-- The context that a function may address with a register or doorbell of context c: itself for a virtual function; for
physical function 0 the contexts it holds (R82, R84). -/
def State.holds (s : State) (f : Func) (c : Nat) : Bool := decide ((s.ctx c).func = f) && decide (funcNum f = 0 ∨ funcNum f = c)

/-- A context fault (R106): the first one sets CAUSE and CTX_FAULT_INFO and raises vector 1. -/
def State.ctxFault (s : State) (c cause info : Nat) : State :=
  let x := s.ctx c
  match x.state with
  | .idle | .active | .stopping =>
    (s.setCtx c { x with state := .faulted, cause := cause, faultInfo := dword info }).raiseVec c 1
  | _ => s

/-- The epoch after e: 1 to 65,535, wrapping to 1 (R110). -/
def nextEpoch (e : Half) : Half := if e = 65535#16 then 1#16 else e + 1#16

/-- Epoch e is older than the current epoch c (R110). -/
def olderEpoch (e c : Nat) : Bool :=
  let d := (c + 65536 - e) % 65536
  decide (1 ≤ d ∧ d ≤ 32767)

/-- The owner of a tile: the context whose mask holds it (R83). -/
def State.tileCtx (s : State) (t : Nat) : Option Nat := allCtxs.find? (fun c => (s.ctx c).mask.toNat.testBit t)

/-- No effect: the event finds nothing to act on in this state (log 14). -/
abbrev stay (s : State) : Host.Outcome State Fault Refusal := .next s

end Sys2Proof.Machine
end

