-- ==== Sys2Proof/Machine/Slow.lean ====
section
/-!
DEFINITION. Blocks, their frames, and where their bytes lie (R219 to R221, R224, R229, R230). The bytes of a block in HBM are held by
unified address, since they follow it from frame to frame (R220). Those of a block in the slow tier are host memory, which the module
reaches as physical function 0 (R221), but for a block marked as zero-filled, which has none yet (R230).
-/
namespace Sys2Proof.Machine

def blockBytes : Nat := 2 ^ 21
def hbmFrames : Nat := 524288

/-- Blocks of an object (R224). -/
def Obj.blocks (o : Obj) : Nat := ceilDiv o.size blockBytes
def isHbm (f : Nat) : Bool := decide (f < hbmFrames)
def stackOf (f : Nat) : Nat := f / 32768

/-- Slow-tier frames of region n (R219). -/
def State.slowFrames (s : State) (n : Nat) : Nat := s.reg (rSlowSize n) / blockBytes
/-- All slow-tier frames. -/
def State.slowTotal (s : State) : Nat := ((List.range 16).map s.slowFrames).sum
/-- The number of the first frame of region n. -/
def State.slowFirst (s : State) (n : Nat) : Nat := hbmFrames + ((List.range n).map s.slowFrames).sum
/-- The base of a region in force (R250). -/
def State.slowIova (s : State) (n : Nat) : Nat := (s.mem.slowBase.get 0#64 n).toNat

/-- The host address of a slow-tier frame: frames of a region lie 2 MiB apart (R219, R221). -/
def State.frameIova (s : State) (f : Nat) : Nat :=
  match (List.range 16).find? (fun n => decide (s.slowFirst n ≤ f) && decide (f < s.slowFirst n + s.slowFrames n)) with
  | some n => s.slowIova n + (f - s.slowFirst n) * blockBytes
  | none => 0

/-- The frame of a block of an object. -/
def Obj.frame (o : Obj) (b : Nat) : Nat := o.frames.getD b 0

/-- The unified number of a block of an object: its unified address in units of 2 MiB. -/
def Obj.block (o : Obj) (b : Nat) : Nat := o.ubase / blockBytes + b

/-- The object whose blocks hold a unified address, live or not. -/
def State.blockOwner (s : State) (a : Nat) : Option (Nat × Obj) :=
  List.find? (fun (o : Nat × Obj) => decide (o.2.ubase ≤ a) && decide (a < o.2.ubase + blockBytes * o.2.blocks)) s.mem.objs

/-- The unified block is marked as zero-filled (R230). -/
def State.zeroFilled (s : State) (u : Nat) : Bool := s.mem.zeroed.contains u

/-- The slow-tier frame of the block at a unified address. -/
def State.slowFrameAt (s : State) (a : Nat) : Option Nat :=
  match s.blockOwner a with
  | some (_, o) => if isHbm (o.frame ((a - o.ubase) / blockBytes)) then none else some (o.frame ((a - o.ubase) / blockBytes))
  | none => none

/-- The host address that backs a unified address: of a block in the slow tier that is not zero-filled (R221, R230). -/
def State.backing (s : State) (a : Nat) : Option Nat :=
  if s.zeroFilled (a / blockBytes) then none else (s.slowFrameAt a).map (fun f => s.frameIova f + a % blockBytes)

/-- n bytes that lie in one block, from wherever it is backed (R220). -/
def State.blockRead (s : State) (a n : Nat) : List Byte :=
  match s.backing a with
  | some h => s.host.data.readN h n
  | none => s.mem.data.readN a n

/-- Bytes of the unified range, block by block; the fuel is the number of blocks touched. -/
def State.devBytesAux : Nat → State → Nat → Nat → List Byte
  | 0, _, _, _ => []
  | f + 1, s, a, n =>
    let k := min n (blockBytes - a % blockBytes)
    if n = 0 then [] else s.blockRead a k ++ State.devBytesAux f s (a + k) (n - k)

/-- n bytes of the unified range, poisoned or not. -/
def State.devBytes (s : State) (a n : Nat) : List Byte := State.devBytesAux (n / blockBytes + 2) s a n

/-- The ranges of host memory that a function may not reach (R77). -/
def State.denied (s : State) (f : Func) : List (Nat × Nat) :=
  (s.host.deny.filter (fun d => d.1 = f)).map (fun d => (d.2.1, d.2.2))

/-- The distance from a to the first byte of a .. a+n-1 that lies in one of the ranges, if any. -/
def firstHit (ranges : List (Nat × Nat)) (a n : Nat) : Option Nat :=
  ranges.foldl (fun best r =>
    let lo := max r.1 a
    if lo < a + n ∧ lo < r.1 + r.2 then
      match best with
      | some b => some (min b (lo - a))
      | none => some (lo - a)
    else best) none

/-- The lines of the unified range that a range of host memory backs, as ranges (R221). -/
def State.slowImages (s : State) (r : Nat × Nat) : List (Nat × Nat) :=
  s.mem.objs.flatMap (fun o => (List.range o.2.frames.length).filterMap (fun b =>
    let h := s.frameIova (o.2.frame b)
    let lo := (max r.1 h - h) / 64 * 64
    let hi := (min (r.1 + r.2) (h + blockBytes) - h + 63) / 64 * 64
    if isHbm (o.2.frame b) || s.zeroFilled (o.2.block b) || decide (hi ≤ lo) then none
    else some (o.2.ubase + blockBytes * b + lo, hi - lo)))

/-- A stack that the rail of its own or of its die's HBM controllers leaves without power (R23, R66; log 54). -/
def State.stackOff (s : State) (st : Nat) : Bool := s.railCut pdMem || s.railCut (384 + 3 * (st / 2))

/-- A frame in a stack without power. -/
def State.frameOff (s : State) (f : Nat) : Bool := isHbm f && s.stackOff (stackOf f)

/-- The blocks that lie in stacks without power, as ranges (R23; log 54). -/
def State.deadRanges (s : State) : List (Nat × Nat) :=
  if s.inputs.domainsOff.isEmpty then [] else
    s.mem.objs.flatMap (fun o => (List.range o.2.frames.length).filterMap (fun b =>
      if s.frameOff (o.2.frame b) then some (o.2.ubase + blockBytes * b, blockBytes) else none))

/-- A unified address whose block lies in a stack without power: a write to it is lost (R23; log 54). -/
def State.unpowered (s : State) (a : Nat) : Bool :=
  !s.inputs.domainsOff.isEmpty && (s.blockOwner a).any (fun o => s.frameOff (o.2.frame ((a - o.2.ubase) / blockBytes)))

/-- The lines whose read fails: those of the slow tier on either port, because the IOMMU does not let physical function 0 reach them or
the host's memory is poisoned there (R77, R221, R247), and those of stacks without power (R23; log 54). -/
def State.failRanges (s : State) : List (Nat × Nat) := (s.denied .pf ++ s.host.poison).flatMap s.slowImages ++ s.deadRanges

/-- Poisoned lines as ranges (R246). -/
def State.poisonRanges (s : State) : List (Nat × Nat) := s.mem.poison.map (fun l => (64 * l, 64))

/-- Poisons the lines of a range (R246). -/
def State.poisonLines (s : State) (lines : List Nat) : State :=
  { s with mem := { s.mem with poison := s.mem.poison ++ lines.filter (fun l => !s.mem.poison.contains l) } }

/-- A frame that no longer backs a block: an HBM frame awaits clearing, a slow-tier frame is free at once (R230). -/
def State.freeFrame (s : State) (f : Nat) : State :=
  if isHbm f && !s.flash.retired.contains f then { s with mem := { s.mem with clearing := s.mem.clearing ++ [f] } } else s

/-- Writes host memory of the slow tier, as far as the IOMMU lets physical function 0 reach it (R221; log 97). -/
def State.putSlow (s : State) (h : Nat) (bs : List Byte) : State :=
  let k := (firstHit (s.denied .pf) h bs.length).getD bs.length
  { s with host := { s.host with data := s.host.data.writeN h (bs.take k) } }

/-- The first write to a zero-filled block writes its whole frame (R230). -/
def State.fillZeros (s : State) (a : Nat) : State :=
  if s.zeroFilled (a / blockBytes) then
    let s1 := { s with mem := { s.mem with zeroed := s.mem.zeroed.filter (fun u => u != a / blockBytes) } }
    match s1.backing (a / blockBytes * blockBytes) with
    | some h => if (firstHit (s.denied .pf) h blockBytes).isSome then s1 else { s1 with host := { s1.host with data := s1.host.data.clear h blockBytes } }
    | none => s1
  else s

/-- The part of a line's bytes that a write covers wholly. -/
def lineCovered (l a n : Nat) : Bool := decide (a ≤ 64 * l) && decide (64 * l + 64 ≤ a + n)

/-- Writes bytes that lie in one block where it is backed; a write of a whole poisoned line clears its poison (R246). -/
def State.putBlock (s : State) (a : Nat) (bs : List Byte) : State :=
  if s.unpowered a then s else
  let s1 := s.fillZeros a
  let s2 := match s1.backing a with
    | some h => s1.putSlow h bs
    | none => { s1 with mem := { s1.mem with data := s1.mem.data.writeN a bs } }
  { s2 with mem := { s2.mem with poison := s2.mem.poison.filter (fun l => !lineCovered l a bs.length) } }

/-- A migration of an object ends without a switch: the waiting writes go to the frame that the block keeps. -/
def State.cancelMig (s : State) (m : Mig) : State :=
  let s1 := { s with mem := { s.mem with migs := s.mem.migs.filter (fun x => !(x.obj == m.obj && x.blk == m.blk)) } }
  m.writes.foldl (fun s w => s.putBlock w.1 w.2) (s1.freeFrame m.frame)

/-- A migration that promotes or demotes its block. -/
def Mig.changesTier (m : Mig) (o : Obj) : Bool := isHbm m.frame != isHbm (o.frame m.blk)

/-- A move of the object in progress ends with STATE. -/
def MoveJob.halt (j : MoveJob) (id : Nat) : MoveJob :=
  if j.obj = id then { j with left := [], flight := [], stop := some (j.stop.getD 0x01#8) } else j

def Ctx.haltMoves (x : Ctx) (id : Nat) : Ctx :=
  { x with
    pfJobs := x.pfJobs.map (fun j => j.halt id)
    descs := x.descs.map (fun d => match d.work with
      | .place r => { d with work := .place { r with job := r.job.halt id } }
      | _ => d) }

/-- The moves of an object in flight end where they are, so that its blocks keep their frames, but for one away from a retired frame
(R244, R248). -/
def State.haltMoves (s : State) (id : Nat) (o : Obj) : State :=
  (s.mem.migs.filter (fun m => m.obj == id && (m.changesTier o || !s.flash.retired.contains (o.frame m.blk)))).foldl State.cancelMig
    { s with ctxs := s.ctxs.map (fun x => (x.1, x.2.haltMoves id)) }

/-- Quarantines an object whose lines were poisoned, and raises vector 1 of its context (R247, R248). A quarantine that begins sets aside
what LOAD_SIGNED verified before (R249). -/
def State.quarantine (s : State) (id : Nat) (lines : List Nat) : State :=
  match s.obj? id with
  | none => s
  | some o =>
    let o' := { o with state := if o.state = 2 then 2 else 3, poisoned := true, verified := o.verified && o.state == 3 }
    ((((s.setObj id o').haltMoves id o).logEv 7 (id :: lines)).raiseVec o.ctx 1)

/-- The lines of a range of the unified range whose read fails and that hold no poison yet. -/
def State.failingLines (s : State) (a n : Nat) : List Nat :=
  ((s.failRanges.flatMap (fun r =>
    let lo := max r.1 a
    let hi := min (r.1 + r.2) (a + n)
    if lo < hi then (List.range ((hi - 1) / 64 - lo / 64 + 1)).map (fun i => lo / 64 + i) else [])).filter
      (fun l => !s.mem.poison.contains l)).eraseDups

/-- The module's read of n bytes of the unified range; where it fails, the lines that it covered are poisoned and their object is
quarantined (R247). -/
def State.reach (s : State) (a n : Nat) : State :=
  let ls := s.failingLines a n
  match ls.head? with
  | some l => (match s.blockOwner (64 * l) with
    | some (id, _) => (s.poisonLines ls).quarantine id ls
    | none => s)
  | none => s

/-- Both ends of the copy of a moving block can be reached: an end in the slow tier needs a path of physical function 0 (R113, R221). -/
def State.migReady (s : State) (m : Mig) : Bool :=
  match s.obj? m.obj with
  | some o => (isHbm (o.frame m.blk) && isHbm m.frame) || s.pathUp .pf
  | none => false

/-- The bytes of a block as they leave its old frame for the new one (R229, R230): between HBM frames nothing changes place. -/
def State.carryBlock (s : State) (o : Obj) (b new : Nat) : State :=
  let u := o.ubase + blockBytes * b
  let old := o.frame b
  let zero := s.zeroFilled (o.block b)
  let mem := { s.mem with zeroed := s.mem.zeroed.filter (fun x => x != o.block b) }
  let from_ := if isHbm old then s.mem.data.part u blockBytes 0 else if zero then [] else s.host.data.part (s.frameIova old) blockBytes 0
  if isHbm new then { s with mem := { mem with data := (mem.data.clear u blockBytes).put from_ u } }
  else if (firstHit (s.denied .pf) (s.frameIova new) blockBytes).isSome then { s with mem := { mem with data := mem.data.clear u blockBytes } }
  else
    { s with
      mem := { mem with data := mem.data.clear u blockBytes }
      host := { s.host with data := (s.host.data.clear (s.frameIova new) blockBytes).put from_ (s.frameIova new) } }

/-- The lines of a block in the slow tier whose read fails. -/
def State.failLines (s : State) (o : Obj) (b : Nat) : List Nat :=
  ((List.range (blockBytes / 64)).map (fun i => (o.ubase + blockBytes * b) / 64 + i)).filter (fun l => (firstHit s.failRanges (64 * l) 64).isSome)

/-- The copy of a moving block is over (R229): the block points at its new frame, and the waiting writes proceed there. A read of the
slow tier that failed quarantines the object instead, whose block stays (R247, R248). -/
def State.switchBlock (s : State) (m : Mig) : State :=
  match s.obj? m.obj with
  | none => s
  | some o =>
    if !s.failRanges.isEmpty && !(s.failLines o m.blk).isEmpty && !s.zeroFilled (o.block m.blk) then
      (s.poisonLines (s.failLines o m.blk)).quarantine m.obj (s.failLines o m.blk)
    else
      let s1 := (s.carryBlock o m.blk m.frame).setObj m.obj { o with frames := o.frames.set m.blk m.frame }
      let s2 := { s1 with mem := { s1.mem with migs := s1.mem.migs.filter (fun x => !(x.obj == m.obj && x.blk == m.blk)) } }
      m.writes.foldl (fun s w => s.putBlock w.1 w.2) (s2.freeFrame (o.frame m.blk))

/-- The migration of the block at a unified address, if it is on its way (R229). -/
def State.migAt (s : State) (a : Nat) : Option Mig :=
  s.mem.migs.find? (fun m => match s.obj? m.obj with
    | some o => decide (o.block m.blk = a / blockBytes)
    | none => false)

/-- Writes bytes that lie in one block. A write to a moving block waits for its copy, which is made ahead of others: the block switches,
and the write goes to the new frame. While the copy cannot be made for want of a path to the host, the write stays with the block (R113,
R229). -/
def State.devWriteBlock (s : State) (a : Nat) (bs : List Byte) : State :=
  match s.migAt a with
  | none => s.putBlock a bs
  | some m =>
    if s.migReady m then (s.switchBlock m).putBlock a bs
    else
      { s with mem := { s.mem with migs := s.mem.migs.map (fun x =>
          if x.obj = m.obj ∧ x.blk = m.blk then { x with writes := x.writes ++ [(a, bs)] } else x) } }

end Sys2Proof.Machine
end

