-- ==== Sys2Proof/Machine/Operands.lean ====
section
/-!
DEFINITION. Operand references (R95) and accesses to the two address spaces they name: the unified range (R219 to R230, R246) and
host memory through windows (R77, R105).
-/
namespace Sys2Proof.Machine

/-- Completion status codes (R12). -/
def stOk : Byte := 0x00#8
def stState : Byte := 0x01#8
def stBounds : Byte := 0x02#8
def stFormat : Byte := 0x03#8
def stAuth : Byte := 0x04#8
def stNospace : Byte := 0x05#8
def stPoison : Byte := 0x06#8
def stTimeout : Byte := 0x07#8
def stAborted : Byte := 0x08#8
def stStale : Byte := 0x09#8
def stExpelled : Byte := 0x0A#8
def stBudget : Byte := 0x0B#8
def stCheck : Byte := 0x0C#8
def stFenced : Byte := 0x0D#8
def stRepeat : Byte := 0x0E#8
def stInternal : Byte := 0x0F#8

/-- What a reference names: an object at a unified address, host memory through a window, or nothing visible. -/
inductive Space where
  | nothing
  | dev (obj : Nat)
  | host (w : Nat)
  deriving DecidableEq, Repr

/-- A resolved reference: its first address and its extent (R95). -/
structure Target where
  space : Space
  addr : Nat
  extent : Nat
  deriving DecidableEq, Repr

/-- Space field 0x0 or 0x1; other values are reserved (R95). -/
def refDefined (ref : Nat) : Bool := decide (fld ref 60 4 ≤ 1)

def refId (ref : Nat) : Nat := fld ref 40 20
def refOff (ref : Nat) : Nat := fld ref 0 40

/-- The ID range of a context (R223). -/
def State.inRange (s : State) (c id : Nat) : Bool :=
  let r := s.reg (rObjRange c)
  decide (fld r 0 19 ≤ id) && decide (id < fld r 0 19 + fld r 32 20)

/-- The object that an ID stands for: the active bank for the alias of a declared pair in ROLLOUT, the ID itself otherwise
(R363, R364). -/
def State.bankOf (s : State) (c id : Nat) : Nat :=
  match (s.ctx c).pair with
  | some p => if p.aliasId = id then (if p.active = 0 then p.bank0 else p.bank1) else id
  | none => id

/-- A visible object of a context: live or quarantined, within the range (R95, R225, R227). -/
def State.visible (s : State) (c id : Nat) : Option Obj :=
  match s.obj? id with
  | some o => if o.ctx = c ∧ (o.state = 1 ∨ o.state = 3) ∧ s.inRange c id then some o else none
  | none => none

/-- Resolves a reference of a context (R95). -/
def State.resolve (s : State) (c ref : Nat) : Target :=
  let id := refId ref
  let off := refOff ref
  match fld ref 60 4 with
  | 0 =>
    let id := s.bankOf c id
    match s.visible c id with
    | some o => if off ≤ o.size then ⟨.dev id, o.ubase + off, o.size - off⟩ else ⟨.nothing, 0, 0⟩
    | none => ⟨.nothing, 0, 0⟩
  | 1 =>
    let size := s.reg (rHwinSize c id)
    if id < 16 ∧ off ≤ size ∧ 0 < size then ⟨.host id, s.reg (rHwinBase c id) + off, size - off⟩ else ⟨.nothing, 0, 0⟩
  | _ => ⟨.nothing, 0, 0⟩

/-- A reference with the active bank in place of the alias: a started descriptor keeps the bank it resolved (R363). -/
def State.pinRef (s : State) (c ref : Nat) : Nat :=
  if fld ref 60 4 = 0 then setFld ref 40 20 (s.bankOf c (refId ref)) else ref

/-- Resolves a reference that started work holds: a released object stays reachable until that work has ended (R227). -/
def State.resolveHeld (s : State) (c ref : Nat) : Target :=
  match fld ref 60 4, s.obj? (refId ref) with
  | 0, some o =>
    if o.ctx = c ∧ refOff ref ≤ o.size then ⟨.dev (refId ref), o.ubase + refOff ref, o.size - refOff ref⟩ else ⟨.nothing, 0, 0⟩
  | 0, none => ⟨.nothing, 0, 0⟩
  | _, _ => s.resolve c ref

/-- Two targets share a byte within one address space, over n bytes each (R97). -/
def Target.overlaps (a b : Target) (n m : Nat) : Bool :=
  (match a.space, b.space with
   | .dev _, .dev _ => true
   | .host _, .host _ => true
   | _, _ => false) && decide (a.addr < b.addr + m) && decide (b.addr < a.addr + n)

/-- Bytes read before a failure, and the status of the failure (R105, R246). -/
structure Got where
  data : List Byte
  stop : Option Byte := none
  deriving DecidableEq, Repr

/-- Reads n bytes of the unified range; a poisoned line stops the read, and so does one of the slow tier that cannot be read (R246, R247). -/
def State.devRead (s : State) (a n : Nat) : Got :=
  match firstHit (s.poisonRanges ++ s.failRanges) a n with
  | some k => { data := s.devBytes a k, stop := some stPoison }
  | none => { data := s.devBytes a n }

/-- Reads n bytes of host memory for a function: a translation or access error ends it with AUTH, a poisoned completion with
POISON (R77, R105). -/
def State.hostRead (s : State) (f : Func) (a n : Nat) : Got :=
  match firstHit (s.denied f) a n, firstHit s.host.poison a n with
  | none, none => { data := s.host.data.readN a n }
  | some k, none => { data := s.host.data.readN a k, stop := some stAuth }
  | none, some k => { data := s.host.data.readN a k, stop := some stPoison }
  | some k, some j =>
    if k ≤ j then { data := s.host.data.readN a k, stop := some stAuth }
    else { data := s.host.data.readN a j, stop := some stPoison }

/-- Writes bytes block by block; the fuel is the number of blocks touched. -/
def State.devWriteAux : Nat → State → Nat → List Byte → State
  | 0, s, _, _ => s
  | f + 1, s, a, bs =>
    if bs.isEmpty then s else
      let k := blockBytes - a % blockBytes
      State.devWriteAux f (s.devWriteBlock a (bs.take k)) (a + k) (bs.drop k)

/-- Writes bytes of the unified range. -/
def State.devWrite (s : State) (a : Nat) (bs : List Byte) : State :=
  s.devWriteAux (bs.length / blockBytes + 2) a bs

/-- Writes host memory for a function: how many bytes were written, and AUTH for an access error. -/
def State.hostWrite (s : State) (f : Func) (a : Nat) (bs : List Byte) : State × Option Nat :=
  match firstHit (s.denied f) a bs.length with
  | some k => ({ s with host := { s.host with data := s.host.data.writeN a (bs.take k) } }, some k)
  | none => ({ s with host := { s.host with data := s.host.data.writeN a bs } }, none)

/-- Reads n bytes at a target of context c. -/
def State.readTarget (s : State) (c : Nat) (t : Target) (n : Nat) : Got :=
  match t.space with
  | .dev _ => s.devRead t.addr n
  | .host _ => s.hostRead (s.ctx c).func t.addr n
  | .nothing => { data := [], stop := some stBounds }

/-- The state after the module's read of n bytes at a target: a failing read of the slow tier shows (R247). -/
def State.reachTarget (s : State) (t : Target) (n : Nat) : State :=
  match t.space with
  | .dev _ => s.reach t.addr n
  | _ => s

/-- A target names an object with READ_ONLY set (R226). -/
def State.readOnly (s : State) (t : Target) : Bool :=
  match t.space with
  | .dev o => (match s.obj? o with
    | some x => x.readOnly
    | none => false)
  | _ => false

/-- Writes bytes at a target of context c; the status of a failure with the bytes written before it. A READ_ONLY object refuses them
with AUTH (R226). -/
def State.writeTarget (s : State) (c : Nat) (t : Target) (bs : List Byte) : State × Option (Byte × Nat) :=
  match t.space with
  | .dev _ => if s.readOnly t then (s, some (stAuth, 0)) else (s.devWrite t.addr bs, none)
  | .host _ =>
    match s.hostWrite (s.ctx c).func t.addr bs with
    | (s', some k) => (s', some (stAuth, k))
    | (s', none) => (s', none)
  | .nothing => (s, some (stBounds, 0))

/-- A poisoned source line: a device destination line receives poison, a host destination a poisoned TLP (R246). -/
def State.carryPoison (s : State) (t : Target) (n : Nat) : State :=
  match t.space with
  | .dev _ => s.poisonLines ((List.range ((t.addr + n - 1) / 64 - t.addr / 64 + 1)).map (fun i => t.addr / 64 + i))
  | .host _ => s.emit .poisonedTlp
  | .nothing => s

/-- Touches the object that a target names (R225). -/
def State.touch (s : State) (t : Target) : State :=
  match t.space with
  | .dev o => s.modObj o (fun x => { x with touch := s.touchNow })
  | _ => s

/-- A target that needs the host. -/
def Target.isHost (t : Target) : Bool :=
  match t.space with
  | .host _ => true
  | _ => false

/-- Advanced by n bytes. -/
def Target.plus (t : Target) (n : Nat) : Target := { t with addr := t.addr + n, extent := t.extent - n }

/-- Touches the objects that a started descriptor names (R225). -/
def State.touchRefs (s : State) (c : Nat) (refs : List Nat) : State := refs.foldl (fun s r => s.touch (s.resolve c r)) s

/-- Bytes off to off + n - 1 of a held reference: the bytes, or the status of the failure (R105, R246). -/
def State.readHeld (s : State) (c ref off n : Nat) : Got :=
  let t := s.resolveHeld c ref
  if off + n ≤ t.extent then s.readTarget c (t.plus off) n else { data := [], stop := some stBounds }

/-- The state after that read: a failing read of the slow tier shows (R247). -/
def State.reachHeld (s : State) (c ref off n : Nat) : State := s.reachTarget ((s.resolveHeld c ref).plus off) n

/-- The state after the module's reads of ranges (R247). -/
def State.reachSpans (s : State) (l : List (Nat × Nat)) : State := l.foldl (fun (s : State) r => s.reach r.1 r.2) s

/-- Writes bytes at a held reference; the status of a failure. -/
def State.writeHeld (s : State) (c ref off : Nat) (bs : List Byte) : State × Option (Byte × Nat) :=
  let t := s.resolveHeld c ref
  if off + bs.length ≤ t.extent then s.writeTarget c (t.plus off) bs else (s, some (stBounds, 0))

/-- The bytes a resolved reference to a table gives, none where the range lies beyond its extent or the read fails. -/
def State.readRef (s : State) (c ref off n : Nat) : Option (List Byte) :=
  let t := s.resolve c ref
  if off + n ≤ t.extent then
    let g := s.readTarget c (t.plus off) n
    if g.stop.isSome then none else some g.data
  else none

/-- The status of a write of bytes at a reference, within its extent, that fails (R105, R226). -/
def State.writeRefFails (s : State) (c ref off : Nat) (bs : List Byte) : Option Byte :=
  let t := s.resolve c ref
  if off + bs.length ≤ t.extent then (s.writeTarget c (t.plus off) bs).2.map (fun x => x.1) else none

/-- Writes bytes at a reference if they lie within its extent; nothing otherwise. -/
def State.writeRef (s : State) (c ref off : Nat) (bs : List Byte) : State :=
  let t := s.resolve c ref
  if off + bs.length ≤ t.extent then (s.writeTarget c (t.plus off) bs).1 else s

end Sys2Proof.Machine
end

