-- ==== Sys2Proof/Machine/Descr.lean ====
section
/-!
DEFINITION. Descriptors: finding one, the rule of its start (R89, R92, R96), the validity checks of R102 in their order, and how
its work ends. A started descriptor whose work has ended holds its `ending` until DESCRIPTOR_COMPLETE writes its record.
-/
namespace Sys2Proof.Machine

/-- The field of n bytes at a byte offset of a descriptor (R94). -/
def Desc.num (d : Desc) (off n : Nat) : Nat := byteFld d.bytes.toNat off n
def Desc.opcode (d : Desc) : Nat := d.num 0 1
def Desc.ordered (d : Desc) : Bool := bitOf d.bytes.toNat 8
def Desc.irq (d : Desc) : Bool := bitOf d.bytes.toNat 9
def Desc.timeoutMs (d : Desc) : Nat := d.num 2 2
def Desc.epoch (d : Desc) : Nat := d.num 4 2
def Desc.tag (d : Desc) : Nat := d.num 8 8

/-- The descriptor of a ring and submit position. -/
def Ctx.find (x : Ctx) (q p : Nat) : Option Desc := x.descs.find? (fun d => d.ring == q && d.pos == p)

/-- The descriptor that a command names: the submit position is its low 32 bits (R86). -/
def State.desc? (s : State) (c : Nat) (q : Nat) (p : Word) : Option Desc :=
  (s.ctx c).descs.find? (fun d => d.ring == q && word d.pos == p)

/-- Changes the descriptor of a ring and submit position. -/
def State.modDesc (s : State) (c q p : Nat) (f : Desc → Desc) : State :=
  s.modCtx c (fun x => { x with descs := x.descs.map (fun d => if d.ring = q ∧ d.pos = p then f d else d) })

/-- Sets what a started descriptor is doing. -/
def State.setWork (s : State) (c : Nat) (d : Desc) (w : Work) : State := s.modDesc c d.ring d.pos (fun d => { d with work := w })

/-- A descriptor's work ends; a work that has ended keeps its first ending. -/
def State.endDesc (s : State) (c q p : Nat) (e : Ending) : State :=
  s.modDesc c q p (fun d => if d.ending.isSome then d else { d with ending := some e, work := .idle })

/-- As `endDesc`, for work that others still hold against until the descriptor completes (R312, R313, R324). -/
def State.endHeld (s : State) (c q p : Nat) (e : Ending) : State :=
  s.modDesc c q p (fun d => if d.ending.isSome then d else { d with ending := some e })

/-- The ending with a status and nothing else. -/
def endWith (st : Byte) : Ending := { status := st }
/-- The ending of a failed validity check that names a field (R101). -/
def endField (st : Byte) (off : Nat) : Ending := { status := st, secondary := half (0x8000 + off) }
def endOk (result : Nat) : Ending := { status := stOk, result := dword result }

/-- Whether a fetched descriptor may start: its context runs, everything before it in its ring has started, no unfinished FENCE
is before it, its ORDERED wait is over, and the held-record queue has room (R85, R89, R92, R96, R106). -/
def State.mayStart (s : State) (c : Nat) (d : Desc) : Bool :=
  let x := s.ctx c
  d.start.isNone && d.ending.isNone && (x.state == .active || x.state == .stopping) && !s.chip.safeHold
    && decide (x.held.length < 256)
    && x.descs.all (fun e => e.ring != d.ring || decide (d.pos ≤ e.pos) ||
        (e.start.isSome && !d.ordered && !(e.opcode == 1 && e.ending.isNone)))

/-- The findings of a descriptor's validity checks (R102): reserved ranges, then for each check the failing fields by offset; `recFormat`
and its like name the first record of a SERVE_STEP that fails (R321), `openBounds` a failure for which the spec names no field (log 40). -/
structure Chk where
  reserved : List (Nat × Nat) := []
  reservedBits : List (Bool × Nat) := []
  format : List (Bool × Nat) := []
  auth : List (Bool × Nat) := []
  fenced : Option Nat := none
  bounds : List (Bool × Nat) := []
  zero : Bool := false
  expelled : Bool := false
  state : Bool := false
  capacity : Option Byte := none
  recFormat : Option Nat := none
  recAuth : Option Nat := none
  recBounds : Option Nat := none
  recState : Option Nat := none
  openBounds : Bool := false

/-- The lowest offset of a failing field. -/
def firstBad (l : List (Bool × Nat)) : Option Nat :=
  l.foldl (fun best x => if x.1 then
    match best with
    | some b => some (min b x.2)
    | none => some x.2
  else best) none

/-- The ending for a failed field; a failed record is named by offset 16 and RESULT (R101, R321). -/
def endAt (st : Byte) (off : Nat) (record : Option Nat) : Ending :=
  match record with
  | some i => if off = 16 then { endField st 16 with result := dword i } else endField st off
  | none => endField st off

/-- The failing fields with that of a failed record. -/
def withRec (l : List (Bool × Nat)) (r : Option Nat) : List (Bool × Nat) := (r.isSome, 16) :: l

/-- The lowest offset of a reserved byte that is not zero. -/
def reservedBad (d : Desc) (rs : List (Nat × Nat)) : List (Bool × Nat) := rs.map (fun r => (d.num r.1 r.2 != 0, r.1))

/-- The opcodes of R13. -/
def opcodeDefined (o : Nat) : Bool := decide (1 ≤ o ∧ o ≤ 16)

/-- The checks of R102 in order; none if all pass. The header's own are the opcode, the reserved bits of FLAGS and bytes 6 and 7,
TIMEOUT 0xFFFF and the epoch. -/
def State.check (s : State) (c : Nat) (d : Desc) (k : Chk) : Option Ending :=
  if !opcodeDefined d.opcode then some (endField stFormat 0) else
  match firstBad ((decide (4 ≤ d.num 1 1), 1) :: (d.num 6 2 != 0, 6) :: reservedBad d k.reserved ++ k.reservedBits) with
  | some o => some (endField stFormat o)
  | none =>
  match firstBad ((d.timeoutMs == 0xFFFF, 2) :: withRec k.format k.recFormat) with
  | some o => some (endAt stFormat o k.recFormat)
  | none =>
  match firstBad (withRec k.auth k.recAuth) with
  | some o => some (endAt stAuth o k.recAuth)
  | none =>
  match k.fenced with
  | some u => some { endWith stFenced with unit := half u }
  | none =>
  match firstBad (withRec k.bounds k.recBounds) with
  | some o => some (endAt stBounds o k.recBounds)
  | none =>
  if k.openBounds then some { status := stBounds, secondary := BitVec.truncate 16 (Config.freeWord (2 ^ 80 + s.nextStart)) } else
  if d.epoch ≠ 0 ∧ d.epoch ≠ (s.ctx c).epoch.toNat then some (endWith stStale)
  else if k.zero then some (endWith stOk)
  else if k.expelled then some (endWith stExpelled)
  else if k.recState.isSome then some (endAt stState 16 k.recState)
  else if k.state then some (endWith stState)
  else match k.capacity with
  | some st => some (endWith st)
  | none => none

/-- Byte offsets of the operand references of a descriptor, by opcode (R95 and the bodies). -/
def refOffsets (op : Nat) : List Nat :=
  match op with
  | 0x2 => [16, 24]
  | 0x3 => [16, 40]
  | 0x4 => [24, 32]
  | 0x5 => [16, 32]
  | 0x7 => [16]
  | 0x8 => [16, 32]
  | 0x9 => [16, 32, 40]
  | 0xB => [48]
  | 0xD => [24]
  | 0xE => [24]
  | 0xF => [24]
  | 0x10 => [48]
  | _ => []

/-- The references at those offsets that the descriptor writes. -/
def refWritten (op off : Nat) : Bool :=
  [(0x2, 24), (0x4, 32), (0x8, 32), (0x9, 40), (0xB, 48), (0xE, 24), (0xF, 24), (0x10, 48)].contains (op, off)

/-- An access to the object needs the host: a block lies in the slow tier, or moves there as a write must wait for. A read of a
zero-filled block does not (R221, R229, R230). -/
def State.objNeedsHost (s : State) (id : Nat) (o : Obj) (wr : Bool) : Bool :=
  (List.range o.frames.length).any (fun b => !isHbm (o.frame b) && (wr || !s.zeroFilled (o.block b)))
    || (wr && s.mem.migs.any (fun m => m.obj == id && !isHbm m.frame))

/-- A reference whose bytes need a path to the host that is not up: a host window, or an object that needs the host (R113, R221). -/
def State.refWaits (s : State) (c ref : Nat) (wr : Bool := false) : Bool :=
  match (s.resolve c ref).space with
  | .host _ => !s.pathUp (s.ctx c).func
  | .dev o => !s.pathUp .pf && (s.obj? o).any (fun x => s.objNeedsHost o x wr)
  | .nothing => false

/-- A host transfer of the descriptor must wait (R113; log 23). -/
def State.noPath (s : State) (c : Nat) (d : Desc) : Bool :=
  (refOffsets d.opcode).any (fun o => s.refWaits c (d.num o 8) (refWritten d.opcode o))

/-- A descriptor as it starts: the n-th start of the module, at a time. -/
def Desc.begun (d : Desc) (n : Nat) (time : DWord) : Desc := { d with start := some n, time := time }

/-- The descriptor takes the next start number (R89). -/
def State.beginDesc (s : State) (c : Nat) (d : Desc) : State :=
  { s.modDesc c d.ring d.pos (fun _ => d.begun s.nextStart s.time) with nextStart := s.nextStart + 1 }

/-- The memories that the operation of a descriptor other than FENCE works on have lost their rail (R23; log 54). -/
def State.memLost (s : State) (d : Desc) : Bool := s.railCut pdMem && d.opcode != 1

/-- A descriptor whose references name banks in place of the alias: they resolve once, when it starts (R363). -/
def State.pinDesc (s : State) (c : Nat) (d : Desc) : Desc :=
  { d with bytes := BitVec.ofNat 512 ((refOffsets d.opcode).foldl (fun n o => setFld n (8 * o) 64 (s.pinRef c (d.num o 8))) d.bytes.toNat) }

/-- A descriptor starts: the checks, then its operation, which waits where its host transfer must (R102, R113). A COLLECTIVE starts or arms
all the same and waits in its own way (`CollRun.held`). -/
def State.startNow (s : State) (c : Nat) (d : Desc) (chk : State → Desc → Chk) (run : State → Desc → State) : State :=
  let d' := d.begun s.nextStart s.time
  let s1 := s.beginDesc c d
  match s1.check c d' (chk s1 d') with
  | some e => s1.endDesc c d.ring d.pos e
  | none =>
    if s1.memLost d' then s1.endDesc c d.ring d.pos (endWith stInternal)
    else if s1.noPath c d' && d'.opcode != 4 then s1.modDesc c d.ring d.pos (fun _ => { s1.pinDesc c d' with work := .hostWait })
    else run s1 d'

/-- Starts a descriptor that a command names: gives it its start order and time, makes the checks, and runs its operation if they
pass. Without effect while the descriptor is not there, is another row's, or may not start yet (log 14). A started one whose host
transfer waits goes on when a path is up (R113; log 23). -/
def State.startDesc (s : State) (c : Nat) (q : Nat) (p : Word) (mine : Desc → Bool) (hold : Desc → Bool)
    (chk : State → Desc → Chk) (run : State → Desc → State) : State :=
  match s.desc? c q p with
  | none => s
  | some d =>
    if s.mayStart c d && mine d && !hold d then s.startNow c d chk run
    else if d.work = .hostWait ∧ d.ending.isNone ∧ mine d ∧ !s.noPath c d then
      run (s.setWork c d .idle) { d with work := .idle }
    else s

/-- A reference field: reserved space encodings fail check 3 (R95). -/
def badRef (d : Desc) (off : Nat) : Bool × Nat := (!refDefined (d.num off 8), off)
/-- A count or extent field of n bytes that is all ones fails check 3 (R103). -/
def allOnes (d : Desc) (off n : Nat) : Bool × Nat := (d.num off n == 256 ^ n - 1, off)
/-- A field that must be zero in this operation fails check 3 (R103). -/
def mustZero (d : Desc) (off n : Nat) : Bool × Nat := (d.num off n != 0, off)

/-- The start numbers of the started, unfinished descriptors of a context that satisfy p. -/
def Ctx.startsOf (x : Ctx) (p : Desc → Bool) : List Nat := (x.descs.filter p).filterMap (fun d => d.start)

/-- None of the listed starts is still in flight. -/
def Ctx.allDone (x : Ctx) (ws : List Nat) : Bool :=
  x.descs.all (fun d => match d.start with
    | some n => !ws.contains n
    | none => true)

/-- The descriptor timeout in ms (R94, R108). -/
def State.descTimeoutMs (s : State) (c : Nat) (d : Desc) : Nat :=
  if d.timeoutMs ≠ 0 then d.timeoutMs else atLeast1 (fld (s.reg (rTimers c)) 16 16)

/-- Milliseconds of the global time base since a descriptor started. -/
def State.sinceStartNs (s : State) (d : Desc) : Nat := (s.time - d.time).toNat

end Sys2Proof.Machine
end

