-- ==== Sys2Proof/Machine/Place.lean ====
section
/-!
DEFINITION. Frames, floors, eviction and migration (R219, R229 to R237, R435) and the prefetch plan (R241, R242).
-/
namespace Sys2Proof.Machine

/-- STACK_MASK as used: 0 means all 16 (R226). -/
def stackMaskOf (m : Nat) : Nat := if m % 2 ^ 16 = 0 then 2 ^ 16 - 1 else m % 2 ^ 16

/-- Frames that back blocks, receive moving blocks or await clearing (R230). -/
def State.usedFrames (s : State) : List Nat :=
  (s.mem.objs.map (fun o => o.2.frames)).flatten ++ s.mem.migs.map (fun m => m.frame) ++ s.mem.clearing

/-- A frame of the pool: not retired, and a spare only once it stands for a retired frame (R219, R244). -/
def State.poolFrame (s : State) (f : Nat) : Bool :=
  !s.flash.retired.contains f && decide (f < hbmFrames) &&
    (decide (256 ≤ f) || (decide (128 ≤ f) && decide (f - 128 < s.flash.retired.length)))

/-- The lowest free pool frame of a stack (log 16). -/
def State.freeInStack (s : State) (st : Nat) : Option Nat :=
  let used := s.usedFrames
  let lo := if st = 0 then 128 else st * 32768
  match (List.range (used.length + s.flash.retired.length + 129)).find? (fun i => s.poolFrame (lo + i) && !used.contains (lo + i)) with
  | some i => if stackOf (lo + i) = st then some (lo + i) else none
  | none => none

def State.freeSlow (s : State) : Option Nat :=
  let used := s.usedFrames
  match (List.range (used.length + 1)).find? (fun i => !used.contains (hbmFrames + i)) with
  | some i => if i < s.slowTotal then some (hbmFrames + i) else none
  | none => none

/-- Pool frames that are not retired (R232, R237). -/
def State.poolSize (s : State) : Nat := 524032 - (s.flash.retired.length - 128)
/-- FREE of MEM_HBM_STATUS; a retired frame that still backs its block is none of the pool. -/
def State.freePool (s : State) : Nat := s.poolSize - (s.usedFrames.filter (fun f => isHbm f && !s.flash.retired.contains f)).length
/-- FREE of MEM_SLOW_STATUS. -/
def State.freeSlowCount (s : State) : Nat := s.slowTotal - (s.usedFrames.filter (fun f => !isHbm f)).length

def State.ctxObjs (s : State) (c : Nat) : List (Nat × Obj) := s.mem.objs.filter (fun o => o.2.ctx == c)
/-- Pool frames that back a context's blocks. -/
def State.hbmUse (s : State) (c : Nat) : Nat := ((s.ctxObjs c).map (fun o => (o.2.frames.filter isHbm).length)).sum
/-- Slow-tier frames that back a context's blocks: SLOW_USED (R250). -/
def State.slowUsed (s : State) (c : Nat) : Nat := ((s.ctxObjs c).map (fun o => (o.2.frames.filter (fun f => !isHbm f)).length)).sum
/-- Slow-tier frames that back a context's blocks or are about to, by a demotion in flight (R235). -/
def State.slowUse (s : State) (c : Nat) : Nat :=
  ((s.ctxObjs c).map (fun o => (o.2.frames.filter (fun f => !isHbm f)).length
    + (s.mem.migs.filter (fun m => m.obj == o.1 && !isHbm m.frame && isHbm (o.2.frame m.blk))).length)).sum
/-- Pinned frames of a context: MEM_CTX_PINNED (R233, R250). -/
def State.pinnedNow (s : State) (c : Nat) : Nat := (((s.ctxObjs c).filter (fun o => o.2.pin)).map (fun o => o.2.blocks)).sum
/-- Pinned frames of a context, and those that a PROMOTE with PIN in progress will pin (R233). -/
def State.pinned (s : State) (c : Nat) : Nat := (((s.ctxObjs c).filter (fun o => o.2.pin || decide (0 < o.2.pinning))).map (fun o => o.2.blocks)).sum
def State.floor (s : State) (c : Nat) : Nat := fld (s.reg (rFloor c)) 0 20
def State.floorSum (s : State) : Nat := (allCtxs.map s.floor).sum
/-- FLOOR_SHORT (R237). -/
def State.floorShort (s : State) : Bool := decide (s.poolSize < s.floorSum)
/-- A context's slow-tier limit admits one more frame (R235). -/
def State.slowRoom (s : State) (c : Nat) : Bool :=
  let lim := fld (s.reg (rSlowLimit c)) 0 24
  lim == 0 || decide (s.slowUse c < lim)

/-- A block is in flight. -/
def State.moving (s : State) (o b : Nat) : Bool := s.mem.migs.any (fun m => m.obj == o && m.blk == b)

/-- Age of an object's last touch, 2^31 at most (R234). -/
def State.age (s : State) (o : Obj) : Nat := min (s.touchNow - o.touch).toNat (2 ^ 31)

/-- Whether an object is a candidate for eviction but for a promotion in flight (R234). -/
def State.evictable (s : State) (o : Obj) : Bool :=
  decide (s.floor o.ctx < s.hbmUse o.ctx) && !o.pin && o.state == 1 && s.slowRoom o.ctx && s.freeSlow.isSome

/-- The highest block of an object whose frame lies in a stack of the mask, is not retired (R244) and is not in flight. -/
def State.victim (s : State) (id : Nat) (o : Obj) (mask : Nat) : Option Nat :=
  ((List.range o.frames.length).reverse).find? (fun b =>
    let f := o.frames.getD b 0
    isHbm f && mask.testBit (stackOf f) && !s.flash.retired.contains f && !s.moving id b)

/-- The result of drawing an HBM frame. -/
inductive Draw where
  | got (s : State) (frame : Nat)
  | wait
  | none

/-- Of two candidates, the one touched longer ago; ties to the lower ID (R234). -/
def State.older (s : State) (a b : Nat × Obj) : Nat × Obj :=
  if s.age a.2 < s.age b.2 ∨ (s.age a.2 = s.age b.2 ∧ b.1 < a.1) then b else a

def State.oldest (s : State) : List (Nat × Obj) → Option (Nat × Obj)
  | [] => none
  | a :: r => match s.oldest r with
    | some b => some (s.older a b)
    | none => some a

/-- Takes a frame by eviction from the stacks of the mask (R234, R235, R435); a promotion of object `own` does not wait for
itself. The demotion goes through the host as physical function 0, whose path it waits for (R113, R221); its copy, and the clearing of the
frame before it is given on (R230), are made within the request's own step (log 97). -/
def State.evict (s : State) (own : Option Nat) (mask : Nat) : Draw :=
  let cands := s.mem.objs.filter (fun o => s.evictable o.2 && (s.victim o.1 o.2 mask).isSome)
  match s.oldest (cands.filter (fun o => o.2.promoting == 0)) with
  | some (id, o) =>
    match s.victim id o mask, s.freeSlow with
    | some b, some sf =>
      if !s.pathUp .pf then .wait
      else
        let s1 := s.switchBlock { obj := id, blk := b, frame := sf }
        .got { s1 with mem := { s1.mem with clearing := s1.mem.clearing.filter (fun f => f != o.frame b) } } (o.frame b)
    | _, _ => .none
  | none => if cands.all (fun o => some o.1 == own) then .none else .wait

/-- The stacks of a mask in ascending order round from st (R435). -/
def stackOrder (mask st : Nat) : List Nat :=
  ((List.range 16).map (fun i => (st + i) % 16)).filter (fun i => mask.testBit i)

/-- Draws an HBM frame: a free one in the first stack of the order, else by eviction (R234, R435). -/
def State.drawHbm (s : State) (own : Option Nat) (mask st : Nat) : Draw :=
  match (stackOrder mask st).findSome? s.freeInStack with
  | some f => .got s f
  | none => s.evict own mask

/-- The lowest free unified base for n blocks (R224). -/
def State.freeBase (s : State) (n : Nat) : Option Nat :=
  let spans := s.mem.objs.map (fun o => (o.2.ubase, o.2.ubase + blockBytes * o.2.blocks))
  let ok (b : Nat) : Bool := spans.all (fun x => decide (x.2 ≤ b) || decide (b + n * blockBytes ≤ x.1)) &&
    decide (b + n * blockBytes ≤ 2 ^ 52)
  (0 :: spans.map (fun x => x.2)).foldl (fun best b => if ok b then
    match best with
    | some x => some (min x b)
    | none => some b
  else best) none

/-- The result of drawing the frames of an object's blocks in order: the frames and whether all were found. -/
inductive DrawAll where
  | done (s : State) (frames : List Nat) (all : Bool)
  | wait

/-- Draws frames for n blocks of the new object `id` of context c, which backs its blocks with them as they are drawn, so that they count
as the context's use (R226, R234, R235, R435). -/
def State.drawNew (c id mask : Nat) (slow : Bool) : Nat → State → Nat → List Nat → DrawAll
  | 0, s, _, fs => .done s fs true
  | n + 1, s, st, fs =>
    match s.drawHbm (some id) mask st with
    | .got s' f => State.drawNew c id mask slow n (s'.modObj id (fun o => { o with frames := fs ++ [f] })) (stackOf f + 1) (fs ++ [f])
    | .wait => .wait
    | .none =>
      match (if slow && s.slowRoom c then s.freeSlow else none) with
      | some f => State.drawNew c id mask slow n (s.modObj id (fun o => { o with frames := fs ++ [f] })) st (fs ++ [f])
      | none => .done s fs false

/-- Starts moving block b of object o to a frame (R229). -/
def State.startMig (s : State) (o b frame : Nat) : State :=
  { s with mem := { s.mem with migs := s.mem.migs ++ [{ obj := o, blk := b, frame := frame }] } }

/-- The lowest stack of a mask. -/
def lowestStack (mask : Nat) : Nat := ((stackOrder mask 0).head?).getD 0

/-- Whether a block already lies where a job moves it. -/
def Obj.placed (o : Obj) (kind b : Nat) : Bool :=
  let f := o.frames.getD b 0
  match kind with
  | 3 => isHbm f
  | 4 => !isHbm f
  | _ => !isHbm f || (stackMaskOf o.stackMask.toNat).testBit (stackOf f)

/-- Gives frames to the blocks a job has left, in order, until one must wait (R234, R235, R435); the number of blocks left in the
slow tier for want of a frame. -/
def State.driveJob (c : Nat) : List Nat → State → MoveJob → Nat → State × MoveJob × Nat
  | [], s, j, n => (s, { j with left := [] }, n)
  | b :: bs, s, j, n =>
    match s.obj? j.obj with
    | none => (s, { j with left := [] }, n)
    | some o =>
      if o.state ≠ 1 then (s, { j with left := [], stop := some stState }, n)
      else if s.moving j.obj b then
        (match State.driveJob c bs s j n with
         | (s', j', m) => (s', { j' with left := b :: j'.left }, m))
      else if o.placed j.kind b then State.driveJob c bs s j n
      else if j.kind = 4 then
        match (if s.slowRoom c then s.freeSlow else none) with
        | some f => State.driveJob c bs (s.startMig j.obj b f) { j with flight := j.flight ++ [b] } n
        | none => (s, { j with left := [], stop := some stNospace }, n)
      else
        match s.drawHbm (some j.obj) (stackMaskOf o.stackMask.toNat) j.st with
        | .got s' f => State.driveJob c bs (s'.startMig j.obj b f) { j with flight := j.flight ++ [b], st := stackOf f + 1 } n
        | .wait => (s, { j with left := b :: bs }, n)
        | .none =>
          if j.allowSlow then State.driveJob c bs s j (n + 1)
          else (s, { j with left := [], stop := some stNospace }, n)

def MoveJob.done (j : MoveJob) : Bool := j.left.isEmpty && j.flight.isEmpty

/-- A promotion starts and pins its object (R236). -/
def State.pinMoving (s : State) (j : MoveJob) : State :=
  if j.kind = 3 then s.modObj j.obj (fun o => { o with promoting := o.promoting + 1 }) else s

/-- A promotion ends: its object is touched and the pin ends (R225, R236). -/
def State.unpinMoving (s : State) (j : MoveJob) : State :=
  if j.kind = 3 then s.modObj j.obj (fun o => { o with promoting := o.promoting - 1, touch := s.touchNow }) else s

/-- A PLACE that moves blocks ends: its promotion too, and one with PIN pins its object if it found its frames (R226, R233, R236). -/
def State.leavePlace (s : State) (r : PlaceRun) (pins : Bool) : State :=
  let s1 := s.unpinMoving r.job
  if r.pin then s1.modObj r.job.obj (fun o => { o with pin := o.pin || pins, pinning := o.pinning - 1 }) else s1

/-- The frame that replaces a retired one, the n-th: the next spare, or a pool frame once the 128 spares are used up (R244). -/
def State.spareFrame (s : State) (n : Nat) : Draw :=
  if n < 128 ∧ !s.flash.retired.contains (128 + n) ∧ !s.usedFrames.contains (128 + n) then .got s (128 + n) else s.drawHbm none (2 ^ 16 - 1) 0

/-- The block that a frame backs. -/
def State.blockAt (s : State) (f : Nat) : Option (Nat × Nat) :=
  s.mem.objs.findSome? (fun (o : Nat × Obj) => (o.2.frames.idxOf? f).map (fun b => (o.1, b)))

/-- Blocks that a retired frame still backs move to a spare frame, as far as one is found (R229, R244; log 49). -/
def State.moveRetired (s : State) : State :=
  (s.flash.retired.zipIdx).foldl (fun (s : State) x =>
    match s.blockAt x.1 with
    | some (o, b) => if s.moving o b then s else (match s.spareFrame x.2 with
      | .got s' g => s'.startMig o b g
      | _ => s)
    | none => s) s

/-- Removes an object: its frames go to clearing and its bytes and poison disappear (R227, R230). -/
def State.dropObj (s : State) (id : Nat) : State :=
  match s.obj? id with
  | none => s
  | some o =>
    let fs := o.frames ++ (s.mem.migs.filter (fun m => m.obj == id)).map (fun m => m.frame)
    let n := blockBytes * o.blocks
    let s := { s with mem := { s.mem with
        objs := s.mem.objs.erase id
        migs := s.mem.migs.filter (fun m => m.obj != id)
        zeroed := s.mem.zeroed.filter (fun u => !(decide (o.block 0 ≤ u) && decide (u < o.block o.blocks)))
        data := s.mem.data.clear o.ubase n
        poison := s.mem.poison.filter (fun l => !(decide (o.ubase ≤ 64 * l) && decide (64 * l < o.ubase + n))) } }
    fs.foldl State.freeFrame { s with ctxs := s.ctxs.map (fun x => (x.1, { x.2 with pfJobs := x.2.pfJobs.filter (fun j => j.obj != id) })) }

/-- RELEASE: the object is invisible at once and keeps its frames while the listed starts run (R227). -/
def State.releaseObj (s : State) (id : Nat) (waits : List Nat) : State :=
  s.modObj id (fun o => { o with state := 2, waits := waits })

/-- The object whose blocks hold a unified address (R222). -/
def State.objAt (s : State) (a : Nat) : Option (Nat × Obj) :=
  List.find? (fun o => decide (o.2.ubase ≤ a) && decide (a < o.2.ubase + blockBytes * o.2.blocks) && o.2.state != 2) s.mem.objs

/-- The frame of a unified address. -/
def State.frameAt (s : State) (a : Nat) : Option Nat :=
  match s.objAt a with
  | some (_, o) => some (o.frames.getD ((a - o.ubase) / blockBytes) 0)
  | none => none

/-- Counts plan items or blocks in SKIPPED and LATE of MEM_CTX_PF, saturating (R242). -/
def State.countSkipped (s : State) (c n : Nat) : State := s.modCtx c (fun x => { x with pfSkipped := satAdd 65535 x.pfSkipped n })
def State.countLate (s : State) (c n : Nat) : State := s.modCtx c (fun x => { x with pfLate := satAdd 65535 x.pfLate n })

/-- The blocks that a plan item names (R240). -/
def PfItem.blocks (it : PfItem) (o : Obj) : List Nat :=
  let first := it.off / blockBytes
  let n := if it.len = 0 then o.blocks - first else min (it.len / blockBytes) (o.blocks - first)
  (List.range n).map (fun i => first + i)

/-- Counts the blocks a plan job left in the slow tier, and keeps the job while it is not done (R242). -/
def keepPlanJob (c : Nat) (r : State × MoveJob × Nat) : State :=
  let s1 := r.1.countSkipped c (if r.2.1.kind = 3 then r.2.2 else 0)
  if r.2.1.done then s1.unpinMoving r.2.1 else s1.modCtx c (fun x => { x with pfJobs := x.pfJobs ++ [r.2.1] })

/-- Starts plan item k: its promotions or, with `demote`, its demotions (R241, R242). -/
def State.startItem (s : State) (c k : Nat) (it : PfItem) (demote : Bool) : State :=
  match s.obj? it.obj with
  | none => s.countSkipped c 1
  | some o =>
    if o.state ≠ 1 ∨ o.ctx ≠ c then s.countSkipped c 1
    else if demote ∧ o.pin then s
    else
      let j : MoveJob :=
        { obj := it.obj, kind := if demote then 4 else 3, allowSlow := true, item := some k
          left := it.blocks o, st := lowestStack (stackMaskOf o.stackMask.toNat) }
      let s1 := s.pinMoving j
      keepPlanJob c (State.driveJob c j.left s1 j 0)

/-- The items of step i with their numbers. -/
def PfPlan.itemsOf (p : PfPlan) (i : Nat) : List (Nat × PfItem) :=
  match p.steps[i]? with
  | some st => ((List.range st.nitems).map (fun k => st.first + k)).filterMap (fun k => (p.items[k]?).map (fun it => (k, it)))
  | none => []

/-- Starts the items of the listed steps that have not started in this sweep, in step and item order (R241). -/
def State.startItems (s : State) (c : Nat) (p : PfPlan) (fwd : Bool) (steps : List Nat) : State × PfPlan :=
  ((steps.map p.itemsOf).flatten).foldl (fun r k =>
    let takes := (k.2.action ≠ 3 ∧ ((fwd ∧ k.2.fwd) ∨ (!fwd ∧ k.2.bwd))) ∨ (k.2.action = 3 ∧ !fwd)
    if takes ∧ !r.2.started.contains k.1 then
      (r.1.startItem c k.1 k.2 false, { r.2 with started := r.2.started ++ [k.1] })
    else r) (s, p)

/-- Items of a step with a promotion still in flight (R242). -/
def State.lateItems (s : State) (c : Nat) (p : PfPlan) (i : Nat) : Nat :=
  ((p.itemsOf i).filter (fun k => (s.ctx c).pfJobs.any (fun j => j.item == some k.1 && j.kind == 3))).length

/-- A learner step is repeated: the plan sweeps forward again from its first step (R241, R358, R397). -/
def State.planRestart (s : State) (c : Nat) : State :=
  s.modCtx c (fun x => { x with plan := x.plan.map (fun p => { p with cursor := none, forward := true, started := [], counts := [] }) })

/-- An EXEC whose CODE names object `prog` at offset 0 starts: the cursor and the items it starts (R241). A program that several steps
name stands for the lowest of them, and for its forward role first (log 121). -/
def State.planStart (s : State) (c prog : Nat) : State :=
  match (s.ctx c).plan with
  | none => s
  | some p =>
    match (List.range p.steps.length).find? (fun i => (p.steps[i]?).any (fun st => st.fwd == some prog)) with
    | some i =>
      let newSweep := !p.forward || (match p.cursor with
        | some k => decide (i < k)
        | none => false)
      let p1 := if newSweep then { p with started := [], counts := [] } else p
      let s1 := s.countLate c (s.lateItems c p1 i)
      let r := s1.startItems c { p1 with cursor := some i, forward := true } true ((List.range (p.lead + 1)).map (fun k => i + k))
      r.1.modCtx c (fun x => { x with plan := some r.2 })
    | none =>
      match (List.range p.steps.length).find? (fun i => (p.steps[i]?).any (fun st => st.bwd == some prog)) with
      | some i =>
        let p1 := if p.forward then { p with started := [], counts := [] } else p
        let s1 := s.countLate c (s.lateItems c p1 i)
        let r := s1.startItems c { p1 with cursor := some i, forward := false } false
          (((List.range (p.lead + 1)).filter (fun k => decide (k ≤ i))).map (fun k => i - k))
        r.1.modCtx c (fun x => { x with plan := some r.2 })
      | none => s

/-- A forward EXEC of a step completes with OK: the FWD_EXECS-th demotes the step's OFFLOAD items (R241). -/
def State.planDone (s : State) (c prog : Nat) : State :=
  match (s.ctx c).plan with
  | none => s
  | some p =>
    match (List.range p.steps.length).find? (fun i => (p.steps[i]?).any (fun st => st.fwd == some prog)) with
    | none => s
    | some i =>
      let n := p.counts.get 0 i + 1
      let need := (p.steps[i]?).elim 1 (fun st => atLeast1 st.fwdExecs)
      let s1 := s.modCtx c (fun x => { x with plan := some { p with counts := p.counts.set i n } })
      if n = need then ((p.itemsOf i).filter (fun k => k.2.action == 3)).foldl (fun s k => s.startItem c k.1 k.2 true) s1 else s1

end Sys2Proof.Machine
end

