-- ==== Sys2Proof/Machine/Fabric.lean ====
section
/-!
DEFINITION. Sending on the Oaruxa fabric: frame headers (R262), virtual channels, credits, routes and the replay buffer (R263, R264, R267,
R277), the frames that carry no data, and groups (R271).
-/
namespace Sys2Proof.Machine

/-- The bytes of a 32-byte header. -/
def hdrBytes (h : HdrWord) : List Byte := leBytes 32 h.toNat
def hdrNat (h : HdrWord) (off n : Nat) : Nat := byteFld h.toNat off n
def hdrVc (h : HdrWord) : Nat := hdrNat h 1 1 % 4
def hdrHops (h : HdrWord) : Nat := fld (hdrNat h 1 1) 2 3
def hdrLen (h : HdrWord) : Nat := hdrNat h 2 2
def hdrTag (h : HdrWord) : Nat := hdrNat h 4 3
def hdrSrc (h : HdrWord) : Nat := hdrNat h 8 2 % 4096
def hdrDst (h : HdrWord) : Nat := hdrNat h 10 2 % 4096
def hdrEpoch (h : HdrWord) : Nat := hdrNat h 12 2
def hdrGroup (h : HdrWord) : Nat := hdrNat h 14 2
def hdrSeq (h : HdrWord) : Nat := hdrNat h 16 4
def hdrOff (h : HdrWord) : Nat := hdrNat h 20 6
def hdrLinkSeq (h : HdrWord) : Nat := hdrNat h 26 2
/-- HDR_CRC is the CRC-32C of bytes 0 to 27 (R262). -/
def hdrCrcOk (h : HdrWord) : Bool := hdrNat h 28 4 == (crc32c ((hdrBytes h).take 28)).toNat

def hdrType (h : HdrWord) : Nat := hdrNat h 0 1

/-- A header with its link sequence number and CRC set (R262, R264). -/
def sealHdr (h : HdrWord) (linkSeq : Half) : HdrWord :=
  let body := (hdrBytes h).take 26 ++ leBytes 2 linkSeq.toNat
  BitVec.ofNat 256 (leNat (body ++ leBytes 4 (crc32c body).toNat))

/-- A header before it is sealed (R262). -/
def frameHdr (type vc hops len tag src dst epoch group seq off : Nat) : HdrWord :=
  BitVec.ofNat 256 (leNat (leBytes 1 type ++ leBytes 1 (vc + 4 * hops) ++ leBytes 2 len ++ leBytes 3 tag ++ leBytes 1 0 ++ leBytes 2 src ++
    leBytes 2 dst ++ leBytes 2 epoch ++ leBytes 2 group ++ leBytes 4 seq ++ leBytes 6 off))

/-- The header of a DATA frame of a context: 4 hops (R262, R268). -/
def dataHdr (vc len tag src dst epoch group seq off : Nat) : HdrWord := frameHdr 1 vc 4 len tag src dst epoch group seq off

/-- CREDIT and CTRL frames without a tag are between the two ports of a link (R262, R263; log 110). -/
def hdrIsLink (h : HdrWord) : Bool := hdrTag h == 0 && (hdrType h == 3 || hdrType h == 6)
def Frame.isLink (f : Frame) : Bool := hdrIsLink f.hdr

/-- The credits that a frame takes; frames between the two ports of a link take none (R263; log 110). -/
def Frame.credits (f : Frame) : Nat := if f.isLink then 0 else ceilDiv (36 + f.payload.length) 256
def Frame.bytes (f : Frame) : Nat := 36 + f.payload.length

/-- A frame may leave: within the credits of its channel and the 256 KiB of the replay buffer (R263, R264). -/
def Port.may (p : Port) (f : Frame) : Bool :=
  decide (f.credits ≤ p.credits.get 0 (hdrVc f.hdr)) && decide ((p.replay.map Frame.bytes).sum + f.bytes ≤ 262144)

/-- The first frame queued on a virtual channel. -/
def Port.head (p : Port) (vc : Nat) : Option Frame := p.queued.find? (fun f => !f.isLink && hdrVc f.hdr == vc)

/-- Of VC1, VC2 and VC3, the frame that may leave on the channel furthest behind its share (R263; log 112). -/
def Port.shared (p : Port) : Option Frame :=
  ([1, 2, 3].foldl (fun (best : Option (Nat × Frame)) vc =>
    match (p.head vc).filter p.may, best with
    | some f, some (n, g) => if p.share.get 0 vc < n then some (p.share.get 0 vc, f) else some (n, g)
    | some f, none => some (p.share.get 0 vc, f)
    | none, b => b) none).map (fun x => x.2)

/-- The frame that leaves next: a link's own, else of VC0, else by the shares of the other channels (R263). -/
def Port.next (p : Port) : Option Frame :=
  ((p.queued.find? Frame.isLink).filter p.may).or (((p.head 0).filter p.may).or p.shared)

/-- A port once it has sent a frame: 4 : 2 : 1 by bytes is the same bytes times 1, 2 and 4 (R263, R264). -/
def Port.send (p : Port) (f : Frame) : Port :=
  let vc := hdrVc f.hdr
  { p with
    credits := p.credits.set vc (p.credits.get 0 vc - f.credits)
    linkSeq := p.linkSeq + 1#16
    queued := p.queued.erase f
    replay := p.replay ++ [{ f with hdr := sealHdr f.hdr p.linkSeq }]
    share := if f.isLink || vc == 0 then p.share else p.share.set vc (p.share.get 0 vc + f.bytes * 2 ^ (vc - 1)) }

/-- Sends up to n frames of the queue, as long as one may leave. -/
def Port.drain : Nat → Port → Port
  | 0, p => p
  | n + 1, p => match p.next with
    | some f => Port.drain n (p.send f)
    | none => p

/-- A frame joins the queue; a channel that was idle starts level with the one furthest behind, so that its share goes to the others
while it is idle (R263). -/
def Port.enqueue (p : Port) (f : Frame) : Port :=
  let vc := hdrVc f.hdr
  let busy := [1, 2, 3].filter (fun v => (p.head v).isSome)
  let level := ((busy.map (fun v => p.share.get 0 v)).min?).getD 0
  { p with
    queued := p.queued ++ [f]
    share := if f.isLink || vc == 0 || busy.contains vc then p.share else if busy.isEmpty then [] else p.share.set vc (max level (p.share.get 0 vc)) }

/-- Sends what port p may send now; a port carries frames only in UP (R256). -/
def State.pump (s : State) (p : Nat) : State :=
  let x := s.port p
  if x.state ≠ 4 then s else
    let y := Port.drain x.queued.length x
    let fresh := y.replay.drop x.replay.length
    (fresh.foldl (fun s f => s.emit (.frame p f.hdr f.payload f.crc)) (s.setPort p y)).countMod 8 ((fresh.map (fun f => f.payload.length)).sum)

def State.tag (s : State) (c : Nat) : Nat := fld (s.reg (rCtxTag c)) 0 24
def State.moduleAddr (s : State) : Nat := fld (s.reg rModAddr) 0 12

/-- Frames of a context may reach it: the module's address is valid and the context has a partition tag (R266, R269). -/
def State.hears (s : State) (c : Nat) : Bool := s.tag c != 0 && bitOf (s.reg rModAddr) 31

/-- A destination is this module (R266). -/
def State.isMe (s : State) (a : Nat) : Bool := a == s.moduleAddr && bitOf (s.reg rModAddr) 31

/-- The port mask of a destination; the entry of the module's own address is ignored (R267). -/
def State.route (s : State) (dst : Nat) : DWord := if s.isMe dst then 0#64 else s.fabric.routes.get 0#64 dst

/-- The UP ports of a mask (R267). -/
def State.upPorts (s : State) (mask : DWord) : List Nat := (bitList mask.toNat 64).filter (fun p => (s.port p).state == 4)

/-- Of some ports, the first with the fewest bytes queued (R267). -/
def State.leastQueued (s : State) : List Nat → Option Nat
  | [] => none
  | p :: r => match s.leastQueued r with
    | some q => if (((s.port q).queued.map Frame.bytes).sum < ((s.port p).queued.map Frame.bytes).sum) then some q else some p
    | none => some p

/-- Queues a frame on a port and sends what may leave. -/
def State.queueOn (s : State) (p : Nat) (f : Frame) : State := (s.modPort p (fun x => x.enqueue f)).pump p

/-- Queues a frame on a port of its mask, or keeps it until one is UP (R267, R277). -/
def State.placeFrame (s : State) (f : Frame) : State :=
  match s.leastQueued (s.upPorts f.mask) with
  | some p => s.queueOn p f
  | none => { s with fabric := { s.fabric with waiting := s.fabric.waiting ++ [f] } }

/-- Queues a frame by the route table as it is now (R267). -/
def State.sendFrame (s : State) (f : Frame) : State := s.placeFrame { f with mask := s.route (hdrDst f.hdr) }

/-- Frames that waited for a port of their mask are tried again (R277). -/
def State.sendWaiting (s : State) : State :=
  s.fabric.waiting.foldl State.placeFrame { s with fabric := { s.fabric with waiting := [] } }

/-- Whether the context may send: an expelled module sends no further frames with the context's tag (R388). -/
def State.maySend (s : State) (c : Nat) : Bool := (s.ctx c).mile.state != 6

/-- Splits a payload into frames of at most 4,096 bytes from a transfer offset, each a multiple of 4 long (R262). -/
def frameParts : Nat → Nat → List Byte → List (Nat × List Byte)
  | 0, _, _ => []
  | n + 1, off, bs =>
    if bs.isEmpty then [] else
      let h := bs.take 4096
      let pad := List.replicate ((4 - h.length % 4) % 4) 0#8
      (off, h ++ pad) :: frameParts n (off + 4096) (bs.drop 4096)

/-- Sends bytes from an offset of a transfer as frames of a type on a virtual channel, with the context's tag and epoch and 4 hops (R262,
R268, R269). -/
def State.sendTyped (s : State) (type c dst vc group seq off : Nat) (bs : List Byte) : State :=
  if !s.maySend c then s else
    (frameParts (bs.length / 4096 + 1) off bs).foldl (fun s x => s.sendFrame {
      hdr := frameHdr type vc 4 x.2.length (s.tag c) s.moduleAddr dst (s.ctx c).epoch.toNat group seq x.1
      payload := x.2
      crc := crc32c x.2 }) s

/-- Sends bytes of a transfer as DATA frames (R262). -/
def State.sendData (s : State) (c dst vc group seq off : Nat) (bs : List Byte) : State := s.sendTyped 1 c dst vc group seq off bs

/-- A frame of a context that carries no data: READY (R273), the messages of a fill (R410), the slot credits of a stage queue (R282), a flush marker (R397), and the
messages of the Switchback and the Milepost (R371, R373, R376, R393, R394, R403). -/
inductive Ctrl where
  | ready (op dtype count : Nat)
  | fill (op total : Nat) (lens : List Nat)
  | slotCredit (n : Nat)
  | flush
  | sbAgree (step : DWord) (digest : BitVec 256)
  | sbConfirm (digest : BitVec 256)
  | sbAbort (rank : Nat) (status : Byte) (stage : Nat)
  | failFrame (step : DWord) (attempt : Word) (cause : Byte) (rank : Nat)
  | digest (kind : DigestKind) (digest : BitVec 256)
  | contribution (x : Contribution)
  deriving DecidableEq, Repr

/-- TYPE of such a frame (R262). -/
def Ctrl.type : Ctrl → Nat
  | .ready _ _ _ => 2
  | .fill _ _ _ => 2
  | .slotCredit _ => 3
  | _ => 6

/-- Its virtual channel: VC2 for the stage queues (R282, R397), VC0 for the rest (R263). -/
def Ctrl.vc : Ctrl → Nat
  | .slotCredit _ => 2
  | .flush => 2
  | _ => 0

/-- Its payload, of the model's layout (log 18). -/
def Ctrl.bytes : Ctrl → List Byte
  | .ready op dt n => leBytes 1 op ++ leBytes 1 dt ++ leBytes 2 0 ++ leBytes 8 n
  | .fill op n lens => leBytes 1 op ++ leBytes 3 0 ++ leBytes 8 n ++ (lens.map (leBytes 8)).flatten
  | .slotCredit n => leBytes 4 n
  | .flush => leBytes 4 1
  | .sbAgree step d => leBytes 4 2 ++ leBytes 8 step.toNat ++ leBytes 32 d.toNat
  | .sbConfirm d => leBytes 4 3 ++ leBytes 32 d.toNat
  | .sbAbort rank st stage => leBytes 4 4 ++ leBytes 2 rank ++ leBytes 1 st.toNat ++ leBytes 1 stage
  | .failFrame step att cause rank => leBytes 4 5 ++ leBytes 8 step.toNat ++ leBytes 4 att.toNat ++ leBytes 2 rank ++ leBytes 2 cause.toNat
  | .digest kind d => leBytes 4 (6 + b2n (kind == .shadow)) ++ leBytes 32 d.toNat
  | .contribution x => leBytes 4 8 ++ leBytes 8 x.step.toNat ++ leBytes 4 x.attempt.toNat ++ leBytes 1 (b2n x.fail + 2 * b2n x.nonfinite + 4 * b2n x.digestsPass) ++
      leBytes 1 x.cause.toNat ++ leBytes 2 x.failRank ++ leBytes 4 x.p.toNat ++ (x.v.map (fun w => leBytes 4 w.toNat)).flatten

/-- Sends a frame of a context that carries no data, for a transfer of a group or queue. -/
def State.sendCtrl (s : State) (c dst group seq : Nat) (m : Ctrl) : State := s.sendTyped m.type c dst m.vc group seq 0 m.bytes

/-- A header of a frame between the two ports of a link. -/
def State.linkHdr (s : State) (p type vc len : Nat) : HdrWord := frameHdr type vc 0 len 0 s.moduleAddr (s.port p).peerMod 0 0 0 0

/-- ACK or NAK of a link sequence number (R264): a frame outside the sequence, which needs no credits (log 110). -/
def State.sendAck (s : State) (p : Nat) (seq : Half) : State := s.emit (.frame p (sealHdr (s.linkHdr p 4 0 0) seq) [] (crc32c []))
def State.sendNak (s : State) (p : Nat) (seq : Half) : State := s.emit (.frame p (sealHdr (s.linkHdr p 5 0 0) seq) [] (crc32c []))

/-- Grants the far end n credits of a virtual channel (R263). -/
def State.grant (s : State) (p vc n : Nat) : State :=
  if n = 0 ∨ (s.port p).state ≠ 4 then s else
    let bs := leBytes 4 n
    s.queueOn p { hdr := s.linkHdr p 3 vc bs.length, payload := bs, crc := crc32c bs }

/-- Returns the receive buffer of a frame (R263). -/
def State.returnCredit (s : State) (port : Nat) (f : Frame) : State := s.grant port (hdrVc f.hdr) f.credits

/-- The DATA of a transfer on a group, not of a stage queue. -/
def Frame.isOf (tag group seq : Nat) (f : Frame) : Bool :=
  hdrTag f.hdr == tag && hdrGroup f.hdr == group && hdrSeq f.hdr == seq && hdrType f.hdr == 1 && hdrVc f.hdr != 2

/-- The DATA of a slot of a stage queue (R282). -/
def Frame.isSlot (tag queue seq : Nat) (f : Frame) : Bool :=
  hdrTag f.hdr == tag && hdrGroup f.hdr == queue && hdrSeq f.hdr == seq && hdrType f.hdr == 1 && hdrVc f.hdr == 2

/-- Frames that still wait to leave. -/
def State.queuedFrames (s : State) : List Frame := s.fabric.waiting ++ (s.fabric.ports.map (fun (p : Nat × Port) => p.2.queued)).flatten

/-- Frames of a transfer that still wait to leave (R278). -/
def State.unsent (s : State) (tag group seq : Nat) : List Frame := s.queuedFrames.filter (Frame.isOf tag group seq)

/-- Frames of a slot that still wait to leave (R278). -/
def State.unsentSlot (s : State) (tag queue seq : Nat) : List Frame := s.queuedFrames.filter (Frame.isSlot tag queue seq)

/-- A group as read when a COLLECTIVE starts (R271). -/
structure Group where
  me : Nat
  ranks : List Nat
  deriving DecidableEq, Repr

/-- The 16-bit numbers of a byte string. -/
def halves : Nat → List Byte → List Nat
  | 0, _ => []
  | n + 1, bs => leNat (bs.take 2) :: halves n (bs.drop 2)

/-- Reads group g of a context; FORMAT for a record that R271 refuses, POISON or AUTH for a failed read. -/
def State.readGroup (s : State) (c g : Nat) : Except Byte Group :=
  let ref := s.reg (rGroupBase c)
  if min (fld (s.reg (rGroupCfg c)) 0 9) 256 ≤ g then .error stFormat else
  let ext := (s.resolve c ref).extent
  if ext < 16 * g + 16 then .error stFormat else
  let r := s.readTarget c ((s.resolve c ref).plus (16 * g)) 16
  match r.stop with
  | some st => .error st
  | none =>
    let n := recNat r.data 0 2
    let me := recNat r.data 2 2
    let off := recNat r.data 4 4
    if n = 0 ∨ 4096 < n ∨ n ≤ me ∨ off % 2 = 1 ∨ ext < off + 2 * n then .error stFormat else
    let l := s.readTarget c ((s.resolve c ref).plus off) (2 * n)
    match l.stop with
    | some st => .error st
    | none =>
      let ranks := halves n l.data
      if ranks.all (fun a => decide (a < 4096)) && ranks.getD me 4096 == s.moduleAddr then .ok ⟨me, ranks⟩ else .error stFormat

/-- The state after a read of group g that failed (R247). -/
def State.reachGroup (s : State) (c g : Nat) : State :=
  let t := s.resolve c (s.reg (rGroupBase c))
  let r := s.readTarget c (t.plus (16 * g)) 16
  if r.stop.isSome then s.reachTarget (t.plus (16 * g)) 16 else s.reachTarget (t.plus (recNat r.data 4 4)) (2 * recNat r.data 0 2)

/-- Takes the next SEQ of a group (R273). -/
def State.takeSeq (s : State) (c g : Nat) : State × Nat :=
  let n := (s.ctx c).collSeq.get 0 g
  (s.modCtx c (fun x => { x with collSeq := x.collSeq.set g (n + 1) }), n)

/-- Every rank of a list but one, with its number. -/
def otherRanks (ranks : List Nat) (me : Nat) : List (Nat × Nat) :=
  ((List.range ranks.length).filter (fun r => r != me)).map (fun r => (r, ranks.getD r 0))

end Sys2Proof.Machine
end

