-- ==== Sys2Proof/Machine/Float.lean ====
section
/-!
DEFINITION. Exact arithmetic and FP32 (R181, R182, R193, R194). A value is computed exactly as ±m·2^e over integers and rounded
once; a NaN result is the canonical NaN (R182). Functions that take `ak` compute as the AK6 vector engine when it is true (R213):
subnormal inputs and results become +0 and FMA is a multiplication and an addition, each rounded.
-/
namespace Sys2Proof.Machine

/-- A real, infinite or NaN value: `fin s m e` is ±m·2^e. -/
inductive Num where
  | nan
  | inf (neg : Bool)
  | fin (neg : Bool) (m : Nat) (e : Int)
  deriving DecidableEq, Repr

/-- m·2^e as an integer multiple of 2^q, for q at most e; m shifted down otherwise. -/
def scaleTo (m : Nat) (e q : Int) : Nat :=
  if q ≤ e then m * 2 ^ (e - q).toNat else m / 2 ^ (q - e).toNat

/-- Rounding of an exact magnitude to a multiple of a power of two. -/
inductive Rnd where
  | nearest
  | zero
  | stochastic (r : Nat)
  deriving DecidableEq, Repr

/-- m·2^e as a multiple of 2^q, rounded (R186, R190, R213). -/
def roundAt (rnd : Rnd) (m : Nat) (e q : Int) : Nat :=
  if q ≤ e then m * 2 ^ (e - q).toNat else
    let d := (q - e).toNat
    let t := m >>> d
    let rem := m % 2 ^ d
    match rnd with
    | .zero => t
    | .nearest => if 2 * rem > 2 ^ d then t + 1 else if 2 * rem = 2 ^ d then t + t % 2 else t
    | .stochastic r => if r < rem * 2 ^ 32 / 2 ^ d then t + 1 else t

/-- The magnitude code of m·2^e in a format of `man` mantissa bits whose smallest subnormal is 2^qmin, unbounded above: the
mantissa in the low bits, the exponent field above it. -/
def encodeMag (rnd : Rnd) (man : Nat) (qmin : Int) (m : Nat) (e : Int) : Nat :=
  if m = 0 then 0 else
    let q := max ((bitLen m : Int) + e - (man + 1 : Nat)) qmin
    (q - qmin).toNat * 2 ^ man + roundAt rnd m e q

/-- The magnitude of a code of such a format. -/
def decodeMag (man : Nat) (qmin : Int) (code : Nat) : Nat × Int :=
  if code / 2 ^ man = 0 then (code % 2 ^ man, qmin)
  else (2 ^ man + code % 2 ^ man, qmin + (code / 2 ^ man : Nat) - 1)

def f32Nan : Word := 0x7FC00000#32
def f32Inf (neg : Bool) : Word := if neg then 0xFF800000#32 else 0x7F800000#32
def f32Zero (neg : Bool) : Word := if neg then 0x80000000#32 else 0#32
def f32One : Word := 0x3F800000#32
def f32Two : Word := 0x40000000#32
def f32NegInf : Word := 0xFF800000#32

/-- ±m·2^e rounded to FP32; beyond the range it is infinite. -/
def packF (rnd : Rnd) (neg : Bool) (m : Nat) (e : Int) : Word :=
  let c := encodeMag rnd 23 (-149) m e
  let c := if c < 0x7F800000 then c else if rnd = .zero then 0x7F7FFFFF else 0x7F800000
  word (c + b2n neg * 2 ^ 31)

def f32Of (x : Num) : Word :=
  match x with
  | .nan => f32Nan
  | .inf s => f32Inf s
  | .fin s m e => packF .nearest s m e

/-- The value of an FP32 word. -/
def numOf (w : Word) : Num :=
  let c := w.toNat % 2 ^ 31
  let s := w.toNat.testBit 31
  if c = 0x7F800000 then .inf s else if 0x7F800000 < c then .nan
  else let (m, e) := decodeMag 23 (-149) c
    .fin s m e

def isNan (w : Word) : Bool := 0x7F800000 < w.toNat % 2 ^ 31
def isInf (w : Word) : Bool := w.toNat % 2 ^ 31 == 0x7F800000
def isZero (w : Word) : Bool := w.toNat % 2 ^ 31 == 0
def isFinite (w : Word) : Bool := w.toNat % 2 ^ 31 < 0x7F800000
def signOf (w : Word) : Bool := w.toNat.testBit 31
def fneg (w : Word) : Word := if isNan w then f32Nan else w ^^^ 0x80000000#32
def fabs (w : Word) : Word := if isNan w then f32Nan else w &&& 0x7FFFFFFF#32
/-- t with the sign of x. -/
def fcopysign (t x : Word) : Word := (t &&& 0x7FFFFFFF#32) ||| (x &&& 0x80000000#32)

/-- ±m as an integer. -/
def signedInt (neg : Bool) (m : Nat) : Int := if neg then -(m : Int) else m

/-- The exact sum; a sum of zero is +0 unless both terms are −0. -/
def numAdd (x y : Num) : Num :=
  match x, y with
  | .nan, _ => .nan
  | _, .nan => .nan
  | .inf s, .inf t => if s = t then .inf s else .nan
  | .inf s, _ => .inf s
  | _, .inf t => .inf t
  | .fin s m e, .fin t n f =>
    let q := min e f
    let v := signedInt s (scaleTo m e q) + signedInt t (scaleTo n f q)
    if v = 0 then .fin (s && t && (m == 0) && (n == 0)) 0 q else .fin (decide (v < 0)) v.natAbs q

/-- The exact product. -/
def numMul (x y : Num) : Num :=
  match x, y with
  | .nan, _ => .nan
  | _, .nan => .nan
  | .inf s, .inf t => .inf (s != t)
  | .inf s, .fin t n _ => if n = 0 then .nan else .inf (s != t)
  | .fin s m _, .inf t => if m = 0 then .nan else .inf (s != t)
  | .fin s m e, .fin t n f => .fin (s != t) (m * n) (e + f)

def numNeg (x : Num) : Num :=
  match x with
  | .nan => .nan
  | .inf s => .inf (!s)
  | .fin s m e => .fin (!s) m e

def fadd (a b : Word) : Word := f32Of (numAdd (numOf a) (numOf b))
def fsub (a b : Word) : Word := f32Of (numAdd (numOf a) (numNeg (numOf b)))
def fmul (a b : Word) : Word := f32Of (numMul (numOf a) (numOf b))
/-- a × b + c with one rounding. -/
def ffma (a b c : Word) : Word := f32Of (numAdd (numMul (numOf a) (numOf b)) (numOf c))

/-- The quotient with enough bits for one correct rounding: the lowest bit is sticky. -/
def numDiv (x y : Num) : Num :=
  match x, y with
  | .nan, _ => .nan
  | _, .nan => .nan
  | .inf _, .inf _ => .nan
  | .inf s, .fin t _ _ => .inf (s != t)
  | .fin s _ _, .inf t => .fin (s != t) 0 0
  | .fin s m e, .fin t n f =>
    if n = 0 then (if m = 0 then .nan else .inf (s != t)) else
      let k := bitLen n + 30
      let a := m * 2 ^ k
      .fin (s != t) (2 * (a / n) + b2n (a % n != 0)) (e - f - k - 1)

def fdiv (a b : Word) : Word := f32Of (numDiv (numOf a) (numOf b))
def frcp (a : Word) : Word := fdiv f32One a

/-- The largest r below 2^n with r² at most x. -/
def isqrtAux (x : Nat) : Nat → Nat → Nat
  | 0, r => r
  | n + 1, r => isqrtAux x n (if (r + 2 ^ n) * (r + 2 ^ n) ≤ x then r + 2 ^ n else r)

def isqrt (x : Nat) : Nat := isqrtAux x (bitLen x / 2 + 1) 0

/-- The square root, the lowest bit sticky. -/
def numSqrt (x : Num) : Num :=
  match x with
  | .nan => .nan
  | .inf s => if s then .nan else .inf false
  | .fin s m e =>
    if m = 0 then .fin s 0 e else if s then .nan else
      let odd := (e % 2).toNat
      let a := m * 2 ^ (odd + 64)
      let r := isqrt a
      .fin false (2 * r + b2n (r * r != a)) ((e - odd) / 2 - 33)

def fsqrt (a : Word) : Word := f32Of (numSqrt (numOf a))

/-- 1 / sqrt(x), correctly rounded; an infinity of the zero's sign at zero. -/
def frsqrt (a : Word) : Word :=
  match numOf a with
  | .nan => f32Nan
  | .inf s => if s then f32Nan else 0#32
  | .fin s m e =>
    if m = 0 then f32Inf s else if s then f32Nan else
      let odd := (e % 2).toNat
      let d := m * 2 ^ odd
      let n := 2 ^ 128
      let r := isqrt (n / d)
      packF .nearest false (2 * r + b2n (r * r * d != n)) (-((e - odd) / 2) - 65)

/-- Order of non-NaN values, −0 below +0. -/
def orderKey (w : Word) : Int := if signOf w then -((w.toNat % 2 ^ 31 : Nat) : Int) - 1 else (w.toNat % 2 ^ 31 : Nat)

def fmin (a b : Word) : Word := if isNan a || isNan b then f32Nan else if orderKey a ≤ orderKey b then a else b
def fmax (a b : Word) : Word := if isNan a || isNan b then f32Nan else if orderKey a ≤ orderKey b then b else a
def feq (a b : Word) : Bool := !isNan a && !isNan b && (a == b || (isZero a && isZero b))
def flt (a b : Word) : Bool := !isNan a && !isNan b && !feq a b && decide (orderKey a < orderKey b)
def fle (a b : Word) : Bool := feq a b || flt a b

/-- x rounded half to even to an integer; none for NaN and infinities. -/
def roundInt (w : Word) : Option Int :=
  match numOf w with
  | .fin s m e => some (signedInt s (roundAt .nearest m e 0))
  | _ => none

/-- x truncated towards zero; none for NaN and infinities. -/
def truncInt (w : Word) : Option Int :=
  match numOf w with
  | .fin s m e => some (signedInt s (roundAt .zero m e 0))
  | _ => none

/-- An integer converted to FP32, rounded to nearest even. -/
def f32OfInt (i : Int) : Word := packF .nearest (decide (i < 0)) i.natAbs 0

/-- p × 2^n with one rounding. -/
def timesPow2 (p : Word) (n : Int) : Word :=
  match numOf p with
  | .fin s m e => packF .nearest s m (e + n)
  | _ => if isNan p then f32Nan else p

/-- A NaN as the canonical NaN (R182). -/
def canonNan (w : Word) : Word := if isNan w then f32Nan else w

/-- AK6: a subnormal becomes +0 (R213). -/
def flushSub (ak : Bool) (w : Word) : Word := if ak && decide (w.toNat % 2 ^ 31 < 0x800000) && !isZero w then 0#32 else w

def vadd (ak : Bool) (a b : Word) : Word := flushSub ak (fadd (flushSub ak a) (flushSub ak b))
def vsub (ak : Bool) (a b : Word) : Word := flushSub ak (fsub (flushSub ak a) (flushSub ak b))
def vmul (ak : Bool) (a b : Word) : Word := flushSub ak (fmul (flushSub ak a) (flushSub ak b))
def vdiv (ak : Bool) (a b : Word) : Word := flushSub ak (fdiv (flushSub ak a) (flushSub ak b))
def vfma (ak : Bool) (a b c : Word) : Word := if ak then vadd ak (vmul ak a b) c else ffma a b c
def vsqrt (ak : Bool) (a : Word) : Word := flushSub ak (fsqrt (flushSub ak a))
def vrsqrt (ak : Bool) (a : Word) : Word := flushSub ak (frsqrt (flushSub ak a))
def vrcp (ak : Bool) (a : Word) : Word := vdiv ak f32One a
def vmin (ak : Bool) (a b : Word) : Word := fmin (flushSub ak a) (flushSub ak b)
def vmax (ak : Bool) (a b : Word) : Word := fmax (flushSub ak a) (flushSub ak b)

/-- A polynomial by Horner's rule: fma(p, x, c) for each further coefficient. -/
def horner (ak : Bool) (x p : Word) (cs : List Word) : Word := cs.foldl (fun p c => vfma ak p x c) p

def cLog2e : Word := 0x3FB8AA3B#32
def cLn2Hi : Word := 0x3F317200#32
def cLn2Lo : Word := 0x35BFBE8E#32
def cSqrt2 : Word := 0x3FB504F3#32

/-- exp_f32 of R194. -/
def fexp (ak : Bool) (x0 : Word) : Word :=
  let x := flushSub ak x0
  if isNan x then f32Nan else
    match roundInt (vmul ak x cLog2e) with
    | none => if signOf x then 0#32 else f32Inf false
    | some n =>
      if n > 128 then f32Inf false else if n < -151 then 0#32 else
        let mn := f32OfInt (-n)
        let r := vfma ak mn cLn2Lo (vfma ak mn cLn2Hi x)
        let p := horner ak r 0x39500D01#32 [0x3AB60B61#32, 0x3C088889#32, 0x3D2AAAAB#32, 0x3E2AAAAB#32, 0x3F000000#32,
          f32One, f32One]
        flushSub ak (timesPow2 p n)

/-- log_f32 of R194. -/
def flog (ak : Bool) (x0 : Word) : Word :=
  let x := flushSub ak x0
  match numOf x with
  | .nan => f32Nan
  | .inf s => if s then f32Nan else f32Inf false
  | .fin s m e =>
    if m = 0 then f32NegInf else if s then f32Nan else
      let l := bitLen m
      let m1 := packF .nearest false m (1 - (l : Int))
      let e1 := e + l - 1
      let big := fle cSqrt2 m1
      let m2 := if big then vmul ak m1 0x3F000000#32 else m1
      let e2 := if big then e1 + 1 else e1
      let t := vdiv ak (vsub ak m2 f32One) (vadd ak m2 f32One)
      let z := vmul ak t t
      let q := horner ak z 0x3E638E39#32 [0x3E924925#32, 0x3ECCCCCD#32, 0x3F2AAAAB#32]
      let u := vfma ak (vmul ak t z) q (vmul ak f32Two t)
      vfma ak (f32OfInt e2) cLn2Hi (vfma ak (f32OfInt e2) cLn2Lo u)

/-- tanh_f32 of R194. -/
def ftanh (ak : Bool) (x0 : Word) : Word :=
  let x := flushSub ak x0
  if isNan x then f32Nan else
    let a := fabs x
    let t :=
      if fle 0x41100000#32 a then f32One
      else if flt a 0x3E800000#32 then
        let z := vmul ak a a
        vfma ak (vmul ak a z) (horner ak z 0x3CB327A4#32 [0xBD5D0DD1#32, 0x3E088889#32, 0xBEAAAAAB#32]) a
      else vsub ak f32One (vdiv ak f32Two (vadd ak (fexp ak (vmul ak f32Two a)) f32One))
    fcopysign t x

/-- erf_f32 of R194. -/
def ferf (ak : Bool) (x0 : Word) : Word :=
  let x := flushSub ak x0
  if isNan x then f32Nan else
    let a := fabs x
    let e :=
      if flt a 0x39800000#32 then vmul ak a 0x3F906EBB#32
      else if fle 0x40800000#32 a then f32One
      else
        let t := vdiv ak f32One (vfma ak 0x3EA7BA05#32 a f32One)
        let q := horner ak t 0x3F87DC22#32 [0xBFBA00E3#32, 0x3FB5F0E3#32, 0xBE91A98E#32, 0x3E827906#32]
        vsub ak f32One (vmul ak (vmul ak q t) (fexp ak (fneg (vmul ak a a))))
    fcopysign e x

/-- The drain activations of R195. -/
def activation (act : Nat) (x : Word) : Word :=
  if act = 0 then x else if isNan x then f32Nan else
    match act with
    | 1 => if flt 0#32 x then x else 0#32
    | 2 =>
      let u := ffma 0x3D372713#32 (fmul (fmul x x) x) x
      fmul (fmul x 0x3F000000#32) (fadd f32One (ftanh false (fmul u 0x3F4C422A#32)))
    | 3 => fmul (fmul x 0x3F000000#32) (fadd f32One (ferf false (fmul x 0x3F3504F3#32)))
    | 4 => fdiv x (fadd f32One (fexp false (fneg x)))
    | 5 => fdiv f32One (fadd f32One (fexp false (fneg x)))
    | _ => ftanh false x

end Sys2Proof.Machine
end

