-- ==== Sys2Proof/Machine/Formats.lean ====
section
/-!
DEFINITION. The narrow formats of R181, their conversions (R186 to R190, R213), MX blocks (R184, R185), MXFP8 (R189), the packing
of elements (R183) and Philox (R191).
-/
namespace Sys2Proof.Machine

/-- A narrow floating-point format: mantissa bits, exponent of the smallest subnormal, largest finite code, code of infinity if
it has one, code of its canonical NaN (0: none), width in bits. -/
structure Fmt where
  man : Nat
  qmin : Int
  maxCode : Nat
  infCode : Option Nat
  nanCode : Nat
  bits : Nat
  deriving DecidableEq, Repr

def fmtBf16 : Fmt := ⟨7, -133, 0x7F7F, some 0x7F80, 0x7FC0, 16⟩
def fmtFp16 : Fmt := ⟨10, -24, 0x7BFF, some 0x7C00, 0x7E00, 16⟩
def fmtE4m3 : Fmt := ⟨3, -9, 0x7E, none, 0x7F, 8⟩
def fmtE5m2 : Fmt := ⟨2, -16, 0x7B, some 0x7C, 0x7E, 8⟩
def fmtE2m1 : Fmt := ⟨1, -1, 0x7, none, 0, 4⟩
def fmtE2m3 : Fmt := ⟨3, -3, 0x1F, none, 0, 6⟩
def fmtE3m2 : Fmt := ⟨2, -4, 0x1F, none, 0, 6⟩

/-- The format of a matrix format code other than 4, INT8 (R115, R181). -/
def fmtOfCode (c : Nat) : Fmt :=
  match c with
  | 0 => fmtBf16
  | 1 => fmtFp16
  | 2 => fmtE4m3
  | 3 => fmtE5m2
  | 5 => fmtE2m1
  | 6 => fmtE2m3
  | _ => fmtE3m2

/-- Bits of an element of a matrix format. -/
def elemBits (c : Nat) : Nat := if c = 4 then 8 else (fmtOfCode c).bits

def isMx (c : Nat) : Bool := decide (5 ≤ c ∧ c ≤ 7)

/-- The value of a code of a format (R181). -/
def Fmt.decode (f : Fmt) (code : Nat) : Num :=
  let s := code.testBit (f.bits - 1)
  let mag := code % 2 ^ (f.bits - 1)
  if f.infCode = some mag then .inf s
  else if (match f.infCode with
      | some i => decide (i < mag)
      | none => decide (f.nanCode ≠ 0 ∧ mag = f.nanCode)) then .nan
  else let (m, e) := decodeMag f.man f.qmin mag
    .fin s m e

/-- The value of an element of a matrix format code (R115). -/
def elemNum (c code : Nat) : Num :=
  if c = 4 then .fin (code.testBit 7) (if code.testBit 7 then 256 - code % 256 else code % 256) 0
  else (fmtOfCode c).decode code

/-- A converted element: its code, and whether it is saturated or non-finite (R187). -/
structure Conv where
  code : Nat
  sat : Bool := false
  nonfin : Bool := false
  deriving DecidableEq, Repr

/-- Conversion from FP32 to a narrow format (R186, R187, R190; R213 with `ak`). -/
def convFmt (f : Fmt) (rnd : Rnd) (ak : Bool) (w : Word) : Conv :=
  let sb (s : Bool) : Nat := b2n s * 2 ^ (f.bits - 1)
  match numOf w with
  | .nan => { code := f.nanCode + (if ak then sb (signOf w) else 0), nonfin := true }
  | .inf s =>
    match f.infCode with
    | some i => { code := i + sb s, nonfin := true }
    | none => { code := f.maxCode + sb s, sat := true }
  | .fin s m e =>
    let c := encodeMag rnd f.man f.qmin m e
    if c ≤ f.maxCode then { code := c + sb s }
    else match ak, f.infCode with
      | true, some i => { code := i + sb s, nonfin := true }
      | _, _ => { code := f.maxCode + sb s, sat := true }

/-- Conversion of an integer to INT8, saturating (R187). -/
def convInt8 (i : Int) : Conv :=
  if i > 127 then { code := 127, sat := true } else if i < -128 then { code := 128, sat := true }
  else { code := (i % 256).toNat }

/-- Conversion from FP32 to INT8 (R186, R187). -/
def convF32Int8 (rnd : Rnd) (w : Word) : Conv :=
  match numOf w with
  | .nan => { code := 0, sat := true }
  | .inf s => { code := if s then 128 else 127, sat := true }
  | .fin s m e => convInt8 (signedInt s (roundAt rnd m e 0))

/-- An FP32 element written as FP32: a NaN is the canonical one (R182). -/
def convF32 (w : Word) : Conv :=
  if isNan w then { code := 0x7FC00000, nonfin := true } else { code := w.toNat, nonfin := isInf w }

/-- The smallest e with amax at most max_elem × 2^e, before clamping (R185). -/
def mxExp (f : Fmt) (m : Nat) (x : Int) : Int :=
  let (mm, me) := decodeMag f.man f.qmin f.maxCode
  let e := (bitLen m : Int) + x - ((bitLen mm : Int) + me)
  let q := min x (me + e)
  if scaleTo m x q ≤ scaleTo mm (me + e) q then e else e + 1

/-- One MX block: the scale byte and the element codes (R185). -/
def mxBlock (f : Fmt) (vs : List Word) : Nat × List Nat :=
  if vs.any (fun v => !isFinite v) then (0xFF, vs.map (fun _ => 0)) else
    let amax := vs.foldl (fun a v => if orderKey a < orderKey (fabs v) then fabs v else a) 0#32
    match numOf amax with
    | .fin _ m x =>
      if m = 0 then (0, vs.map (fun _ => 0)) else
        let e0 := mxExp f m x
        let e := if e0 < -127 then -127 else if e0 > 127 then 127 else e0
        ((e + 127).toNat, vs.map (fun v =>
          match numOf v with
          | .fin s n y =>
            let c := encodeMag .nearest f.man f.qmin n (y - e)
            (if c ≤ f.maxCode then c else f.maxCode) + b2n s * 2 ^ (f.bits - 1)
          | _ => 0))
    | _ => (0xFF, vs.map (fun _ => 0))

/-- A value times 2^(S − 127); NaN for the scale 0xFF (R184). -/
def numScale (x : Num) (scale : Nat) : Num :=
  if scale = 255 then .nan else
    match x with
    | .fin s m e => .fin s m (e + scale - 127)
    | y => y

/-- An MX element widened to FP32; exact (R188). -/
def mxWiden (f : Fmt) (code scale : Nat) : Word := f32Of (numScale (f.decode code) scale)

/-- An MXFP8 element widened to FP32: rounds below the normal range and saturates beyond the largest finite value; whether it
saturated (R189). -/
def mxfp8Widen (f : Fmt) (code scale : Nat) : Word × Bool :=
  match numScale (f.decode code) scale with
  | .nan => (f32Nan, false)
  | .inf s => (f32Inf s, false)
  | .fin s m e =>
    let w := packF .nearest s m e
    if isInf w then (word (0x7F7FFFFF + b2n s * 2 ^ 31), true) else (w, false)

/-- An MXFP8 element widened to BF16 (R189). -/
def mxfp8WidenBf16 (f : Fmt) (code scale : Nat) : Nat × Bool :=
  match numScale (f.decode code) scale with
  | .nan => (0x7FC0, false)
  | .inf s => (0x7F80 + b2n s * 2 ^ 15, false)
  | .fin s m e =>
    let c := encodeMag .nearest 7 (-133) m e
    if c ≤ 0x7F7F then (c + b2n s * 2 ^ 15, false) else (0x7F7F + b2n s * 2 ^ 15, true)

/-- Element codes of w bits packed in ascending order at ascending bit positions (R183). -/
def packBits (w : Nat) : List Nat → Nat
  | [] => 0
  | c :: cs => c % 2 ^ w + 2 ^ w * packBits w cs

/-- The n elements of w bits packed in v. -/
def unpackBits (w : Nat) : Nat → Nat → List Nat
  | _, 0 => []
  | v, n + 1 => v % 2 ^ w :: unpackBits w (v / 2 ^ w) n

/-- The bytes of elements in device memory (R183). -/
def packBytes (w : Nat) (cs : List Nat) : List Byte := leBytes (ceilDiv (w * cs.length) 8) (packBits w cs)

/-- One round of Philox-4x32 (R177). -/
def philoxRound (k0 k1 : Nat) : Nat × Nat × Nat × Nat → Nat × Nat × Nat × Nat
  | (c0, c1, c2, c3) =>
    let p0 := 0xD2511F53 * c0
    let p1 := 0xCD9E8D57 * c2
    ((p1 / 2 ^ 32 ^^^ c1) ^^^ k0, p1 % 2 ^ 32, (p0 / 2 ^ 32 ^^^ c3) ^^^ k1, p0 % 2 ^ 32)

/-- n rounds with the key schedule. -/
def philoxRounds : Nat → Nat → Nat → Nat × Nat × Nat × Nat → Nat × Nat × Nat × Nat
  | 0, _, _, c => c
  | n + 1, k0, k1, c =>
    philoxRounds n ((k0 + 0x9E3779B9) % 2 ^ 32) ((k1 + 0xBB67AE85) % 2 ^ 32) (philoxRound k0 k1 c)

/-- The four words of the Philox-4x32-10 block of a key and a counter, words from the least significant (R177, R191). -/
def philox (k0 k1 : Nat) (c : Nat × Nat × Nat × Nat) : Nat × Nat × Nat × Nat := philoxRounds 10 k0 k1 c

end Sys2Proof.Machine
end

