-- ==== Sys2Proof/Machine/SbOps.lean ====
section
/-!
DEFINITION. The turn of the Switchback (R362 to R379): its failure, and its progress from stage to stage. Where a kept record's bytes
lie in the turn's transfer, with its digest behind them, is the model's choice (log 17).
-/
namespace Sys2Proof.Machine

def SegRec.elemBytes (r : SegRec) : Nat := r.elems * elemBits r.fmt / 8
def SegRec.scaleBytes (r : SegRec) : Nat := if isMx r.fmt then r.elems / 32 else 0
def SegRec.bytes (r : SegRec) : Nat := r.elemBytes + r.scaleBytes
/-- Room of a record in the transfer: its bytes and its digest, rounded up to the 4 bytes of a frame's length (log 17). -/
def SegRec.stride (r : SegRec) : Nat := ceilDiv (r.bytes + 32) 4 * 4

/-- The records that this rank sends, and those it receives (R365). -/
def Pair.sends (p : Pair) : List SegRec := p.recs.filter (fun r => r.srcRank == p.me)
def Pair.receives (p : Pair) : List SegRec := p.recs.filter (fun r => r.slice == p.me % p.qslice)
def Pair.standby (p : Pair) : Nat := if p.active = 0 then p.bank1 else p.bank0
def Pair.setStandby (p : Pair) (st : Nat) : Pair := if p.active = 0 then { p with st1 := st } else { p with st0 := st }
def Pair.activeState (p : Pair) : Nat := if p.active = 0 then p.st0 else p.st1
/-- The ranks that a record is sent to (R365). -/
def Pair.dests (p : Pair) (r : SegRec) : List Nat := (List.range (p.nranks / p.qslice)).map (fun j => j * p.qslice + r.slice)

/-- The start of an object's bytes in the unified range. -/
def State.objBase (s : State) (o : Nat) : Nat :=
  match s.obj? o with
  | some x => x.ubase
  | none => 0

/-- n FP32 words of a byte string. -/
def f32List : Nat → List Byte → List Word
  | 0, _ => []
  | n + 1, bs => word (leNat (bs.take 4)) :: f32List n (bs.drop 4)

/-- Groups of n. -/
def chunks (n : Nat) : Nat → List α → List (List α)
  | 0, _ => []
  | f + 1, l => if l.isEmpty then [] else l.take n :: chunks n f (l.drop n)

/-- FP32 values converted to a format: element bytes followed by scale bytes (R183, R185, R186, R366). -/
def convertSeg (fmt : Nat) (vs : List Word) : List Byte :=
  if isMx fmt then
    let bs := (chunks 32 (vs.length / 32 + 1) vs).map (mxBlock (fmtOfCode fmt))
    packBytes (elemBits fmt) (bs.map (fun b => b.2)).flatten ++ bs.map (fun b => byte b.1)
  else packBytes (elemBits fmt) (vs.map (fun v => (convFmt (fmtOfCode fmt) .nearest false v).code))

/-- A segment as its receiver holds it in the bank. -/
def State.segInBank (s : State) (p : Pair) (r : SegRec) : List Byte :=
  let b := s.objBase p.standby
  s.devBytes (b + r.dstOff) r.elemBytes ++ s.devBytes (b + r.scaleOff) r.scaleBytes

/-- Writes bytes of a segment from its byte `at` into the standby bank (R365). -/
def State.writeSeg (s : State) (p : Pair) (r : SegRec) (start : Nat) (bs : List Byte) : State :=
  let b := s.objBase p.standby
  let e := bs.take (r.elemBytes - start)
  let sc := (bs.drop (r.elemBytes - start)).take (r.bytes - max start r.elemBytes)
  let s1 := if e.isEmpty then s else s.devWrite (b + r.dstOff + start) e
  if sc.isEmpty then s1 else s1.devWrite (b + r.scaleOff + (max start r.elemBytes - r.elemBytes)) sc

/-- A turn ends without a flip: the standby bank is INVALID with undefined contents, the phase is LEARN again, and the SWITCHBACK completes
(R376). -/
def State.endTurn (s : State) (c : Nat) (st : Byte) (rank stage : Nat) : State :=
  match (s.ctx c).pair with
  | none => s
  | some p =>
    match p.turn with
    | none => s
    | some t =>
      let s1 := s.modCtx c (fun x => { x with
        pair := some { p.setStandby 0 with phase := 1, turn := none }
        sb := { x.sb with lastCause := st, failRank := rank, failed := x.sb.failed + 1#32 } })
      let n := ((s.obj? p.standby).map (fun o => o.size)).getD 0
      ((s1.devWrite (s.objBase p.standby) (s.freeBytes n)).bump).endDesc c t.ring t.pos { status := st, result := dword (rank + stage * 2 ^ 16) }

/-- A turn fails on this rank in stages 1 to 5; ABORT goes to every other rank of the group (R376, R377). -/
def State.turnFail (s : State) (c : Nat) (st : Byte) (rank : Nat) : State :=
  match (s.ctx c).pair with
  | none => s
  | some p =>
    match p.turn with
    | none => s
    | some t =>
      if 5 < t.stage then s else
        let s1 := (otherRanks p.ranks p.me).foldl (fun s r => s.sendCtrl c r.2 p.group t.seq (.sbAbort p.me st t.stage)) s
        s1.endTurn c st rank t.stage

/-- Changes the turn in progress. -/
def State.modTurn (s : State) (c : Nat) (f : Pair → Turn → Pair × Turn) : State :=
  s.modCtx c (fun x =>
    match x.pair with
    | some p => (match p.turn with
      | some t => (match f p t with
        | (p', t') => { x with pair := some { p' with turn := some t' } })
      | none => x)
    | none => x)

/-- The chunk buffer of a Switchback engine: 4 MiB (R372). -/
def sbChunk : Nat := 2 ^ 22

/-- Sends one chunk of a record, from its byte `start` on, to a destination; this rank's own goes into its standby bank (R371, R372). -/
def State.sendChunk (s : State) (c : Nat) (p : Pair) (t : Turn) (r : SegRec) (start : Nat) (bs : List Byte) (d : Nat) : State :=
  if d = p.me then
    let e := bs.take (r.bytes - start)
    let whole := decide (r.bytes + 32 ≤ start + bs.length)
    (s.writeSeg p r start e).modTurn c (fun p t => (p, { t with
      bytes := t.bytes + bs.length + (if whole then r.stride - (r.bytes + 32) else 0)
      arrived := t.arrived.writeN (r.base + max start r.bytes) (bs.drop e.length)
      written := t.written + e.length }))
  else s.sendData c (p.ranks.getD d 0) 3 p.group t.seq (r.base + start) bs

/-- Reads, converts and sends one record with its digest behind it: a chunk of 4 MiB goes to every destination before the next one (R371
stage 3, R372, R373); at false a master line was poisoned and nothing is sent. -/
def State.sendSeg (s : State) (c : Nat) (p : Pair) (t : Turn) (r : SegRec) : State × Bool :=
  let a := s.objBase r.srcObj + r.srcOff
  let g := s.devRead a (4 * r.elems)
  if g.stop.isSome then (s.reach a (4 * r.elems), false) else
    let bs := convertSeg r.fmt (f32List r.elems g.data)
    (((chunks sbChunk ((r.bytes + 32) / sbChunk + 1) (bs ++ sha256 bs)).zipIdx).foldl (fun s x =>
      (p.dests r).foldl (fun s d => s.sendChunk c p t r (sbChunk * x.2) x.1 d) s) s, true)

/-- Sends every record of this rank, up to one that cannot be read. -/
def State.sendSegs (c : Nat) (p : Pair) (t : Turn) : List SegRec → State → State × Bool
  | [], s => (s, true)
  | r :: rs, s => match s.sendSeg c p t r with
    | (s', true) => State.sendSegs c p t rs s'
    | (s', false) => (s', false)

/-- Transfer bytes this rank receives in a turn. -/
def Pair.expected (p : Pair) : Nat := (p.receives.map SegRec.stride).sum

/-- Stage 3 is over: every record that this rank receives has been written, no write of the standby bank waits for a block that moves, and
no frame of the turn's data waits to leave (R229, R371). -/
def State.fillOver (s : State) (c : Nat) (p : Pair) (t : Turn) : Bool :=
  t.bytes == p.expected && (s.unsent (s.tag c) p.group t.seq).isEmpty && !s.mem.migs.any (fun m => m.obj == p.standby && !m.writes.isEmpty)

/-- The part of a payload at transfer offset `off` that lies in the region of `len` bytes from `lo`: its place in the region and
its bytes. -/
def cutRegion (off : Nat) (bs : List Byte) (lo len : Nat) : Nat × List Byte :=
  let a := max off lo
  (a - lo, (bs.drop (a - off)).take (min (off + bs.length) (lo + len) - a))

/-- The 256-byte units of a payload that a transfer has not received yet, with their places; `src` tells its senders apart (R277). -/
def newUnits (seen : List (Nat × Nat)) (src off : Nat) (bs : List Byte) : List (Nat × List Byte) :=
  (((chunks 256 (bs.length / 256 + 1) bs).zipIdx).map (fun u => (off + 256 * u.2, u.1))).filter (fun u => !seen.contains (src, u.1))

/-- Segment data of the turn from a rank is written into the standby bank (R371 stage 3). -/
def State.turnStore (s : State) (c src off : Nat) (bs : List Byte) : State :=
  match (s.ctx c).pair with
  | none => s
  | some p =>
    match p.turn with
    | none => s
    | some t =>
      let us := newUnits t.seen src off bs
      let s1 := us.foldl (fun s u =>
        p.receives.foldl (fun s r =>
          let d := cutRegion u.1 u.2 r.base r.bytes
          let g := cutRegion u.1 u.2 (r.base + r.bytes) 32
          let s1 := if d.2.isEmpty then s else s.writeSeg p r d.1 d.2
          s1.modTurn c (fun p t => (p, { t with
            arrived := t.arrived.writeN (r.base + r.bytes + g.1) g.2, written := t.written + d.2.length }))) s) s
      s1.modTurn c (fun p t => (p, { t with
        seen := t.seen ++ us.map (fun u => (src, u.1)), bytes := t.bytes + (us.map (fun u => u.2.length)).sum }))

/-- Stage 1 or 2 of the turn ends where its condition holds, and stage 3 does its sends (R371). -/
def State.turnProgress (s : State) (c : Nat) : State :=
  match (s.ctx c).pair with
  | none => s
  | some p =>
    match p.turn with
    | none => s
    | some t =>
      if t.agrees.any (fun a => a.step != t.step || a.digest != p.mapDigest) then
        s.turnFail c stState p.me
      else if (otherRanks p.ranks p.me).any (fun r => !t.agrees.any (fun a => a.rank == r.1)) then s
      else if 3 ≤ t.stage ∧ t.sent then
        if t.stage = 3 ∧ s.fillOver c p t then s.modTurn c (fun p t => (p, { t with stage := 4 })) else s
      else if !(s.ctx c).allDone t.quiesce then s.modTurn c (fun p t => (p, { t with stage := 2 }))
      else
        let s1 := s.modTurn c (fun p t => (p.setStandby 2, { t with stage := 3 }))
        match State.sendSegs c p t p.sends s1 with
        | (s2, false) => s2.turnFail c stPoison p.me
        | (s2, true) =>
          let s3 := t.early.foldl (fun (s : State) x => s.turnStore c x.1 x.2.1 x.2.2) s2
          let s4 := s3.modTurn c (fun p t => (p, { t with sent := true, early := [] }))
          s4.modTurn c (fun p t => (p, if s4.fillOver c p t then { t with stage := 4 } else t))

/-- Segment data of the turn arrives from a rank; before stage 3 it waits, since the standby bank is not FILLING yet (R371). -/
def State.turnData (s : State) (c src off : Nat) (bs : List Byte) : State :=
  match (s.ctx c).pair.bind (fun p => p.turn) with
  | none => s
  | some t =>
    if t.stage < 3 then s.modTurn c (fun p t => (p, { t with early := t.early ++ [(src, off, bs)] }))
    else (s.turnStore c src off bs).turnProgress c

/-- A byte string as one number, byte 0 lowest. -/
def digest256 (bs : List Byte) : BitVec 256 := BitVec.ofNat 256 (leNat bs)
def digestBytes (d : BitVec 256) : List Byte := leBytes 32 d.toNat

/-- Of the digests of a slice's ranks in rank order, the one most ranks hold, ties to the lowest rank's (R373). -/
def commonest (ds : List (Nat × BitVec 256)) : Option (BitVec 256) :=
  (ds.foldl (fun best d =>
    let n := (ds.filter (fun e => e.2 == d.2)).length
    match best with
    | some (m, x) => if m < n then some (n, d.2) else some (m, x)
    | none => some (n, d.2)) none).map (fun b => b.2)

/-- The ranks whose slice digest differs from their slice's reference, ascending (R373). -/
def Pair.oddRanks (p : Pair) (cs : List (Nat × BitVec 256)) : List Nat :=
  (List.range p.nranks).filter (fun r =>
    let slice := ((List.range p.nranks).filter (fun q => q % p.qslice == r % p.qslice)).filterMap (fun q => List.find? (fun c => c.1 == q) cs)
    match commonest slice, List.find? (fun c => c.1 == r) cs with
    | some ref, some mine => ref != mine.2
    | _, _ => false)

/-- Stage 5 ends once every rank's confirmation is held; the flip then waits for the SERVE_STEPs and EXECs in flight (R371, R373, R374). -/
def State.turnConfirm (s : State) (c : Nat) : State :=
  match (s.ctx c).pair with
  | none => s
  | some p =>
    match p.turn with
    | none => s
    | some t =>
      if t.stage ≠ 5 ∨ (List.range p.nranks).any (fun r => !t.confirms.any (fun a => a.1 == r)) then s
      else match p.oddRanks t.confirms with
        | r :: _ => s.turnFail c stCheck r
        | [] =>
          let waits := (s.ctx c).startsOf (fun d => d.opcode == 9 || d.opcode == 3)
          s.modTurn c (fun p t => (p, { t with stage := 6, flipWaits := some waits }))

end Sys2Proof.Machine
end

