-- ==== Sys2Proof/Machine/MileOps.lean ====
section
/-!
DEFINITION. The Milepost (R387 to R397, R415): failing a step, leaving the job, and the step record (R360).
-/
namespace Sys2Proof.Machine

/-- RESULT of every MILEPOST (R389). -/
def mileResult (m : Mile) : DWord := dword (m.attempt.toNat * 2 ^ 32 + m.failRank % 4096 * 2 ^ 8 + m.cause.toNat)

def State.modMile (s : State) (c : Nat) (f : Mile → Mile) : State := s.modCtx c (fun x => { x with mile := f x.mile })

/-- The module keeps the outcomes of the last 64 steps it has opened (R415). -/
def Mile.setOutcome (m : Mile) (o : StepOut) : Mile :=
  { m with outcomes := (o :: m.outcomes.filter (fun x => x.step != o.step)).take 64 }

/-- A step goes on to another outcome; CAUSE and the failing rank stay those of its last failure (R415). -/
def Mile.keepOutcome (m : Mile) (step : DWord) (outcome : Nat) (attempt : Word) : Mile :=
  let o := m.outcomes.find? (fun x => x.step == step)
  m.setOutcome ⟨step, outcome, o.elim 0#8 (fun x => x.cause), attempt, o.elim 65535 (fun x => x.failRank)⟩

def Mile.step (m : Mile) : DWord := m.last + 1#64

/-- Trigger entries that have fired in the step. -/
def Ctx.fired (x : Ctx) : Nat := (x.trig.filter (fun e => e.fired)).length

/-- The wait of a QSEND for its credit so far, in µs, from its start or from its trigger (R276, R283). -/
def Desc.waitUs (d : Desc) (r : CollRun) (now : DWord) : Nat :=
  if r.op = 7 ∧ r.armed.isNone ∧ !r.final ∧ d.ending.isNone then (now - r.since.getD d.time).toNat / 1000 else 0

/-- CTX_QSTALL_q: the waits of the QSENDs of the queue that have ended and of those that still wait (R283). -/
def Ctx.stallOf (x : Ctx) (now : DWord) (queue : Nat) : DWord :=
  x.descs.foldl (fun n d =>
    match d.work with
    | .coll r => if r.group = queue then n + dword (d.waitUs r now) else n
    | _ => n) (x.queues.get {} queue).stallUs

/-- Credit waits of each queue in the open step, in µs (R360). -/
def Ctx.stalls (x : Ctx) (now : DWord) : List (Nat × Nat) := x.queues.map (fun q => (q.1, (x.stallOf now q.1 - q.2.openUs).toNat))

/-- The queue with the longest wait, ties to the lowest; none if none waited. -/
def longest (l : List (Nat × Nat)) : Option (Nat × Nat) :=
  l.foldl (fun best q => if q.2 = 0 then best else
    match best with
    | some b => if b.2 < q.2 then some q else some b
    | none => some q) none

/-- The 64 bytes of a step record (R360). -/
def State.stepRecord (s : State) (c outcome : Nat) (g2 clip : Word) : List Byte :=
  let x := s.ctx c
  let m := x.mile
  let us := fun (t : DWord) => (t - m.tOpen).toNat / 1000
  let waits := x.stalls s.time
  let lw := longest waits
  leBytes 8 m.step.toNat ++ leBytes 1 outcome ++ leBytes 1 (fld (s.reg (rTrigCfg c)) 30 2) ++ leBytes 2 x.fired ++
    leBytes 4 m.attempt.toNat ++ leBytes 8 m.tOpen.toNat ++
    leBytes 4 (match m.tLastFire with
      | some t => us t
      | none => 0xFFFFFFFF) ++
    leBytes 4 (us s.time) ++ leBytes 4 g2.toNat ++ leBytes 4 clip.toNat ++ leBytes 4 ((waits.map (fun q => q.2)).sum) ++
    leBytes 2 (match lw with
      | some q => q.1
      | none => 0xFFFF) ++ leBytes 2 0 ++
    leBytes 4 (match lw with
      | some q => q.2
      | none => 0) ++
    leBytes 4 (x.staleDrop - m.staleAtOpen).toNat ++ leBytes 8 0

/-- Writes the step record of a step that commits or fails (R360). -/
def State.writeStepRecord (s : State) (c outcome : Nat) (g2 clip : Word) : State :=
  let cfg := s.reg (rRecCfg c)
  if !bitOf cfg 31 then s else
    let n := 2 ^ (min (fld cfg 0 4) 10 + 6)
    let k := (s.ctx c).mile.recs.toNat
    (s.writeRef c (s.reg (rRecBase c)) (64 * (k % n)) (s.stepRecord c outcome g2 clip)).modMile c (fun m => { m with recs := m.recs + 1#32 })

def State.modQueue (s : State) (c queue : Nat) (f : QueueSt → QueueSt) : State :=
  s.modCtx c (fun x => match x.queues.find? queue with
    | some q => { x with queues := x.queues.set queue (f q) }
    | none => x)

/-- The wait of a QSEND for its credit has ended: its queue and the module count it (R276, R283). -/
def State.noteStall (s : State) (c : Nat) (d : Desc) (r : CollRun) : State :=
  let us := d.waitUs r s.time
  if us = 0 then s else (s.modQueue c r.group (fun q => { q with stallUs := q.stallUs + dword us })).countMod 11 us

/-- Ends every started COLLECTIVE of the context whose work satisfies p, one whose host transfer waits too (R113, R346, R388, R396). -/
def State.endColls (s : State) (c : Nat) (st : Byte) (p : Desc → CollRun → Bool) : State :=
  (s.ctx c).descs.foldl (fun s d =>
    match d.work with
    | .coll r => if p d r then (s.noteStall c d r).endDesc c d.ring d.pos { status := st, result := dword r.written } else s
    | _ => s) s

/-- Every MILEPOST COMMIT in flight ends. -/
def State.endCommits (s : State) (c : Nat) (e : Ending) : State :=
  (s.ctx c).descs.foldl (fun s d =>
    match d.work with
    | .commit => s.endDesc c d.ring d.pos e
    | _ => s) s

/-- FAIL goes to every other rank of the commit group (R394). -/
def State.sendFail (s : State) (c : Nat) (cause : Byte) : State :=
  let m := (s.ctx c).mile
  (otherRanks m.ranks m.me).foldl (fun s r => s.sendCtrl c r.2 m.group 0 (.failFrame m.step m.attempt cause m.me)) s

/-- The open step fails on this rank with a cause and the first failing rank: `own` if its own local failure started it, `st` the
status of a COMMIT in flight (R392 to R396). -/
def State.failStep (s : State) (c : Nat) (cause : Byte) (rank : Nat) (own : Bool) (st : Byte) : State :=
  let m := (s.ctx c).mile
  if m.state ≠ 2 ∧ m.state ≠ 3 ∧ m.state ≠ 5 then s else
    let s0 := if own then s.sendFail c cause else s
    let s1 := s0.modMile c (fun m => { m with
      cause := cause
      failRank := rank
      ownFail := own
      failedStep := m.step })
    let s2 := (s1.endColls c stRepeat (fun d r => decide (7 ≤ r.op) || (match d.start with
      | some n => decide (m.openStart ≤ n)
      | none => false))).writeStepRecord c 3 0#32 0#32
    let s3 := s2.endCommits c { status := st, result := mileResult (s2.ctx c).mile }
    s3.modMile c (fun m => { (m.setOutcome ⟨m.step, 3, cause, m.attempt, rank⟩) with
      state := 4
      expected := m.attempt + 1#32
      commit := none
      replicaIn := []
      shadowIn := none
      contribs := []
      blockSeen := [] })

/-- A local failure while the step is OPEN, or COMMITTING before this rank has contributed (R391, R392, R394). -/
def State.localFail (s : State) (c : Nat) (cause : Byte) : State :=
  let m := (s.ctx c).mile
  if m.state = 2 ∨ (m.state = 3 ∧ (m.commit.any (fun r => !r.contributed))) then s.failStep c cause m.me true stCheck else s

/-- The module leaves the job: every MILEPOST, SHADOW_CTL, SWITCHBACK and COLLECTIVE in flight ends with EXPELLED and it sends no further
frame with the context's tag, but for the ABORT of a turn (R376, R388; log 117). -/
def State.expel (s : State) (c : Nat) : State :=
  let tag := s.tag c
  let keep := fun (f : Frame) => hdrTag f.hdr != tag || hdrSrc f.hdr != s.moduleAddr || tag == 0
  let s0 := { s with fabric := { s.fabric with
    waiting := s.fabric.waiting.filter keep
    ports := s.fabric.ports.map (fun (p : Nat × Port) => (p.1, { p.2 with queued := p.2.queued.filter keep })) } }
  let s1 := s0.turnFail c stExpelled ((s.ctx c).pair.elim 0 (fun p => p.me))
  let s2 := s1.endTurn c stExpelled ((s.ctx c).pair.elim 0 (fun p => p.me)) 6
  let s3 := s2.endColls c stExpelled (fun _ _ => true)
  let s4 := (s3.ctx c).descs.foldl (fun s d =>
    match d.work with
    | .fill _ => s.endDesc c d.ring d.pos (endWith stExpelled)
    | .hostWait => if d.opcode == 0x0C || d.opcode == 0x0D || d.opcode == 0x0E then s.endDesc c d.ring d.pos (endWith stExpelled) else s
    | .commit => s.endDesc c d.ring d.pos { status := stExpelled, result := mileResult (s.ctx c).mile }
    | .flipWait _ _ => s.endDesc c d.ring d.pos (endWith stExpelled)
    | _ => s) s3
  s4.modMile c (fun m => { m with state := 6, commit := none })

end Sys2Proof.Machine
end

