-- ==== Sys2Proof/Machine/CollOps.lean ====
section
/-!
DEFINITION. COLLECTIVEs in progress (R272 to R280, R282, R347, R398): what a rank sends once READY frames match, what it does with the
data that arrives, and when it is done. The spec gives no wire layout of a transfer; the model's is log 18: in a reduction an
element's place is 4 times its index in the whole vector of V elements; a final shard for the buddy lies 4V higher; in the gather
of an ALL_REDUCE an element lies at 8V plus its place in DST.
-/
namespace Sys2Proof.Machine

def dtSize (dt : Nat) : Nat := if dt = 0 then 4 else if dt = 1 then 2 else 1

def CollRun.n (r : CollRun) : Nat := r.ranks.length
def CollRun.succ (r : CollRun) : Nat := (r.me + 1) % r.n
def CollRun.pred (r : CollRun) : Nat := (r.me + r.n - 1) % r.n
def CollRun.others (r : CollRun) : List Nat := (List.range r.n).filter (fun k => k != r.me)
/-- The elements of shard k: first and count; an ALL_REDUCE is cut in equal parts, the last ones shorter (log 18). -/
def CollRun.shard (r : CollRun) (k : Nat) : Nat × Nat :=
  if r.op = 1 then (k * r.count, r.count) else
    let per := ceilDiv r.count (atLeast1 r.n)
    (min (k * per) r.count, min per (r.count - k * per))
/-- V: elements of the whole vector of a reduction. -/
def CollRun.vec (r : CollRun) : Nat := if r.op = 1 then r.n * r.count else r.count
def CollRun.isReduction (r : CollRun) : Bool := r.op == 1 || r.op == 3
def CollRun.outSize (r : CollRun) : Nat := if r.isReduction then dtSize r.dtOut else dtSize r.dtIn
def CollRun.vc (r : CollRun) : Nat := if r.op = 7 ∨ r.op = 8 then 2 else if r.bulk then 3 else 1

/-- Elements as FP32: an FP32 word, or a BF16 code widened exactly, a NaN to the canonical one (R182, R188, R274). -/
def wideElems (dt : Nat) (bs : List Byte) : List Word :=
  if dt = 0 then f32List (bs.length / 4) bs else (halves (bs.length / 2) bs).map (fun h => f32Of (fmtBf16.decode h))
/-- FP32 sums as output elements (R182, R186, R274). -/
def outElems (dt : Nat) (ws : List Word) : List Byte :=
  (ws.map (fun w => if dt = 0 then leBytes 4 (canonNan w).toNat else leBytes 2 (convFmt fmtBf16 .nearest false w).code)).flatten
/-- FP32 words as they travel. -/
def wireElems (ws : List Word) : List Byte := (ws.map (fun w => leBytes 4 w.toNat)).flatten

/-- The COLLECTIVE of a descriptor. -/
def State.coll? (s : State) (c q p : Nat) : Option (Desc × CollRun) :=
  match (s.ctx c).find q p with
  | some d => (match d.work with
    | .coll r => some (d, r)
    | _ => none)
  | none => none

/-- Changes a COLLECTIVE in progress. -/
def State.modColl (s : State) (c q p : Nat) (f : CollRun → CollRun) : State :=
  match s.coll? c q p with
  | some (d, r) => s.setWork c d (.coll (f r))
  | none => s

/-- This rank's contribution: elements e to e + n - 1 of the vector. -/
def State.ownElems (s : State) (c : Nat) (r : CollRun) (e n : Nat) : Got :=
  s.readHeld c r.src.toNat (e * dtSize r.dtIn) (n * dtSize r.dtIn)

/-- Ends a COLLECTIVE with the bytes it has written. -/
def State.endColl (s : State) (c q p : Nat) (st : Byte) (unit : Half) : State :=
  match s.coll? c q p with
  | some (d, r) => (s.noteStall c d r).endDesc c q p { status := st, unit := unit, result := dword r.written }
  | none => s

/-- Bytes with others laid over them from a place on. -/
def overlay (l : List Byte) (off : Nat) (bs : List Byte) : List Byte := l.take off ++ bs ++ l.drop (off + bs.length)

/-- Writes bytes at a place of DST; a failure ends the COLLECTIVE (R105). -/
def State.putDst (s : State) (c q p off : Nat) (bs : List Byte) : State :=
  match s.coll? c q p with
  | none => s
  | some (_, r) =>
    match s.writeHeld c r.dst.toNat off bs with
    | (s', some (st, k)) => (s'.modColl c q p (fun r => { r with written := r.written + k })).endColl c q p st 65535#16
    | (s', none) => s'.modColl c q p (fun r => { r with
        written := r.written + bs.length
        image := if r.image.isEmpty || r.src != r.dst then r.image else overlay r.image off bs })

/-- Sends a rank bytes of the transfer, or keeps them until its READY matches (R273). -/
def State.sendTo (s : State) (c q p rank off : Nat) (bs : List Byte) : State :=
  match s.coll? c q p with
  | none => s
  | some (_, r) =>
    if r.ready.contains rank then s.sendData c (r.ranks.getD rank 0) r.vc r.group r.seq off bs
    else s.modColl c q p (fun r => { r with out := r.out ++ [(rank, off, bs)] })

/-- Bytes of DST that a COLLECTIVE gives (R272). -/
def CollRun.dstBytes (r : CollRun) : Nat :=
  match r.op with
  | 2 => r.n * r.count * r.outSize
  | 5 | 7 | 8 => 0
  | _ => r.count * r.outSize

/-- A COLLECTIVE that meets an integrity failure ends with CHECK and the arriving port; its partial output is undefined (R280). -/
def State.endCheck (s : State) (c q p : Nat) (unit : Half) : State :=
  match s.coll? c q p with
  | none => s
  | some (_, r) => ((s.writeHeld c r.dst.toNat 0 (s.freeBytes r.dstBytes)).1.bump).endColl c q p stCheck unit

/-- Own bytes that stop before the end: what comes before is written to DST from byte `off` on, the lines of a device destination that `n`
more bytes would fill receive poison, a host destination a poisoned TLP, and the COLLECTIVE ends (R105, R246). -/
def State.putStopped (s : State) (c q p off n : Nat) (bs : List Byte) (st : Byte) : State :=
  match s.coll? c q p with
  | none => s
  | some (_, r) =>
    let s1 := s.putDst c q p off bs
    let s2 := if st = stPoison then s1.carryPoison ((s1.resolveHeld c r.dst.toNat).plus (off + bs.length)) n else s1
    s2.endColl c q p st 65535#16

/-- Whether this rank keeps the shard it delivers: a REDUCE_SCATTER on the shadow group while a step is open (R398). -/
def State.keeps (s : State) (c : Nat) (r : CollRun) : Option Nat :=
  let m := (s.ctx c).mile
  match m.setup with
  | some u => if r.op = 1 ∧ u.shadowGroup = r.group ∧ (m.state = 2 ∨ m.state = 3) then some u.keepObj else none
  | none => none

/-- Writes the successor's final shard from its element k on into KEEP_OBJ, at this rank's own offset of DST (R398); a READ_ONLY one ends
the COLLECTIVE with AUTH (R226). -/
def State.keepShard (s : State) (c q p k : Nat) (ws : List Word) : State :=
  match s.coll? c q p with
  | none => s
  | some (_, r) =>
    match s.keeps c r with
    | none => s
    | some o =>
      if (s.obj? o).any (fun x => x.readOnly) then s.endColl c q p stAuth 65535#16
      else s.devWrite (s.objBase o + refOff r.dst.toNat + k * r.outSize) (outElems r.dtOut ws)

/-- This rank's shard of an ALL_REDUCE goes to a rank that is ready (R274). -/
def State.sendGather (s : State) (c q p : Nat) : State :=
  match s.coll? c q p with
  | none => s
  | some (_, r) =>
    if r.op ≠ 3 ∨ !r.final then s else
      let sh := r.shard r.me
      let g := s.readHeld c r.dst.toNat (sh.1 * r.outSize) (sh.2 * r.outSize)
      let dest := r.others.filter (fun k => r.ready.contains k && !r.sentG.contains k)
      if !dest.isEmpty ∧ g.stop.isSome then (s.reachHeld c r.dst.toNat (sh.1 * r.outSize) (sh.2 * r.outSize)).endColl c q p (g.stop.getD stPoison) 65535#16 else
      (dest.foldl (fun s k => s.sendData c (r.ranks.getD k 0) r.vc r.group r.seq (8 * r.vec + sh.1 * r.outSize) g.data) s).modColl c q p
        (fun r => { r with sentG := r.sentG ++ dest })

/-- Elements of this rank's own shard in their final form, from element e of the vector on; an entry's norm is taken of what is delivered
(R347). -/
def State.finalElems (s : State) (c q p e : Nat) (ws : List Word) : State :=
  match s.coll? c q p with
  | none => s
  | some (_, r) =>
    let i := if r.op = 1 then e - r.me * r.count else e
    let out := outElems r.dtOut ws
    let s1 := if r.op = 1 ∧ r.entry.isSome then s.modColl c q p (fun r => { r with
      delivered := (wideElems r.dtOut out).zipIdx.foldl (fun (t : Tab Word) x => t.set (i + x.2) x.1) r.delivered }) else s
    s1.putDst c q p (i * r.outSize) out

/-- Sums that this rank forms for another rank's shard go on round the ring; those that the successor receives as final are kept
(R274, R398). -/
def State.passOn (s : State) (c q p e : Nat) (ws : List Word) : State :=
  match s.coll? c q p with
  | none => s
  | some (_, r) =>
    let sh := r.shard r.succ
    let s1 := if sh.1 ≤ e ∧ e < sh.1 + sh.2 then s.keepShard c q p (e - sh.1) ws else s
    s1.sendTo c q p r.succ (4 * e) (wireElems ws)

/-- Bytes expected from rank k (R272, R274, R275). -/
def CollRun.need (r : CollRun) (k : Nat) : Nat :=
  if k = r.me then 0 else
  match r.op with
  | 1 => if r.arrival then 4 * (r.shard r.me).2 + (if k = r.succ then 4 * (r.shard r.succ).2 else 0) else if k = r.pred then 4 * r.vec else 0
  | 2 => r.count * r.outSize
  | 3 => (r.shard k).2 * r.outSize + (if r.arrival then 4 * (r.shard r.me).2 + (if k = r.succ then 4 * (r.shard r.succ).2 else 0)
      else if k = r.pred then 4 * r.vec else 0)
  | 4 => if r.me ≠ r.peer ∧ k = r.peer then r.count * r.outSize else 0
  | 6 => if k = r.peer then r.count * r.outSize else 0
  | _ => 0

/-- Ranks that this rank serves once their READY matches. -/
def CollRun.serves (r : CollRun) : List Nat :=
  match r.op with
  | 1 => if r.arrival then r.others else r.others.filter (fun k => k == r.succ)
  | 2 => r.others
  | 3 => r.others
  | 4 => if r.me = r.peer then r.others else []
  | 5 => r.others.filter (fun k => k == r.peer)
  | _ => []

/-- Ranks that this rank sends READY to: those it receives from (R273). -/
def CollRun.askers (r : CollRun) : List Nat := r.others.filter (fun k => r.op == 3 || decide (0 < r.need k))

/-- Every element of an arrival-order reduction has come: own shard final, written, and sent to the buddy (R275). -/
def State.arrivalDone (s : State) (c q p : Nat) : State :=
  match s.coll? c q p with
  | none => s
  | some (_, r) =>
    let sh := r.shard r.me
    let partials := 4 * sh.2
    if !r.arrival ∨ r.final ∨ r.others.any (fun k =>
        decide (((r.seen.filter (fun u => u.1 == k && decide (u.2 < 4 * r.vec))).map (fun u => min 256 (4 * (sh.1 + sh.2) - u.2))).sum < partials))
    then s else
      let own := s.ownElems c r sh.1 sh.2
      if own.stop.isSome then (s.reachHeld c r.src.toNat (sh.1 * dtSize r.dtIn) (sh.2 * dtSize r.dtIn)).endColl c q p (own.stop.getD stPoison) 65535#16 else
      let ws := (List.range sh.2).map (fun i => match r.sums.find? i with
        | some w => w
        | none => (wideElems r.dtIn own.data).getD i 0#32)
      let s1 := (s.finalElems c q p sh.1 ws).modColl c q p (fun r => { r with final := true })
      if r.n = 1 then s1.keepShard c q p 0 ws else s1.sendTo c q p r.pred (4 * r.vec + 4 * sh.1) (wireElems ws)

/-- What a rank sends another at once when its READY matches (R273 to R275). -/
def State.serve (s : State) (c q p rank : Nat) : State :=
  match s.coll? c q p with
  | none => s
  | some (_, r) =>
    if r.sent.contains rank ∨ !r.serves.contains rank then s else
      let s0 := s.modColl c q p (fun r => { r with sent := r.sent ++ [rank] })
      let fail := fun (g : Got) (e n : Nat) =>
        (s0.reachHeld c r.src.toNat (e * dtSize r.dtIn) (n * dtSize r.dtIn)).endColl c q p (g.stop.getD stPoison) 65535#16
      if r.isReduction then
        if !r.arrival ∧ rank ≠ r.succ then s0 else
        let sh := if r.arrival then r.shard rank else r.shard r.me
        let g := s.ownElems c r sh.1 sh.2
        if g.stop.isSome then fail g sh.1 sh.2 else s0.sendTo c q p rank (4 * sh.1) (wireElems (wideElems r.dtIn g.data))
      else
        let g := s.ownElems c r 0 r.count
        if g.stop.isSome then fail g 0 r.count else
          s0.sendTo c q p rank (if r.op = 2 then r.me * r.count * r.outSize else 0) g.data

/-- The squared norm of a shard (R347): groups of 262,144, each and their sums added in ascending order; non-finite elements add
nothing and are counted. -/
def shardNorm (ws : List Word) : Word × Nat :=
  let gs := (chunks 262144 (ws.length / 262144 + 1) ws).map (fun g => g.foldl (fun a w => if isFinite w then fadd a (fmul w w) else a) 0#32)
  (gs.foldl fadd 0#32, (ws.filter (fun w => !isFinite w)).length)

/-- The norm record's SHARD_SQ and NONFINITE when an entry's REDUCE_SCATTER completes, from the shard it has delivered (R347, R348), and the
status of a write that fails (R226). -/
def State.writeNorm (s : State) (c : Nat) (r : CollRun) : State × Option Byte :=
  match r.entry with
  | none => (s, none)
  | some i =>
    if r.op ≠ 1 ∨ !((s.ctx c).trig[i]?.any (fun e => e.norm)) then (s, none) else
      let v := shardNorm ((List.range r.count).map (fun k => r.delivered.get 0#32 k))
      let bs := leBytes 4 v.1.toNat ++ leBytes 4 (min v.2 0xFFFFFFFF)
      ((s.modCtx c (fun x => { x with trig := updAt x.trig i (fun e => { e with shardSq := v.1, nonfinite := min v.2 0xFFFFFFFF }) })).writeRef c
        (s.reg (rNormBase c)) (32 * i + 8) bs, s.writeRefFails c (s.reg (rNormBase c)) (32 * i + 8) bs)

/-- Whether a COLLECTIVE has received, formed and sent everything (R272, R278). -/
def State.collDone (s : State) (c : Nat) (r : CollRun) : Bool :=
  r.armed.isNone && !r.held && decide (r.op ≤ 6) && r.out.isEmpty && r.serves.all (fun k => r.sent.contains k)
    && (List.range r.n).all (fun k => r.got.get 0 k == r.need k)
    && (!(r.isReduction && (r.arrival || r.op == 3)) || r.final)
    && (r.op != 3 || r.others.all (fun k => r.sentG.contains k)) && (s.unsent (s.tag c) r.group r.seq).isEmpty

/-- Bytes of SRC that a COLLECTIVE reduces or sends (R272). -/
def CollRun.srcBytes (r : CollRun) : Nat := (if r.isReduction then r.vec else r.count) * dtSize r.dtIn

/-- A gradient buffer that others wrote while the COLLECTIVE that its entry started ran leaves the reduced gradients undefined: DST, of which
the entry's norm is taken, and the kept shard (R340). -/
def State.spoilGrads (s : State) (c : Nat) (r : CollRun) : State × CollRun :=
  if r.image.isEmpty || (s.readHeld c r.src.toNat 0 r.srcBytes).data == r.image then (s, r) else
    let bs := s.freeBytes r.dstBytes
    let s1 := ((s.writeHeld c r.dst.toNat 0 bs).1).bump
    (match s1.keeps c r with
      | some o => (s1.devWrite (s1.objBase o + refOff r.dst.toNat) (s1.freeBytes r.dstBytes)).bump
      | none => s1,
      { r with delivered := (wideElems r.dtOut bs).zipIdx.foldl (fun (t : Tab Word) x => t.set x.2 x.1) [] })

/-- A COLLECTIVE that is done completes, with the status of a norm record that could not be written (R226, R347). -/
def State.finishColl (s : State) (c : Nat) (d : Desc) (r : CollRun) : State :=
  let g := s.spoilGrads c r
  let w := g.1.writeNorm c g.2
  w.1.endDesc c d.ring d.pos { endOk r.written with status := w.2.getD stOk }

/-- A QSEND whose slot is filled is done once its frames have left (R278, R282). -/
def State.qsendDone (s : State) (c : Nat) (r : CollRun) : Bool := r.op == 7 && r.final && (s.unsentSlot (s.tag c) r.group r.seq).isEmpty

/-- Completes the COLLECTIVEs that are done. -/
def State.settleColls (s : State) (c : Nat) : State :=
  (s.ctx c).descs.foldl (fun s d =>
    match s.coll? c d.ring d.pos with
    | some (_, r) =>
      if d.ending.isSome then s
      else if s.collDone c r then s.finishColl c d r
      else if s.qsendDone c r then s.endDesc c d.ring d.pos (endOk 0)
      else s
    | none => s) s

/-- In rank order an ALL_REDUCE's own shard is final once it has come whole from the predecessor (R274). -/
def State.ringDone (s : State) (c q p : Nat) : State :=
  match s.coll? c q p with
  | none => s
  | some (_, r) =>
    if r.op = 3 ∧ !r.arrival ∧ 4 * r.vec ≤ ((r.seen.filter (fun u => u.1 == r.pred && decide (u.2 < 4 * r.vec))).map (fun u =>
        min 256 (match (List.range r.n).find? (fun k => decide (4 * (r.shard k).1 ≤ u.2 ∧ u.2 < 4 * ((r.shard k).1 + (r.shard k).2))) with
          | some k => 4 * ((r.shard k).1 + (r.shard k).2) - u.2
          | none => 0))).sum
    then s.modColl c q p (fun r => { r with final := true }) else s

/-- One unit of data from rank k at offset off of the transfer (R274, R275). -/
def State.collUnit (s : State) (c q p k off : Nat) (bs : List Byte) : State :=
  match s.coll? c q p with
  | none => s
  | some (_, r) =>
    let v4 := 4 * r.vec
    let take := fun (limit : Nat) => bs.take (limit - off)
    let count := fun (s : State) (n : Nat) => s.modColl c q p (fun r => { r with got := r.got.set k (r.got.get 0 k + n) })
    if r.isReduction then
      if off < v4 then
        let e := off / 4
        match (List.range r.n).find? (fun j => decide ((r.shard j).1 ≤ e ∧ e < (r.shard j).1 + (r.shard j).2)) with
        | none => s
        | some j =>
          let b := take (4 * ((r.shard j).1 + (r.shard j).2))
          let ws := f32List (b.length / 4) b
          let own := s.ownElems c r e ws.length
          let s1 := count s b.length
          if own.stop.isSome ∧ (r.arrival ∨ j ≠ r.me) then
            (s1.reachHeld c r.src.toNat (e * dtSize r.dtIn) (ws.length * dtSize r.dtIn)).endColl c q p (own.stop.getD stPoison) 65535#16
          else if r.arrival then
            s1.modColl c q p (fun r => { r with sums := ((ws.zip (wideElems r.dtIn own.data)).zipIdx).foldl (fun t x =>
              let i := e + x.2 - (r.shard r.me).1
              t.set i (fadd ((t.find? i).getD x.1.2) x.1.1)) r.sums })
          else if j = r.me then s1.finalElems c q p e ws
          else s1.passOn c q p e (List.zipWith fadd ws (wideElems r.dtIn own.data))
      else if off < 2 * v4 then
        let e := (off - v4) / 4
        let sh := r.shard r.succ
        let b := take (v4 + 4 * (sh.1 + sh.2))
        (count s b.length).keepShard c q p (e - sh.1) (f32List (b.length / 4) b)
      else
        let sh := r.shard k
        let b := take (2 * v4 + (sh.1 + sh.2) * r.outSize)
        (count s b.length).putDst c q p (off - 2 * v4) b
    else
      let b := take (if r.op = 2 then (k + 1) * r.count * r.outSize else r.count * r.outSize)
      (count s b.length).putDst c q p off b

/-- DATA of a COLLECTIVE from the rank at a module address (R273, R277). -/
def State.collData (s : State) (c q p src off : Nat) (bs : List Byte) : State :=
  match s.coll? c q p with
  | none => s
  | some (_, r) =>
    match (List.range r.n).find? (fun k => k != r.me && r.ranks.getD k 4096 == src) with
    | none => s
    | some k =>
      let us := newUnits r.seen k off bs
      let s1 := us.foldl (fun s u => (s.collUnit c q p k u.1 u.2).modColl c q p (fun r => { r with seen := r.seen ++ [(k, u.1)] })) s
      (((s1.arrivalDone c q p).ringDone c q p).sendGather c q p).settleColls c

/-- This rank's READY for a COLLECTIVE goes to a module (R273). -/
def State.sendReady (s : State) (c : Nat) (r : CollRun) (dst : Nat) : State :=
  s.sendCtrl c dst r.group r.seq (.ready r.op (r.dtIn + 16 * r.dtOut) r.count)

/-- The operation a READY of the matching receiver names: SEND is matched by RECV (R273). -/
def opsMatch (mine theirs : Nat) : Bool := mine == theirs || (mine == 5 && theirs == 6) || (mine == 6 && theirs == 5)

/-- A READY meets a COLLECTIVE in progress: it is served, or both ranks end with STATE (R273). -/
def State.collReady (s : State) (c q p : Nat) (x : ReadyInfo) : State :=
  match s.coll? c q p with
  | none => s
  | some (_, r) =>
    match (List.range r.n).find? (fun k => k != r.me && r.ranks.getD k 4096 == x.src.toNat) with
    | none => s
    | some k =>
      if opsMatch r.op x.op && x.dtype == r.dtIn + 16 * r.dtOut && x.count == r.count then
        let s1 := s.modColl c q p (fun r => { r with ready := if r.ready.contains k then r.ready else r.ready ++ [k] })
        let mine := r.out.filter (fun o => o.1 == k)
        let s2 := (s1.serve c q p k).modColl c q p (fun r => { r with out := r.out.filter (fun o => o.1 != k) })
        let s3 := mine.foldl (fun s o => s.sendTo c q p o.1 o.2.1 o.2.2) s2
        (s3.sendGather c q p).settleColls c
      else (s.sendReady c r x.src.toNat).endColl c q p stState 65535#16

/-- A COLLECTIVE moves: READY goes to every rank it receives from, its own part is done, and READYs that came before are met (R272 to
R275). -/
def State.launchColl (s : State) (c q p : Nat) : State :=
  match s.coll? c q p with
  | none => s
  | some (_, r) =>
    let s0 := s.modColl c q p (fun r => { r with
      armed := none
      held := false
      image := if r.entry.isSome then (s.readHeld c r.src.toNat 0 r.srcBytes).data else [] })
    let s1 := r.askers.foldl (fun s k => s.sendReady c r (r.ranks.getD k 0)) s0
    let si := dtSize r.dtIn
    let g := s1.ownElems c r 0 r.count
    let s1 := if r.op = 2 ∨ (r.op = 4 ∧ r.me = r.peer) ∨ (r.isReduction ∧ r.n = 1) then s1.reachHeld c r.src.toNat 0 (r.count * si) else s1
    -- bytes of SRC that the line at which the read stopped still holds
    let rest := min (64 - ((s1.resolveHeld c r.src.toNat).addr + g.data.length) % 64) (r.count * si - g.data.length)
    let s2 :=
      if r.op = 2 ∨ (r.op = 4 ∧ r.me = r.peer) then
        let off := if r.op = 2 then r.me * r.count * r.outSize else 0
        match g.stop with
        | some st => s1.putStopped c q p off rest g.data st
        | none => s1.putDst c q p off g.data
      else if r.isReduction ∧ r.n = 1 then
        let ws := wideElems r.dtIn g.data
        match g.stop with
        | some st => s1.putStopped c q p 0 (ceilDiv rest si * r.outSize) (outElems r.dtOut ws) st
        | none => ((s1.finalElems c q p 0 ws).keepShard c q p 0 ws).modColl c q p (fun r => { r with final := true })
      else s1
    let meets := fun (y : ReadyInfo) => y.group == r.group && y.seq.toNat == r.seq && y.epoch == (s2.ctx c).epoch
    let mine := (s2.ctx c).readies.filter meets
    let s3 := s2.modCtx c (fun x => { x with readies := x.readies.filter (fun y => !meets y) })
    let s4 := mine.foldl (fun s x => s.collReady c q p x) s3
    let s5 := (((s4.arrivalDone c q p).ringDone c q p).sendGather c q p).settleColls c
    match (s.ctx c).badReadies.find? (fun b => b.1 == r.group && b.2.1 == r.seq) with
    | some b => (s5.modCtx c (fun x => { x with badReadies := x.badReadies.erase b })).endCheck c q p b.2.2
    | none => s5

/-- The COLLECTIVE, not on a queue, of a context with a group and SEQ. -/
def State.collOf (s : State) (c group seq : Nat) : Option Desc :=
  (s.ctx c).descs.find? (fun d => d.ending.isNone && match d.work with
    | .coll r => r.group == group && r.seq == seq && decide (r.op ≤ 6) && r.armed.isNone && !r.held
    | _ => false)

/-- The work of a QSEND (op 7) or QRECV (op 8) of a queue that is not armed and, a QSEND, has filled no slot. -/
def CollRun.inQueue (r : CollRun) (queue op : Nat) : Bool := r.group == queue && r.op == op && r.armed.isNone && !r.final

/-- QSENDs or QRECVs of a queue that go on now, in start order, up to the first whose host transfer waits (R113, R282). -/
def State.qsends (s : State) (c queue op : Nat) : List Desc :=
  (sortBy (fun a b => decide (a.start.getD 0 ≤ b.start.getD 0)) ((s.ctx c).descs.filter (fun d => d.ending.isNone && match d.work with
    | .coll r => r.inQueue queue op
    | _ => false))).takeWhile (fun d => match d.work with
      | .coll r => !r.held
      | _ => false)


/-- A consumer queue whose next slot is `seq`: what belongs to earlier slots is gone (R282, R397). -/
def QueueSt.upTo (q : QueueSt) (seq : Nat) : QueueSt :=
  { q with
    next := seq
    filled := q.filled.filter (fun x => decide (seq ≤ x.1))
    seen := q.seen.filter (fun x => decide (seq ≤ x.1))
    bad := q.bad.filter (fun x => decide (seq ≤ x.1)) }

/-- Bytes received of a slot. -/
def QueueSt.got (q : QueueSt) (seq : Nat) : Nat := (q.filled.find? (fun x => x.1 == seq)).elim 0 (fun x => x.2)


/-- QSENDs fill slots in order while credits last; one completes when its frames have left (R278, R282). -/
def State.driveSends (c queue : Nat) : List Desc → State → State
  | [], s => s
  | d :: ds, s =>
    match (s.ctx c).queues.find? queue, s.coll? c d.ring d.pos with
    | some q, some (_, r) =>
      if q.credits = 0 then s else
        let g := s.readHeld c r.src.toNat 0 r.count
        if g.stop.isSome then
          State.driveSends c queue ds ((s.reachHeld c r.src.toNat 0 r.count).endColl c d.ring d.pos (g.stop.getD stPoison) 65535#16)
        else
          let s1 := (s.noteStall c d r).sendData c q.peer 2 queue q.next 0 g.data
          let s2 := s1.modQueue c queue (fun q => { q with credits := q.credits - 1, next := q.next + 1 })
          State.driveSends c queue ds (s2.setWork c d (.coll { r with final := true, seq := q.next }))
    | _, _ => s

/-- A QRECV has taken a slot: its credit goes back to the producer (R282). -/
def State.freeSlot (s : State) (c queue : Nat) (q : QueueSt) : State :=
  (s.modQueue c queue (fun q => q.upTo (q.next + 1))).sendCtrl c q.peer queue 0 (.slotCredit 1)

/-- QRECVs take filled slots in order and return their credits; a slot that met an integrity failure ends its QRECV with CHECK (R280, R282,
R397). A slot is filled once it holds the QRECV's own COUNT, rounded up to 4 bytes (log 128). -/
def State.driveRecvs (c queue : Nat) : List Desc → State → State
  | [], s => s
  | d :: ds, s =>
    match (s.ctx c).queues.find? queue, s.coll? c d.ring d.pos with
    | some q, some (_, r) =>
      if q.flushing then s else
      match q.bad.find? (fun x => x.1 == q.next) with
      | some (_, unit) => State.driveRecvs c queue ds ((s.freeSlot c queue q).endColl c d.ring d.pos stCheck unit)
      | none =>
        if q.got q.next < ceilDiv r.count 4 * 4 then s else
        let t := (s.resolve c q.buf.toNat).plus (q.next % q.slots * q.slotBytes)
        let g := if r.count ≤ t.extent then s.readTarget c t r.count else { data := [], stop := some stBounds }
        match g.stop with
        | some st =>
          let rest := min (64 - (t.addr + g.data.length) % 64) (r.count - g.data.length)
          State.driveRecvs c queue ds (((s.reachTarget t r.count).putStopped c d.ring d.pos 0 rest g.data st).freeSlot c queue q)
        | none => State.driveRecvs c queue ds (((s.putDst c d.ring d.pos 0 g.data).freeSlot c queue q).endDesc c d.ring d.pos (endOk r.count))
    | _, _ => s

def State.driveQueue (s : State) (c queue : Nat) : State :=
  (State.driveRecvs c queue (s.qsends c queue 8) (State.driveSends c queue (s.qsends c queue 7) s)).settleColls c

/-- A COLLECTIVE that has started moves: on its group, or on its queue, where its wait for a credit counts from now (R276, R345). -/
def State.goColl (s : State) (c q p : Nat) : State :=
  match s.coll? c q p with
  | none => s
  | some (_, r) =>
    if r.op ≤ 6 then s.launchColl c q p
    else (s.modColl c q p (fun r => { r with armed := none, held := false, since := if r.armed.isSome then some s.time else r.since })).driveQueue c r.group

/-- The host transfer of a COLLECTIVE has no path (R113). -/
def State.collWaits (s : State) (c : Nat) (r : CollRun) : Bool :=
  (r.op != 6 && r.op != 8 && s.refWaits c r.src.toNat) || (r.op != 5 && r.op != 7 && s.refWaits c r.dst.toNat true)

/-- A COLLECTIVE starts to move, or waits for a path to the host (R113, R345). -/
def State.tryColl (s : State) (c q p : Nat) : State :=
  match s.coll? c q p with
  | none => s
  | some (_, r) =>
    if s.collWaits c r then s.modColl c q p (fun r => { r with held := true, armed := none, since := if r.armed.isSome then some s.time else r.since })
    else s.goColl c q p

/-- COLLECTIVEs whose host transfer has a path again go on, in the order of their starts (R113). -/
def State.resumeColls (s : State) (c : Nat) : State :=
  (sortBy (fun (a b : Desc) => decide (a.start.getD 0 ≤ b.start.getD 0)) (s.ctx c).descs).foldl (fun s d =>
    match s.coll? c d.ring d.pos with
    | some (_, r) => if d.ending.isNone && r.held && !s.collWaits c r then s.goColl c d.ring d.pos else s
    | none => s) s

/-- Slot `seq` of a consumer queue may receive: it is one of those granted (R282, R397). -/
def QueueSt.open (q : QueueSt) (seq : Nat) : Bool := q.role == 2 && decide (q.next ≤ seq) && decide (seq < q.next + q.slots) && !q.flushing

/-- Data of a stage queue arrives in its slot, unit by unit (R277, R281, R282). -/
def State.queueData (s : State) (c queue seq off : Nat) (bs : List Byte) : State :=
  match (s.ctx c).queues.find? queue with
  | none => s
  | some q =>
    if !q.open seq then s else
      let us := newUnits q.seen seq off bs
      let s1 := us.foldl (fun s u => s.writeRef c q.buf.toNat (seq % q.slots * q.slotBytes + u.1) u.2) s
      (s1.modQueue c queue (fun q => { q with
        seen := q.seen ++ us.map (fun u => (seq, u.1))
        filled := (seq, q.got seq + (us.map (fun u => u.2.length)).sum) :: q.filled.filter (fun x => x.1 != seq) })).driveQueue c queue

/-- The data of a slot met an integrity failure (R280). -/
def State.queueBad (s : State) (c queue seq : Nat) (unit : Half) : State :=
  match (s.ctx c).queues.find? queue with
  | none => s
  | some q =>
    if !q.open seq || q.bad.any (fun x => x.1 == seq) then s
    else (s.modQueue c queue (fun q => { q with bad := q.bad ++ [(seq, unit)] })).driveQueue c queue

end Sys2Proof.Machine
end

