-- ==== Sys2Proof/Machine/Cancel.lean ====
section
/-!
DEFINITION. Delivery of data to what waits for it, fills (R410), ending work at its next safe point (R107, R108, R111), and the
advance of the placement epoch (R110 to R112). The wire form of a fill and of a state block is the model's choice (log 18).
-/
namespace Sys2Proof.Machine

/-- Where the ranges of a list lie: unified address and length (R414). -/
def State.rangeSpans (s : State) (l : List Rng) : List (Nat × Nat) := l.map (fun r => (s.objBase r.obj + r.off, r.len))

/-- The bytes of ranges in list order; a poisoned line stops the read (R246). -/
def State.readSpans (s : State) : List (Nat × Nat) → Got
  | [] => { data := [] }
  | (a, n) :: r =>
    let g := s.devRead a n
    if g.stop.isSome then g else
      let g2 := s.readSpans r
      { data := g.data ++ g2.data, stop := g2.stop }

/-- Writes bytes that start at byte `off` of the concatenated ranges. -/
def State.writeSpans : List (Nat × Nat) → State → Nat → Nat → List Byte → State
  | [], s, _, _, _ => s
  | (a, n) :: r, s, lo, off, bs =>
    let d := cutRegion off bs lo n
    State.writeSpans r (if d.2.isEmpty then s else s.devWrite (a + d.1) d.2) (lo + n) off bs

/-- A range lies in a READ_ONLY object, which a descriptor may not write (R226). -/
def State.spansReadOnly (s : State) (l : List (Nat × Nat)) : Bool := l.any (fun x => decide (0 < x.2) && (s.blockOwner x.1).any (fun o => o.2.readOnly))

/-- The weight digest of concatenated ranges (R401). -/
def weightDigest (bs : List Byte) : List Byte :=
  sha256 ((chunks (2 ^ 26) (bs.length / 2 ^ 26 + 1) bs).map sha256).flatten

/-- The ranges and the block that a fill carries: KIND 0 fills the shard from the buddy's shadow, KIND 1 the shadow from the
successor's shard (R410). -/
def State.fillSpans (s : State) (u : MpSetup) (send kind : Bool) : List (Nat × Nat) :=
  let shadow := send != kind
  s.rangeSpans (if shadow then u.shadow else u.shard) ++ [(s.objBase u.stateObj + (if shadow then 65536 else 0), 65536)]

def spanBytes (l : List (Nat × Nat)) : Nat := (l.map (fun x => x.2)).sum

/-- Group field of a fill's frames and of a state block's (log 18). -/
def fillGroup (kind : Bool) : Nat := 0x100 + b2n kind
def blockGroup : Nat := 0x102

/-- The lengths of the ranges that a fill carries, in list order (R410). -/
def State.fillLens (s : State) (c : Nat) (r : FillRun) : List Nat :=
  (s.ctx c).mile.setup.elim [] (fun u => (s.fillSpans u r.send r.kind).map (fun x => x.2))

/-- A frame of a fill between the two ends: 9 asks for the data, 10 reports OK, 11 CHECK; it carries the lengths of this end's ranges
(log 18). -/
def State.fillMsg (s : State) (c : Nat) (r : FillRun) (op : Nat) : State :=
  s.sendCtrl c r.peer (fillGroup r.kind) 0 (.fill op r.total (s.fillLens c r))

/-- The fill in progress of a direction and kind with a peer. -/
def State.fillOf (s : State) (c : Nat) (send kind : Bool) (peer : Nat) : Option (Desc × FillRun) :=
  (s.ctx c).descs.findSome? (fun d => match d.work with
    | .fill r => if d.ending.isNone ∧ r.send = send ∧ r.kind = kind ∧ r.peer = peer then some (d, r) else none
    | _ => none)

/-- Data of a fill arrives; once it is whole its digest decides (R410). -/
def State.fillData (s : State) (c : Nat) (kind : Bool) (src off : Nat) (bs : List Byte) : State :=
  match s.fillOf c false kind src, (s.ctx c).mile.setup with
  | some (d, r), some u =>
    let us := newUnits r.seen src off bs
    let spans := s.fillSpans u false kind
    if s.spansReadOnly spans then (s.fillMsg c r 11).endDesc c d.ring d.pos (endWith stAuth) else
    let s1 := us.foldl (fun s v => State.writeSpans spans s 0 v.1 v.2) s
    let r' : FillRun := { r with
      seen := r.seen ++ us.map (fun v => (src, v.1))
      bytes := r.bytes + (us.map (fun v => (min (v.1 + v.2.length) (r.total + 40)) - v.1)).sum
      tail := us.foldl (fun m v => let g := cutRegion v.1 v.2 r.total 40
        m.writeN g.1 g.2) r.tail }
    if r'.bytes < r.total + 40 then s1.setWork c d (.fill r') else
      let got := s1.readSpans spans
      if got.stop.isNone ∧ weightDigest got.data = r'.tail.readN 0 32 then
        let last := dword (r'.tail.readLE 32 8)
        let s2 := s1.modMile c (fun m => { m with last := last, shard := if kind then m.shard else last, shadow := if kind then last else m.shadow })
        (s2.fillMsg c r' 10).endDesc c d.ring d.pos (endOk 0)
      else ((s1.reachSpans spans).fillMsg c r' 11).endDesc c d.ring d.pos (endWith stCheck)
  | _, _ => s

/-- A message of a fill arrives (R410, log 18). -/
def State.fillReady (s : State) (c : Nat) (kind : Bool) (x : ReadyInfo) : State :=
  match s.fillOf c true kind x.src.toNat, (s.ctx c).mile.setup with
  | some (d, r), some u =>
    if x.op = 10 then s.endDesc c d.ring d.pos (endOk 0)
    else if x.op = 11 then s.endDesc c d.ring d.pos (endWith stCheck)
    else if r.sent then s
    else if x.lens ≠ s.fillLens c r then s.fillMsg c r 9
    else
      let g := s.readSpans (s.fillSpans u true kind)
      if g.stop.isSome then (s.reachSpans (s.fillSpans u true kind)).endDesc c d.ring d.pos (endWith stPoison) else
        let s1 := s.sendData c r.peer 3 (fillGroup kind) 0 0 (g.data ++ weightDigest g.data ++ leBytes 8 (s.ctx c).mile.last.toNat)
        s1.setWork c d (.fill { r with sent := true })
  | _, _ =>
    match s.fillOf c false kind x.src.toNat with
    | some (d, r) => if x.op = 9 ∧ x.lens ≠ s.fillLens c r then s.endDesc c d.ring d.pos (endWith stFormat) else s
    | none => s

/-- Delivers the payload of a DATA frame of the current epoch to what waits for it (R265, R269, R371, R410). -/
def State.deliver (s : State) (c : Nat) (h : HdrWord) (payload : List Byte) : State :=
  let g := hdrGroup h
  let off := hdrOff h
  if hdrVc h = 2 then s.queueData c g (hdrSeq h) off payload
  else if g = fillGroup false ∨ g = fillGroup true then s.fillData c (g == fillGroup true) (hdrSrc h) off payload
  else if g = blockGroup then s.modMile c (fun m =>
    let us := newUnits m.blockSeen (hdrSeq h) off payload
    { m with block := us.foldl (fun b u => b.writeN u.1 u.2) m.block, blockSeen := m.blockSeen ++ us.map (fun u => (hdrSeq h, u.1)) })
  else
    match (s.ctx c).pair with
    | some p =>
      (match p.turn with
       | some t => if p.group = g ∧ t.seq = hdrSeq h then
           (match (List.range p.nranks).find? (fun k => p.ranks.getD k 4096 == hdrSrc h) with
            | some k => s.turnData c k off payload
            | none => s)
         else (match s.collOf c g (hdrSeq h) with
           | some d => s.collData c d.ring d.pos (hdrSrc h) off payload
           | none => s)
       | none => (match s.collOf c g (hdrSeq h) with
           | some d => s.collData c d.ring d.pos (hdrSrc h) off payload
           | none => s))
    | none => (match s.collOf c g (hdrSeq h) with
      | some d => s.collData c d.ring d.pos (hdrSrc h) off payload
      | none => s)

/-- Counts stale results (R112). -/
def State.countStale (s : State) (c n : Nat) : State := (s.modCtx c (fun x => { x with staleDrop := x.staleDrop + word n })).countMod 12 n


/-- The collective timeout in ns (CTX_COLL_TIMEOUT.MS). -/
def State.collTimeoutNs (s : State) (c : Nat) : Nat := atLeast1 (fld (s.reg (rCollTimeout c)) 0 16) * 10 ^ 6

/-- Held results of a newer epoch that satisfy p are discarded and counted (R112). -/
def State.discardNewer (s : State) (c : Nat) (p : Nat × Frame → Bool) : State :=
  let fs := (s.ctx c).newer.filter p
  let s1 := (s.modCtx c (fun x => { x with newer := x.newer.filter (fun f => !p f) })).countStale c fs.length
  fs.foldl (fun s f => s.returnCredit f.1 f.2) s1

/-- Held results of a newer epoch for which the collective timeout has passed, whatever they belong to, are discarded and counted (R112). -/
def State.expireNewer (s : State) (c : Nat) : State :=
  if (s.ctx c).newer.isEmpty then s else s.discardNewer c (fun f => decide (s.collTimeoutNs c ≤ (s.time - f.2.since).toNat))

/-- Held results of a newer epoch, once the context's epoch has reached it, are delivered; older ones are discarded and counted, and so are
those that have waited too long (R112). -/
def State.releaseNewer (s0 : State) (c : Nat) : State :=
  let s := s0.expireNewer c
  let e := (s.ctx c).epoch.toNat
  let fs := (s.ctx c).newer
  let s1 := s.modCtx c (fun x => { x with
    newer := x.newer.filter (fun f => hdrEpoch f.2.hdr != e && !olderEpoch (hdrEpoch f.2.hdr) e)
    readies := x.readies.filter (fun r => !olderEpoch r.epoch.toNat e) })
  fs.foldl (fun s f =>
    if hdrEpoch f.2.hdr = e then (s.deliver c f.2.hdr f.2.payload).returnCredit f.1 f.2
    else if olderEpoch (hdrEpoch f.2.hdr) e then (s.countStale c 1).returnCredit f.1 f.2
    else s) s1

/-- The sequences that a descriptor waits with EDIT_WAIT set on: the row set of a LEDGER_EDIT or PIN, the FIRST records with a prefix
of a SERVE_STEP (R312, R332). -/
def Desc.waitRows (d : Desc) : List Nat :=
  if d.ending.isSome then [] else
    match d.work with
    | .edit r => r.rows
    | .serve r => if r.waits.isEmpty then [] else (r.batch.filter (fun b => b.first && b.handle != 0#64)).map (fun b => b.seq)
    | _ => []

/-- EDIT_WAIT of the listed sequences (R299, R312). -/
def State.refreshWait (s : State) (c : Nat) (rows : List Nat) : State :=
  { s with ledger := { s.ledger with seqs := rows.foldl (fun (t : Tab SeqEntry) q =>
      Tab.mod {} t q (fun e => { e with editWait := (s.ctx c).descs.any (fun d => d.waitRows.contains q) })) s.ledger.seqs } }

/-- The first fault of an EXEC in progress marks how it ends; its tiles stop at their safe points (R98). -/
def ExecRun.endWithFirst (r : ExecRun) (e : Ending) : ExecRun := if r.ending.isSome then r else { r with ending := some e }

/-- The prep clusters 0 to 7 of a context's tiles, which the sampler uses, are given or left by descriptor-driven work (R174, R327). -/
def State.holdClusters (s : State) (c : Nat) (b : Bool) : State :=
  (bitList (s.ctx c).mask.toNat 96).foldl (fun (s : State) t => s.modTile t (fun x => { x with
    clusters := (List.range 8).foldl (fun (tb : Tab Cluster) k => Tab.mod {} tb k (fun (y : Cluster) => { y with desc := b })) x.clusters })) s

/-- Ends a started descriptor's work at its next safe point with a status (R107, R108, R111). EXECs and the entries of a SERVE_STEP
stop through EXEC_FAULT_STOP; the other work ends here. -/
def State.cancelWork (s : State) (c : Nat) (d : Desc) (st : Byte) : State :=
  match d.work with
  | .exec r => s.setWork c d (.exec (r.endWithFirst (endWith st)))
  | .serve r =>
    match r.run with
    | some x => s.setWork c d (.serve { r with run := some (x.endWithFirst (endWith st)) })
    | none => ((if r.sampling then s.holdClusters c false else s).endHeld c d.ring d.pos (endWith st)).refreshWait c d.waitRows
  | .coll _ => s.endColl c d.ring d.pos st 65535#16
  | .edit _ => (s.endHeld c d.ring d.pos (endWith st)).refreshWait c d.waitRows
  | .place r => (s.leavePlace r false).endDesc c d.ring d.pos { status := st, result := dword r.job.moved }
  | .turn => s.turnFail c st ((s.ctx c).pair.elim 0 (fun p => p.me))
  | .commit =>
    let m := (s.ctx c).mile
    if m.commit.any (fun r => r.contributed) then
      (s.modMile c (fun m => { m with state := 5, commit := none })).endCommits c { status := st, result := mileResult m }
    else s.failStep c 0x01#8 m.me true st
  | _ => s.endDesc c d.ring d.pos (endWith st)

/-- The placement epoch advances (R110, R111): started work tied to the old epoch ends with STALE, but for the descriptor at `keep`
that makes the advance; a turn of the Switchback fails unless it makes it (R376). -/
def State.advanceEpoch (s : State) (c : Nat) (keep : Option (Nat × Nat)) (ownFlip : Bool) : State :=
  let s0 := if ownFlip then s else s.turnFail c stStale ((s.ctx c).pair.elim 0 (fun p => p.me))
  let s1 := s0.modCtx c (fun x => { x with epoch := nextEpoch x.epoch })
  let s2 := (s1.ctx c).descs.foldl (fun s d =>
    if d.start.isSome ∧ d.ending.isNone ∧ d.epoch ≠ 0 ∧ some (d.ring, d.pos) ≠ keep then s.cancelWork c d stStale else s) s1
  s2.releaseNewer c

end Sys2Proof.Machine
end

