-- ==== Sys2Proof/Machine/PlaceCmd.lean ====
section
/-!
DEFINITION. PLACE (R226 to R237, R249, R364), the switch of a moving block, and PREFETCH_PLAN (R239, R240).
-/
namespace Sys2Proof.Machine

/-- OBJ of a PLACE. -/
def placeObj (d : Desc) : Nat := d.num 20 4 % 2 ^ 20
def placeFlags (d : Desc) : Nat := d.num 18 1

/-- Objects whose mapping a declared pair fixes: its banks and the master objects that a kept record reads here (R364). -/
def State.pairHolds (s : State) (c o : Nat) : Bool :=
  match (s.ctx c).pair with
  | some p => p.bank0 == o || p.bank1 == o || p.sends.any (fun r => r.srcObj == o)
  | none => false

/-- The alias of a declared pair (R363). -/
def State.isAlias (s : State) (c o : Nat) : Bool := (s.ctx c).pair.any (fun p => p.aliasId == o)

/-- Pinning an object of n blocks would pass the floor (R233). -/
def State.pinTooMany (s : State) (c n : Nat) : Bool := decide (s.floor c < s.pinned c + n)

/-- The result of creating an object. -/
inductive Created where
  | ok (s : State) (ubase : Nat)
  | short (s : State) (n : Nat)
  | wait

/-- Marks the slow-tier blocks of a new object as zero-filled: frame i backs unified block u + i (R230). -/
def State.markZero (s : State) (u : Nat) (fs : List Nat) : State :=
  { s with mem := { s.mem with zeroed := s.mem.zeroed ++ (List.range fs.length).filterMap (fun i => if isHbm (fs.getD i 0) then none else some (u + i)) } }

/-- Creates an object: its base, its frames and its entry (R224, R226, R435). -/
def State.createObj (s : State) (c id size cls mask : Nat) (pin readOnly slow : Bool) : Created :=
  let n := ceilDiv size blockBytes
  match s.freeBase n with
  | none => .short s 0
  | some b =>
    let o : Obj :=
      { ubase := b, size := size, ctx := c, cls := cls, pin := pin, readOnly := readOnly
        stackMask := BitVec.ofNat 16 (stackMaskOf mask), touch := s.touchNow }
    match State.drawNew c id (stackMaskOf mask) slow n (s.setObj id { o with promoting := 1 }) (lowestStack (stackMaskOf mask)) [] with
    | .wait => .wait
    | .done s' fs all =>
      if all then
        .ok ((s'.setObj id { o with frames := fs }).markZero (b / blockBytes) fs) b
      else .short (s'.dropObj id) fs.length

/-- The checks that every PLACE makes, with those of operation `op` (R102, R226). PROMOTE, DEMOTE and REHOME of an object in quarantine end with
STATE (R248; log 121). -/
def placeChk (op c : Nat) (s : State) (d : Desc) : Chk :=
  let id := placeObj d
  let fl := placeFlags d
  let len := d.num 24 8
  let off := d.num 32 8
  let moves := op == 3 || op == 4
  let o? := (s.obj? id).filter (fun o => o.state != 2)
  { reserved := [(19, 1), (42, 22)]
    reservedBits := [(fl / 8 != 0, 18), (d.num 20 4 / 2 ^ 20 != 0, 20)]
    format := [
      (decide (6 < d.num 17 1) || (op != 1 && d.num 17 1 != 0), 17),
      ((op == 1 || op == 3) && fl % 4 == 3, 18),
      allOnes d 24 8,
      (op == 1 && decide (2 ^ 40 < len), 24),
      (op != 1 && !moves && decide (1 < len), 24),
      (moves && len % blockBytes != 0 && o?.any (fun o => decide (off + len < o.size)), 24),
      (if moves then off % blockBytes != 0 else off != 0, 32),
      (op != 1 && op != 5 && d.num 40 2 != 0, 40)]
    auth := [(!s.inRange c id, 20)]
    bounds := [(moves && o?.any (fun o => decide (o.size ≤ off)), 32)]
    zero := len == 0
    state := match op with
      | 1 => (s.obj? id).isSome || s.isAlias c id
      | 2 => o?.isNone || s.pairHolds c id
      | 4 => o?.isNone || o?.any (fun o => o.pin || o.state == 3)
      | 5 => o?.isNone || s.pairHolds c id || o?.any (fun o => o.state == 3)
      | 6 => o?.isNone || s.pairHolds c id
      | 7 => o?.isNone || o?.any (fun o => o.state == 3 && ((s.mem.poison.any (fun l => decide (o.ubase ≤ 64 * l ∧ 64 * l < o.ubase + blockBytes * o.blocks))) || (o.signed && !o.verified)))
      | _ => o?.isNone || o?.any (fun o => o.state == 3)
    capacity := match op with
      | 1 => if bitOf fl 0 && s.pinTooMany c (ceilDiv len blockBytes) then some stNospace else none
      | 3 => if bitOf fl 0 && o?.any (fun o => !o.pin && o.pinning == 0 && s.pinTooMany c o.blocks) then some stNospace else none
      | 6 => if bitOf fl 0 && o?.any (fun o => !o.pin && o.pinning == 0 && s.pinTooMany c o.blocks) then some stNospace else none
      | _ => none }

def isPlace (op : Nat) (d : Desc) : Bool := d.opcode == 6 && d.num 16 1 == op

def State.touchObj (s : State) (id : Nat) : State := s.modObj id (fun o => { o with touch := s.touchNow })

/-- A PLACE that moves blocks is over once every block has switched (R226, R228). -/
def State.finishPlace (s : State) (c : Nat) (d : Desc) (r : PlaceRun) : State :=
  if !r.job.done then s.setWork c d (.place r) else
    let s3 := (s.leavePlace r r.job.stop.isNone).endDesc c d.ring d.pos { status := r.job.stop.getD stOk, result := dword r.job.moved }
    if r.job.kind = 5 then s3.advanceEpoch c (some (d.ring, d.pos)) false else s3

/-- Starts a PLACE that moves blocks. -/
def State.startPlace (s : State) (c : Nat) (d : Desc) (j : MoveJob) (pin : Bool) : State :=
  let s1 := (s.touchObj j.obj).pinMoving j
  let s2 := if pin then s1.modObj j.obj (fun o => { o with pinning := o.pinning + 1 }) else s1
  let r := State.driveJob c j.left s2 j 0
  r.1.finishPlace c d { job := r.2.1, pin := pin }

/-- Drives the plan moves and the PLACEs of a context that have blocks without a frame. -/
def State.driveCtx (s : State) (c : Nat) : State :=
  let js := (s.ctx c).pfJobs
  let s1 := js.foldl (fun s j => keepPlanJob c (State.driveJob c j.left s j 0)) (s.modCtx c (fun x => { x with pfJobs := [] }))
  (s1.ctx c).descs.foldl (fun s d =>
    match d.work with
    | .place r =>
      if d.ending.isSome then s else
        let x := State.driveJob c r.job.left s r.job 0
        x.1.finishPlace c d { r with job := x.2.1 }
    | _ => s) s1

/-- Moves in progress of every context. -/
def State.jobCount (s : State) : Nat :=
  (s.ctxs.map (fun x => x.2.pfJobs.length + (x.2.descs.filter (fun d => match d.work with
    | .place _ => d.ending.isNone
    | _ => false)).length)).sum

/-- Waiting moves go on while promotions end (R234). -/
def State.settleMoves : Nat → State → State
  | 0, s => s
  | n + 1, s =>
    let s1 := (s.ctxs.map (fun x => x.1)).foldl State.driveCtx s
    if s1.jobCount < s.jobCount then State.settleMoves n s1 else s1

/-- A block of a job has switched. -/
def MoveJob.switched (j : MoveJob) (obj blk : Nat) : MoveJob :=
  if j.obj = obj ∧ j.flight.contains blk then { j with flight := j.flight.filter (fun b => b != blk), moved := j.moved + 1 } else j

def Ctx.switched (x : Ctx) (obj blk : Nat) : Ctx :=
  { x with
    pfJobs := x.pfJobs.map (fun j => j.switched obj blk)
    descs := x.descs.map (fun d => match d.work with
      | .place r => { d with work := .place { r with job := r.job.switched obj blk } }
      | _ => d) }

/-- CREATE (R224, R226). -/
def runCreate (c : Nat) (s : State) (d : Desc) : State :=
  let fl := placeFlags d
  match s.createObj c (placeObj d) (d.num 24 8) (d.num 17 1) (d.num 40 2) (bitOf fl 0) (bitOf fl 2) (bitOf fl 1) with
  | .ok s' b => s'.endDesc c d.ring d.pos (endOk b)
  | .short s' n => s'.endDesc c d.ring d.pos { status := stNospace, result := dword n }
  | .wait => s

/-- CREATE waits while only promotions in flight hold the frames it could evict (R234). -/
def createWaits (c : Nat) (s : State) (d : Desc) : Bool :=
  (s.check c d (placeChk 1 c s d)).isNone &&
    match s.createObj c (placeObj d) (d.num 24 8) (d.num 17 1) (d.num 40 2) (bitOf (placeFlags d) 0) (bitOf (placeFlags d) 2) (bitOf (placeFlags d) 1) with
    | .wait => true
    | _ => false

/-- PLACE CREATE (R226). -/
def execPlaceCreate (c : CtxId) (q : RingId) (p : Word) (s : State) : Host.Outcome State Fault Refusal :=
  .next (s.startDesc c q p (isPlace 1) (createWaits c s) (placeChk 1 c) (runCreate c))

/-- RELEASE (R227). -/
def runRelease (c : Nat) (s : State) (d : Desc) : State :=
  let waits := (s.ctx c).startsOf (fun e => decide (e.ring ≠ d.ring ∨ e.pos ≠ d.pos))
  ((s.touchObj (placeObj d)).releaseObj (placeObj d) waits).endDesc c d.ring d.pos (endOk 0)

/-- PLACE RELEASE (R226, R227). -/
def execPlaceRelease (c : CtxId) (q : RingId) (p : Word) (s : State) : Host.Outcome State Fault Refusal :=
  .next (s.startDesc c q p (isPlace 2) (fun _ => false) (placeChk 2 c) (runRelease c))

/-- The blocks that OFFSET and LENGTH name (R226). -/
def namedBlocks (d : Desc) (o : Obj) : List Nat :=
  let first := d.num 32 8 / blockBytes
  let last := ceilDiv (min (d.num 32 8 + d.num 24 8) o.size) blockBytes
  (List.range (last - first)).map (fun i => first + i)

/-- PROMOTE: with PIN every block not in HBM, whatever OFFSET and LENGTH name (R226, R236). -/
def runPromote (c : Nat) (s : State) (d : Desc) : State :=
  match s.obj? (placeObj d) with
  | none => s
  | some o =>
    let pin := bitOf (placeFlags d) 0
    let bs := if pin then List.range o.blocks else namedBlocks d o
    s.startPlace c d { obj := placeObj d, kind := 3, allowSlow := bitOf (placeFlags d) 1, left := bs.filter (fun b => !isHbm (o.frames.getD b 0) || s.moving (placeObj d) b), st := lowestStack (stackMaskOf o.stackMask.toNat) } pin

/-- PLACE PROMOTE (R226, R236). -/
def execPlacePromote (c : CtxId) (q : RingId) (p : Word) (s : State) : Host.Outcome State Fault Refusal :=
  .next (s.startDesc c q p (isPlace 3) (fun _ => false) (placeChk 3 c) (runPromote c))

/-- DEMOTE (R226, R235). -/
def runDemote (c : Nat) (s : State) (d : Desc) : State :=
  match s.obj? (placeObj d) with
  | none => s
  | some o => s.startPlace c d { obj := placeObj d, kind := 4, left := namedBlocks d o } false

/-- PLACE DEMOTE (R226, R235). -/
def execPlaceDemote (c : CtxId) (q : RingId) (p : Word) (s : State) : Host.Outcome State Fault Refusal :=
  .next (s.startDesc c q p (isPlace 4) (fun _ => false) (placeChk 4 c) (runDemote c))

/-- REHOME: the mask is set and the HBM blocks outside it move (R226, R228). -/
def runRehome (c : Nat) (s : State) (d : Desc) : State :=
  match s.obj? (placeObj d) with
  | none => s
  | some o =>
    let m := stackMaskOf (d.num 40 2)
    let s1 := s.setObj (placeObj d) { o with stackMask := BitVec.ofNat 16 m }
    let bs := (List.range o.blocks).filter (fun b => isHbm (o.frames.getD b 0) && !m.testBit (stackOf (o.frames.getD b 0)))
    s1.startPlace c d { obj := placeObj d, kind := 5, left := bs, st := lowestStack m } false

/-- PLACE REHOME (R226, R228). -/
def execPlaceRehome (c : CtxId) (q : RingId) (p : Word) (s : State) : Host.Outcome State Fault Refusal :=
  .next (s.startDesc c q p (isPlace 5) (fun _ => false) (placeChk 5 c) (runRehome c))

/-- SET_FLAGS (R226, R233). -/
def runSetFlags (c : Nat) (s : State) (d : Desc) : State :=
  ((s.touchObj (placeObj d)).modObj (placeObj d) (fun o =>
    { o with pin := bitOf (placeFlags d) 0, readOnly := bitOf (placeFlags d) 2 })).endDesc c d.ring d.pos (endOk 0)

/-- PLACE SET_FLAGS (R226). -/
def execPlaceSetFlags (c : CtxId) (q : RingId) (p : Word) (s : State) : Host.Outcome State Fault Refusal :=
  .next (s.startDesc c q p (isPlace 6) (fun _ => false) (placeChk 6 c) (runSetFlags c))

/-- LIFT returns a quarantined object to service; no effect on a live one (R249). -/
def runLift (c : Nat) (s : State) (d : Desc) : State :=
  ((s.touchObj (placeObj d)).modObj (placeObj d) (fun o =>
    if o.state = 3 then { o with state := 1, poisoned := false } else o)).endDesc c d.ring d.pos (endOk 0)

/-- PLACE LIFT (R249). -/
def execPlaceLift (c : CtxId) (q : RingId) (p : Word) (s : State) : Host.Outcome State Fault Refusal :=
  .next (s.startDesc c q p (isPlace 7) (fun _ => false) (placeChk 7 c) (runLift c))

/-- The frames of a released object return once every descriptor that had started before has completed (R227, R230). -/
def State.freeReleased (s : State) (id : Nat) : State :=
  match s.obj? id with
  | some o => if o.state = 2 ∧ (s.ctx o.ctx).allDone o.waits then s.dropObj id else s
  | none => s

/-- RELEASE_FRAMES_FREE (R227, R230). -/
def execReleaseFramesFree (obj : Nat) (s : State) : Host.Outcome State Fault Refusal := .next (s.freeReleased obj)

/-- The moves that a quarantine ended complete, and blocks in retired frames move where a frame is found (R226, R244, R248). -/
def State.settleHalted (s : State) : State := (State.settleMoves (s.jobCount + 1) s).moveRetired

/-- The moves that wait for a block that has switched go on. -/
def State.settleSwitched (s : State) (obj blk : Nat) : State :=
  { s with ctxs := s.ctxs.map (fun (x : Nat × Ctx) => (x.1, x.2.switched obj blk)) }.settleHalted

/-- A move in progress waits for the block. -/
def Ctx.fliesBlock (x : Ctx) (obj blk : Nat) : Bool :=
  x.pfJobs.any (fun j => j.obj == obj && j.flight.contains blk) || x.descs.any (fun d => match d.work with
    | .place r => r.job.obj == obj && r.job.flight.contains blk
    | _ => false)

/-- The copy of a moving block ends and the block switches to its new frame (R229, R236). Where a write that waited had the block switch
before, the moves that wait for it go on. -/
def State.switchMig (s : State) (obj blk : Nat) : State :=
  match s.mem.migs.find? (fun m => m.obj == obj && m.blk == blk) with
  | none => if s.ctxs.any (fun x => x.2.fliesBlock obj blk) then s.settleSwitched obj blk else s
  | some m => if !s.migReady m then s else (s.switchBlock m).settleSwitched obj blk

/-- MIGRATION_SWITCH (R229). -/
def execMigrationSwitch (obj blk : Nat) (s : State) : Host.Outcome State Fault Refusal := .next (s.switchMig obj blk)

/-- FRAME_CLEARED: a cleared frame is free (R230), for a block that a retired frame still backs too (R244). -/
def execFrameCleared (frame : Nat) (s : State) : Host.Outcome State Fault Refusal :=
  .next { s with mem := { s.mem with clearing := s.mem.clearing.filter (fun f => f != frame) } }.moveRetired

/-- A program field of a plan step (R240). -/
def planProg (w : Nat) : Option Nat := if bitOf w 31 then none else some (w % 2 ^ 20)

/-- Whether a step record is as R240 gives: its programs are none or in the range of the context, its items among the plan's. -/
def State.planStepOk (s : State) (c items : Nat) (r : List Byte) : Bool :=
  let progOk (w : Nat) : Bool := fld w 20 11 == 0 && (bitOf w 31 || s.inRange c (w % 2 ^ 20))
  progOk (recNat r 0 4) && progOk (recNat r 4 4) && decide (recNat r 12 2 ≤ 65534)
    && (recNat r 12 2 == 0 || decide (recNat r 8 4 + recNat r 12 2 ≤ items))

/-- Whether an item record is as R240 gives; a WARM item is at most 16 MiB long. Reserved bits of ROLE are checked in an OFFLOAD item too
(log 121). -/
def State.planItemOk (s : State) (c : Nat) (r : List Byte) : Bool :=
  let w := recNat r 0 4
  let len := recNat r 16 8
  let whole := ((s.obj? (w % 2 ^ 20)).map (fun o => o.size - recNat r 8 8)).getD 0
  w / 2 ^ 20 == 0 && s.inRange c w && decide (1 ≤ recNat r 4 1 ∧ recNat r 4 1 ≤ 3) && decide (recNat r 5 1 < 4) && recNat r 6 2 == 0
    && recNat r 8 8 % blockBytes == 0 && len % blockBytes == 0 && recNat r 24 8 == 0
    && (recNat r 4 1 != 2 || decide ((if len = 0 then whole else len) ≤ 2 ^ 24))

/-- Records of n bytes. -/
def records (n count : Nat) (bs : List Byte) : List (List Byte) := (List.range count).map (fun i => (bs.drop (n * i)).take n)

/-- The checks of PREFETCH_PLAN (R239). -/
def planChk (c : Nat) (s : State) (d : Desc) : Chk :=
  { reserved := [(34, 30)]
    reservedBits := [(decide (2 ≤ d.num 33 1), 33)]
    format := [badRef d 16, (d.num 16 8 % 16 != 0, 16), allOnes d 24 4,
      (decide (d.num 24 4 < 16 * d.num 28 2 + 32 * d.num 30 2), 24), (decide (4096 < d.num 28 2), 28), (decide (65534 < d.num 30 2), 30),
      (decide (d.num 32 1 = 0 ∨ 8 < d.num 32 1), 32)]
    bounds := [(decide ((s.resolve c (d.num 16 8)).extent < d.num 24 4), 24)]
    zero := d.num 28 2 == 0
    state := (s.ctx c).plan.isSome && !bitOf (d.num 33 1) 0 }

/-- PREFETCH_PLAN copies its plan (R239, R240). -/
def runPlan (c : Nat) (s : State) (d : Desc) : State :=
  let nst := d.num 28 2
  let nit := d.num 30 2
  let s := s.touchRefs c [d.num 16 8]
  let g := s.readTarget c (s.resolve c (d.num 16 8)) (16 * nst + 32 * nit)
  match g.stop with
  | some st => (s.reachTarget (s.resolve c (d.num 16 8)) (16 * nst + 32 * nit)).endDesc c d.ring d.pos { status := st, result := dword g.data.length }
  | none =>
    let sr := records 16 nst g.data
    let ir := records 32 nit (g.data.drop (16 * nst))
    if sr.all (s.planStepOk c nit) && ir.all (s.planItemOk c) then
      let plan : PfPlan :=
        { steps := sr.map (fun r => ⟨planProg (recNat r 0 4), planProg (recNat r 4 4), recNat r 8 4, recNat r 12 2, recNat r 14 2⟩)
          items := ir.map (fun r => ⟨recNat r 0 4, recNat r 4 1, bitOf (recNat r 5 1) 0, bitOf (recNat r 5 1) 1, recNat r 8 8, recNat r 16 8⟩)
          lead := d.num 32 1 }
      (s.modCtx c (fun x => { x with plan := some plan, pfJobs := x.pfJobs.map (fun j => { j with item := none }) })).endDesc c d.ring d.pos (endOk 0)
    else s.endDesc c d.ring d.pos (endField stFormat 16)

/-- PREFETCH_PLAN (R239). -/
def execPrefetchPlan (c : CtxId) (q : RingId) (p : Word) (s : State) : Host.Outcome State Fault Refusal :=
  .next (s.startDesc c q p (fun d => d.opcode == 7) (fun _ => false) (planChk c) (runPlan c))

end Sys2Proof.Machine
end

