-- ==== Sys2Proof/Machine/MemCmd.lean ====
section
/-!
DEFINITION. The BAR4 window (R222) and the writes of the memory registers that R223, R232 and R250 guard.
-/
namespace Sys2Proof.Machine

/-- A register access before stage 4 outside GLB, SEC and the mailbox is discarded and counted (R50). -/
def State.whenUp (s : State) (f : State → State) : State := if s.chip.stage = 4 then f s else s.countErr

/-- A register that only physical function 0 reaches (R81). -/
def State.ownerWrite (s : State) (f : Func) (g : State → State) : State := if f = .pf then s.whenUp g else s

/-- A write of a register that only the owner writes, in a CTX page, which a virtual function reaches too (R50, R81, R84). -/
def State.pageWrite (s : State) (f : Func) (g : State → State) : State := s.whenUp (fun s => if f = .pf then g s else s)

def State.setCfgErr (s : State) : State := { s with mem := { s.mem with cfgErr := true } }

/-- Unified address of BAR4 offset 0: low bits of BASE not meeting the BAR4 size are ignored (R222). -/
def State.winBase (s : State) : Nat := let b := fld (s.reg rMemWin) 0 52
  b - b % s.mem.barW

/-- The parts of an access in each block. -/
def blockParts (a n : Nat) : List (Nat × Nat) :=
  let k := blockBytes - a % blockBytes
  if n ≤ k then [(a, n)] else [(a, k), (a + k, n - k)]

/-- One part of a BAR4 read: its bytes, whether it met poison (R222). -/
def State.winRead (s : State) (a n : Nat) : State × List Byte × Bool :=
  match s.objAt a with
  | none => (s.countErr, List.replicate n 0xFF#8, false)
  | some (id, _) =>
    let g := s.devRead a n
    ((s.reach a n).touchObj id, g.data ++ List.replicate (n - g.data.length) 0xFF#8, g.stop.isSome)

/-- BAR4_READ (R222). -/
def execBar4Read (off n : Nat) (s : State) : Host.Outcome State Fault Refusal :=
  .next (if s.chip.stage ≠ 4 ∨ s.mem.barW ≤ off then s.countErr.emit (.readData (List.replicate n 0xFF#8)) else
    let r := (blockParts (s.winBase + off) n).foldl (fun (x : State × List Byte × Bool) p =>
      let y := x.1.winRead p.1 p.2
      (y.1, x.2.1 ++ y.2.1, x.2.2 || y.2.2)) (s, [], false)
    if r.2.2 then r.1.emit .poisonedTlp else r.1.emit (.readData r.2.1))

/-- One part of a BAR4 write (R222). -/
def State.winWrite (s : State) (a : Nat) (bs : List Byte) : State :=
  match s.objAt a with
  | none => s.countErr
  | some (id, o) => if o.readOnly then s.countErr else (s.devWrite a bs).touchObj id

/-- BAR4_WRITE (R222). -/
def execBar4Write (off : Nat) (data : List Byte) (s : State) : Host.Outcome State Fault Refusal :=
  .next (if s.chip.stage ≠ 4 ∨ s.mem.barW ≤ off then s.countErr else
    (blockParts (s.winBase + off) data.length).foldl (fun s p =>
      s.winWrite p.1 ((data.drop (p.1 - (s.winBase + off))).take p.2)) s)

/-- A frame of slow-tier region n backs a block (R250). -/
def State.regionInUse (s : State) (n : Nat) : Bool :=
  s.usedFrames.any (fun f => decide (s.slowFirst n ≤ f) && decide (f < s.slowFirst n + s.slowFrames n))

/-- Regions with their frames renumbered after region n changes to `size` bytes (R219). -/
def State.renumber (s : State) (n size : Nat) : State :=
  let cut := s.slowFirst n + s.slowFrames n
  let old := s.slowFrames n
  let move := fun (f : Nat) => if cut ≤ f then f - old + size / blockBytes else f
  { s with mem := { s.mem with
    objs := s.mem.objs.map (fun (o : Nat × Obj) => (o.1, { o.2 with frames := o.2.frames.map move }))
    migs := s.mem.migs.map (fun m => { m with frame := move m.frame }) } }

/-- Writing SIZE puts base and size in force, or is discarded with CFG_ERR (R250). -/
def State.writeSlowSize (s : State) (n : Nat) (v : DWord) : State :=
  let size := v.toNat % 2 ^ 45
  let base := s.reg (rSlowBase n)
  let others := (List.range 16).filter (fun k => k != n)
  let total := (others.map (fun k => s.reg (rSlowSize k))).sum + size
  let clash := decide (0 < size) && others.any (fun k => decide (0 < s.reg (rSlowSize k)) && decide (base < s.slowIova k + s.reg (rSlowSize k)) && decide (s.slowIova k < base + size))
  if s.regionInUse n || size % blockBytes != 0 || decide (2 ^ 44 < total) || clash then s.setCfgErr else
    let s1 := (s.renumber n size).setReg (rSlowSize n) size
    { s1 with mem := { s1.mem with slowBase := s1.mem.slowBase.set n (dword base) } }

/-- MEM_SLOW_SIZE_n (R250). -/
def execMemSlowSizeWrite (f : Func) (n : Fin 16) (v : DWord) (s : State) : Host.Outcome State Fault Refusal :=
  .next (s.ownerWrite f (fun s => s.writeSlowSize n v))

/-- MEM_SLOW_BASE_n: held until the size is written, or discarded with CFG_ERR (R250). -/
def State.writeSlowBase (s : State) (n : Nat) (v : DWord) : State :=
  if s.regionInUse n then s.setCfgErr else s.setReg (rSlowBase n) (v.toNat / blockBytes * blockBytes)

/-- MEM_SLOW_BASE_n (R250). -/
def execMemSlowBaseWrite (f : Func) (n : Fin 16) (v : DWord) (s : State) : Host.Outcome State Fault Refusal :=
  .next (s.ownerWrite f (fun s => s.writeSlowBase n v))

/-- Two ranges share a number. -/
def rangesMeet (b1 n1 b2 n2 : Nat) : Bool := decide (0 < n1) && decide (0 < n2) && decide (b1 < b2 + n2) && decide (b2 < b1 + n1)

/-- MEM_CTX_OBJ_RANGE is set, or discarded with CFG_ERR (R223). -/
def State.writeObjRange (s : State) (c : Nat) (v : DWord) : State :=
  let b := fld v.toNat 0 19
  let n := fld v.toNat 32 20
  let bad := decide (524288 < b + n) || allCtxs.any (fun k => k != c && rangesMeet b n (fld (s.reg (rObjRange k)) 0 19) (fld (s.reg (rObjRange k)) 32 20))
    || (s.ctxObjs c).any (fun o => decide (o.1 < b ∨ b + n ≤ o.1))
  if bad then s.setCfgErr else s.setReg (rObjRange c) (b + n * 2 ^ 32)

/-- MEM_CTX_OBJ_RANGE (R223). -/
def execMemCtxObjRangeWrite (f : Func) (c : CtxId) (v : DWord) (s : State) : Host.Outcome State Fault Refusal :=
  .next (s.ownerWrite f (fun s => s.writeObjRange c v))

/-- MEM_CTX_FLOOR is set, or discarded with CFG_ERR if it would raise the floors past the pool (R232); a write that lowers a floor is
taken while the sum still passes a pool that retirement has shrunk (R237; log 121). -/
def State.writeFloor (s : State) (c : Nat) (v : Word) : State :=
  let n := fld v.toNat 0 20
  if s.floor c < n ∧ s.poolSize < s.floorSum - s.floor c + n then s.setCfgErr else s.setReg (rFloor c) n

/-- MEM_CTX_FLOOR (R232). -/
def execMemCtxFloorWrite (f : Func) (c : CtxId) (v : Word) (s : State) : Host.Outcome State Fault Refusal :=
  .next (s.ownerWrite f (fun s => s.writeFloor c v))

end Sys2Proof.Machine
end

