-- ==== Sys2Proof/Machine/CtxOps.lean ====
section
/-!
DEFINITION. The life of a context (R82 to R93, R106, R107, R113): completion records and interrupts, RUN and its table reads (R281,
R341), doorbells, and a context reset.
-/
namespace Sys2Proof.Machine

/-- Records the completion ring holds (R86). -/
def State.cqSize (s : State) (c : Nat) : Nat := 2 ^ (min (fld (s.reg (rCqCfg c)) 0 4) 10 + 6)
def State.cqOn (s : State) (c : Nat) : Bool := bitOf (s.reg (rCqCfg c)) 15
def State.ringOn (s : State) (c q : Nat) : Bool := bitOf (s.reg (rRingCfg c q)) 31
def State.ringSize (s : State) (c q : Nat) : Nat := 2 ^ (min (fld (s.reg (rRingCfg c q)) 0 4) 10 + 6)

/-- PHASE of the record of a produced count (R91). -/
def phaseOf (produced size : Nat) : Bool := (produced / size) % 2 == 0

/-- The 32 bytes of a record with PHASE and EPOCH, which are those of its writing (R91, R100). -/
def recBytes (r : Rec) (phase : Bool) (epoch : Half) : List Byte :=
  r.bytes.take 12 ++ [(r.bytes.getD 12 0#8) ||| (if phase then 0x80#8 else 0#8)] ++ (r.bytes.drop 13).take 5 ++ leBytes 2 epoch.toNat ++ r.bytes.drop 20

/-- A record was written: the completion vector is raised for IRQ or after COAL_COUNT records (R93). -/
def State.recWritten (s : State) (c : Nat) (irq : Bool) : State :=
  let cfg := s.reg (rCqCfg c)
  let n := (s.ctx c).coalN + 1
  if irq ∨ atLeast1 (fld cfg 24 8) ≤ n then (s.modCtx c (fun x => { x with coalN := 0 })).raiseVec c (fld cfg 8 5)
  else s.modCtx c (fun x => { x with coalN := n })

/-- Whether held records may be written: the ring is on and has a free slot, a path is up, and no record write has failed since the last
RESUME (R92, R106, R113). -/
def State.cqReady (s : State) (c : Nat) : Bool :=
  let x := s.ctx c
  s.cqOn c && decide (x.produced < x.consumed + s.cqSize c) && s.pathUp x.func && !x.cqHold

/-- Writes held records in order while the ring takes them; the fuel is their number (R91, R92). With two live paths HOST_A is the home
port, and a zero-length read on HOST_B goes first (R80). -/
def State.pumpRecords : Nat → State → Nat → State
  | 0, s, _ => s
  | n + 1, s, c =>
    let x := s.ctx c
    match x.held with
    | [] => s
    | r :: rest =>
      if !s.cqReady c then s else
        let a := s.reg (rCqBase c) + 32 * (x.produced % s.cqSize c)
        let bs := recBytes r (phaseOf x.produced (s.cqSize c)) x.epoch
        if (firstHit (s.denied x.func) a 32).isSome then (s.modCtx c (fun x => { x with cqHold := true })).ctxFault c 4 a
        else
          let s0 := if s.twoPaths x.func then s.emit (.zeroRead .b x.func) else s
          let s1 := (s0.hostWrite x.func a bs).1
          let s2 := (s1.modCtx c (fun x => { x with held := rest, produced := x.produced + 1 })).recWritten c r.irq
          State.pumpRecords n s2 c

def State.flushRecords (s : State) (c : Nat) : State := State.pumpRecords (s.ctx c).held.length s c

/-- The record of a descriptor that ends now (R100, R101). -/
def State.recOf (s : State) (d : Desc) (e : Ending) : Rec :=
  { bytes := leBytes 8 d.tag ++ leBytes 4 d.pos ++ [byte d.ring, e.status] ++ leBytes 2 e.secondary.toNat ++ leBytes 2 e.unit.toNat ++ leBytes 2 0 ++
      leBytes 4 (if d.start.isSome then min (s.sinceStartNs d / 1000) 0xFFFFFFFF else 0) ++ leBytes 8 e.result.toNat
    irq := d.irq }

/-- A doorbell publishes descriptors, or faults the context (R87, R88). -/
def State.publish (s : State) (c q : Nat) (v : Word) : State :=
  let x := s.ctx c
  let r := x.rings.get {} q
  let n := (v - word r.published).toNat
  if n = 0 then s
  else if s.ringSize c q < r.published - r.fetched + n then s.ctxFault c 2 (q * 2 ^ 32 + v.toNat)
  else
    let snap := (List.range 16).map (fun k => (x.rings.get {} k).published)
    s.setCtx c { x with rings := x.rings.set q { r with published := r.published + n, pubs := r.pubs ++ [(r.published + n, snap)] } }

/-- Stored doorbell values are taken as writes made on entering Active (R87). -/
def State.takeStored (c : Nat) : List Nat → State → State
  | [], s => s
  | q :: qs, s =>
    match ((s.ctx c).rings.get {} q).stored with
    | none => State.takeStored c qs s
    | some v =>
      if (s.ctx c).state ≠ .active then s else
        let s1 := s.modCtx c (fun x => { x with rings := x.rings.mod {} q (fun r => { r with stored := none }) })
        State.takeStored c qs (if s.ringOn c q then s1.publish c q v else s1.countErr)

def State.enterActive (s : State) (c : Nat) : State :=
  State.takeStored c (List.range 16) (s.modCtx c (fun x => { x with state := .active }))

/-- The invalid ring of a context's configuration: 16 for the completion ring (R86, R106). A context with no enabled ring names
none; the value is free (log 19). -/
def State.badRing (s : State) (c : Nat) : Option Nat :=
  let cq := s.reg (rCqCfg c)
  if !s.cqOn c || decide (fld cq 8 5 < 2) || decide (10 < fld cq 0 4) || s.reg (rCqBase c) % 4096 != 0 then some 16 else
    match (List.range 16).find? (fun q => s.ringOn c q && (decide (10 < fld (s.reg (rRingCfg c q)) 0 4) || s.reg (rRingBase c q) % 4096 != 0)) with
    | some q => some q
    | none => if (List.range 16).any (s.ringOn c) then none else some (s.free.toNat % 32)

/-- One queue record (R281): none for an unused queue, an error for an invalid one. -/
def State.queueRec (s : State) (c : Nat) (r : List Byte) : Except Unit (Option QueueSt) :=
  let role := recNat r 2 1
  let sb := recNat r 4 4
  let slots := recNat r 3 1
  let buf := recNat r 8 8
  if role = 0 then .ok none
  else if 2 < role ∨ 4096 ≤ recNat r 0 2 ∨ slots = 0 ∨ sb % 4096 ≠ 0 ∨ sb = 0 ∨ 2 ^ 26 < sb ∨ (role = 1 ∧ buf ≠ 0)
      ∨ (role = 2 ∧ (s.resolve c buf).extent < slots * sb) then .error ()
  else .ok (some { peer := recNat r 0 2, role := role, slots := slots, slotBytes := sb, buf := dword (s.pinRef c buf) })

/-- Two copies of one queue record. -/
def sameQueue (a b : QueueSt) : Bool := a.peer == b.peer && a.role == b.role && a.slots == b.slots && a.slotBytes == b.slotBytes && a.buf == b.buf

/-- Opens queue q: a consumer grants its SLOTS credits, a producer has those that came before (R282). A queue that is open with the same
record stays as it is. -/
def State.openQueue (s : State) (c q : Nat) (n : Option QueueSt) : State :=
  match n with
  | none => s.modCtx c (fun x => { x with queues := x.queues.erase q })
  | some n =>
    if ((s.ctx c).queues.find? q).any (sameQueue n) then s else
      let s1 := s.modCtx c (fun x => { x with
        queues := x.queues.set q { n with credits := if n.role = 1 then x.slotCredits.get 0 q else 0 }
        slotCredits := x.slotCredits.erase q })
      if n.role = 2 then s1.sendCtrl c n.peer q 0 (.slotCredit n.slots) else s1

/-- Reads the queue table (R281), 0 naming none; none if a record or the read fails. -/
def State.readQueues (s : State) (c : Nat) : Option State :=
  let ref := s.reg (rQueueBase c)
  if ref = 0 then some (s.modCtx c (fun x => { x with queues := [] })) else
    match (if ref % 16 = 0 then s.readRef c ref 0 1024 else none) with
    | none => none
    | some bs =>
      ((records 16 64 bs).zipIdx).foldl (fun st r =>
        match st with
        | none => none
        | some s => (match s.queueRec c r.1 with
          | .ok n => some (s.openQueue c r.2 n)
          | .error _ => none)) (some s)

/-- Length of the commit word (R353). -/
def commitLen (clip : Nat) : Nat := if clip = 2 then 16416 else 32

/-- Whether trigger records are valid (R341, R342). -/
def trigRecOk (r : List Byte) : Bool :=
  recNat r 0 4 / 2 ^ 20 == 0 && recNat r 4 4 / 2 ^ 20 == 0 && recNat r 8 2 != 0 && decide (recNat r 10 2 < 4096) && decide (recNat r 12 1 < 2) && recNat r 13 3 == 0

def trigOf (r : List Byte) : TrigEntry :=
  { prog := recNat r 0 4, gradObj := recNat r 4 4, fireAfter := recNat r 8 2, layer := recNat r 10 2, norm := bitOf (recNat r 12 1) 0 }

/-- No two entries name the same GRAD_OBJ. -/
def distinctObjs : List TrigEntry → Bool
  | [] => true
  | e :: es => !es.any (fun f => f.gradObj == e.gradObj) && distinctObjs es

/-- Reads the trigger table when RUN is set; none if R341 refuses it. -/
def State.readTrig (s : State) (c : Nat) : Option State :=
  let cfg := s.reg (rTrigCfg c)
  let n := fld cfg 0 13
  let clip := fld cfg 30 2
  let max := word (s.reg (rClipMax c))
  let eps := word (s.reg (rClipEps c))
  if clip = 3 ∨ 4096 < n then none
  else if clip ≠ 0 ∧ ((s.resolve c (s.reg (rCommitOut c))).extent < commitLen clip ∨ !isFinite max ∨ signOf max ∨ isZero max
      ∨ !isFinite eps ∨ (signOf eps && !isZero eps)) then none
  else
    match (if n = 0 then some [] else if s.reg (rTrigBase c) % 16 = 0 then s.readRef c (s.reg (rTrigBase c)) 0 (16 * n) else none) with
    | none => none
    | some bs =>
      let rs := records 16 n bs
      let es := rs.map trigOf
      if rs.all trigRecOk && distinctObjs es && (!es.any (fun e => e.norm) || decide (32 * n ≤ (s.resolve c (s.reg (rNormBase c))).extent))
      then some (s.modCtx c (fun x => { x with trig := es })) else none

/-- RUN at 1 in Idle: to Active, or to Faulted with RING_CFG and RUN cleared (R85, R106). -/
def State.tryRun (s : State) (c : Nat) : State :=
  let fail := fun (s : State) (ring : Nat) => (s.modCtx c (fun x => { x with run := false })).ctxFault c 5 (ring * 2 ^ 32)
  match s.badRing c with
  | some q => fail (if q = 16 ∨ s.ringOn c q then s else s.bump) q
  | none =>
    match s.readQueues c with
    | none => fail (s.reachTarget (s.resolve c (s.reg (rQueueBase c))) 1024) 31
    | some s1 =>
      match s1.readTrig c with
      | none => fail (s.reachTarget (s.resolve c (s.reg (rTrigBase c))) (16 * fld (s.reg (rTrigCfg c)) 0 13)) 31
      | some s2 => s2.enterActive c

/-- The context reaches Idle; its trigger table copy ends (R341), and with RUN at 1 it goes on (R85). -/
def State.toIdle (s : State) (c : Nat) : State :=
  let s1 := s.modCtx c (fun x => { x with state := .idle, trig := [] })
  if (s1.ctx c).run then s1.tryRun c else s1

/-- A stopping context with nothing fetched is Idle (R85). -/
def State.settleStop (s : State) (c : Nat) : State :=
  if (s.ctx c).state == .stopping && (s.ctx c).descs.isEmpty then s.toIdle c else s

/-- A tile's state as it powers up from Off: store zero (R71), R436, performance counts cleared (R431); its health counts are kept. -/
def Tile.powerUp (t : Tile) (sleep : Sleep) : Tile :=
  { sleep := sleep
    slice := t.slice
    sliceNext := t.sliceNext
    mx := { voteReg := t.mx.voteReg, blocks := t.mx.blocks, skipped := t.mx.skipped, mismatch := t.mx.mismatch, arrayEv := t.mx.arrayEv, chkEv := t.mx.chkEv, undecEv := t.mx.undecEv, undec := t.mx.undec, chkFenced := t.mx.chkFenced, arrayFenced := t.mx.arrayFenced, undecFenced := t.mx.undecFenced } }

/-- A tile of a context that has been reset: store, accumulators, scoreboard and prep memories cleared, R436, nothing queued; all else
stays (R72, R107, R175). -/
def Tile.ctxClear (t : Tile) : Tile :=
  { t with
    store := []
    mx := { t.mx with acc := [], sel := [], active := {}, shadow := none, score := 0#32, queue := [], passes := [], drains := [], vote := none }
    seq := { evSat := t.seq.evSat, nextId := t.seq.nextId }
    vec := []
    dma := []
    prep := []
    races := []
    writes := []
    tags := []
    clusters := t.clusters.map (fun (x : Nat × Cluster) => (x.1,
      { cores := x.2.cores.map (fun (k : Nat × Core) => (k.1, { k.2 with running := false, puts := [], priv := [] })) })) }

/-- A tile that leaves its mask passes through Off (R71); with OFF_EN at 0 it then stays powered. -/
def State.leaveMask (s : State) (t : Nat) : State :=
  s.modTile t (fun x => x.powerUp (if bitOf (s.reg rSleepCtl) 25 then .off else .gated))

/-- Registers of a CTX page that the owner sets and a context reset keeps: the Tollgate's (R84, R107). -/
def ownerReg (off : Nat) : Bool := decide (0xA20 ≤ off % 0x1000 ∧ off % 0x1000 < 0xA30)

/-- Returns the tenant-written registers of a context to their reset values (R107, R361). -/
def State.clearCtxRegs (s : State) (c : Nat) : State :=
  { s with
    regs := s.regs.filter (fun r =>
      !(decide (ctxPage c ≤ r.1 ∧ r.1 < ctxPage c + 0x1000) && !ownerReg r.1) && !decide (trnPage c ≤ r.1 ∧ r.1 < trnPage c + 0x200))
    latches := s.latches.filter (fun r => !decide (ctxPage c ≤ r.1 ∧ r.1 < ctxPage c + 0x1000) && !decide (trnPage c ≤ r.1 ∧ r.1 < trnPage c + 0x200)) }

/-- A context reset is requested: the context fetches nothing more and its work ends at safe points (R107, R376). -/
def State.resetCtx (s : State) (c : Nat) : State :=
  if (s.ctx c).state == .resetting then s else
    let me := (s.ctx c).pair.elim 0 (fun p => p.me)
    let s1 := (s.turnFail c stAborted me).endTurn c stAborted me 6
    let s2 := s1.modCtx c (fun x => { x with state := .resetting, mile := { x.mile with commit := none } })
    (s2.ctx c).descs.foldl (fun s d => if d.start.isNone ∨ d.ending.isSome then s else
      match d.work with
      | .commit => s.endDesc c d.ring d.pos (endWith stAborted)
      | _ => s.cancelWork c d stAborted) s2

/-- What a context keeps through a reset: its owner's settings, its Tollgate level, and the counts and records of its read-only registers
that R107 does not name, CTX_CQ_PRODUCED and CTX_RING_FETCHED_q among them, which start from 0 when their ring is enabled (R72, R86, R107;
log 47). -/
def Ctx.afterReset (x : Ctx) (f : Func) (linkHold : Bool) : Ctx :=
  { state := if x.enable then .idle else .off
    func := f
    enable := x.enable
    pmcRead := x.pmcRead
    cause := x.cause
    faultInfo := x.faultInfo
    staleDrop := x.staleDrop
    rings := x.rings.map (fun (r : Nat × Ring) => (r.1, { published := r.2.fetched, fetched := r.2.fetched }))
    produced := x.produced
    consumed := x.consumed
    pfLate := x.pfLate
    pfSkipped := x.pfSkipped
    pmcLost := x.pmcLost
    maskErr := x.maskErr
    mask := x.mask
    maskLatch := x.maskLatch
    linkHold := linkHold
    rollout := { level := x.rollout.level, carry := x.rollout.carry } }

/-- The end of a context reset, but for its vector (R107): records of the descriptors left, stores, objects, sequences, registers. -/
def State.clearCtx (s : State) (c : Nat) : State :=
  let s1 := (s.ctx c).descs.foldl (fun s d =>
    s.modCtx c (fun x => { x with held := x.held ++ [s.recOf d (d.ending.getD (endWith stAborted))], descs := [] })) s
  let s2 := s1.flushRecords c
  let x := s2.ctx c
  let gone := fun (g : Signal) => x.mask.toNat.testBit g.src || x.mask.toNat.testBit g.dst
  let s3 := (bitList x.mask.toNat 96).foldl (fun s t => s.modTile t Tile.ctxClear)
    { s2 with fabric := { s2.fabric with signals := s2.fabric.signals.filter (fun g => !gone g) } }
  let s4 := (s3.ctxObjs c).foldl (fun s o => s.dropObj o.1) s3
  let lr := s4.reg (rLedgerRange c)
  let sr := s4.reg (rSeqRange c)
  let s5 := { s4 with
    mem := { s4.mem with adapters := s4.mem.adapters.filter (fun a => a.ctx != c), handles := s4.mem.handles.filter (fun h => h.ctx != c) }
    ledger := {
      entries := s4.ledger.entries.filter (fun e => !(decide (fld lr 0 32 ≤ e.1) && decide (e.1 < fld lr 0 32 + fld lr 32 32)))
      seqs := s4.ledger.seqs.filter (fun e => !(decide (fld sr 0 32 ≤ e.1) && decide (e.1 < fld sr 0 32 + fld sr 32 32))) } }
  let s6 := s5.clearCtxRegs c
  let f := s6.funcOf c
  s6.modCtx c (fun x => x.afterReset f (!s6.pathUp f))

/-- The end of a context reset (R107): vector 1, then Idle or Off. -/
def State.resetDone (s : State) (c : Nat) : State := (s.clearCtx c).raiseVec c 1

end Sys2Proof.Machine
end

