-- ==== Sys2Proof/Machine/Milepost.lean ====
section
/-!
DEFINITION. MILEPOST (R387 to R397), the checks and digests of COMMIT (R391, R402, R403), the commit reduction (R350 to R353, R393)
and the frames of the Milepost.
-/
namespace Sys2Proof.Machine

def isMilepost (op : Nat) (d : Desc) : Bool := d.opcode == 0x0C && d.num 16 1 == op

/-- The group of a number if its record is valid. -/
def State.group? (s : State) (c g : Nat) : Option Group :=
  match s.readGroup c g with
  | .ok x => some x
  | .error _ => none

/-- The checks of a MILEPOST (R102, R388, R389). -/
def mileChk (op c : Nat) (s : State) (d : Desc) : Chk :=
  let m := (s.ctx c).mile
  let step := dword (d.num 24 8)
  { reserved := [(17, 1), (32, 32)]
    format := [(if op = 1 then decide (255 < d.num 18 2) || (s.group? c (d.num 18 2)).isNone else d.num 18 2 != 0, 18),
      (op != 1 && d.num 20 4 != 0, 20), (step == 0#64, 24)]
    expelled := m.state == 6
    state := match op with
      | 1 => !(m.state == 1 || m.state == 4) || step != m.step || word (d.num 20 4) != m.expected
          || (s.ctx c).pair.any (fun p => p.phase == 2 || p.phase == 3)
      | 2 => !((m.state == 2 || m.state == 3) && step == m.step) && !(m.state == 4 && step == m.failedStep)
      | _ => !((m.state == 2 || m.state == 3 || m.state == 5) && step == m.step) || (m.state == 3 && m.commit.any (fun r => r.contributed)) }

/-- Stamps the norm records of the entries with NORM: STEP, and zero for SHARD_SQ and NONFINITE (R348). -/
def State.stampNorms (s : State) (c : Nat) (step : DWord) : State :=
  ((s.ctx c).trig.zipIdx).foldl (fun s e =>
    if e.1.norm then s.writeRef c (s.reg (rNormBase c)) (32 * e.2) (leBytes 8 step.toNat ++ leBytes 8 0) else s) s

/-- The status of a norm record that cannot be stamped (R226). -/
def State.stampFails (s : State) (c : Nat) (step : DWord) : Option Byte :=
  ((s.ctx c).trig.zipIdx).findSome? (fun e =>
    if e.1.norm then s.writeRefFails c (s.reg (rNormBase c)) (32 * e.2) (leBytes 8 step.toNat ++ leBytes 8 0) else none)

/-- At the OPEN of a repeat a producer sends a flush marker and waits for its credits; a consumer waits for the marker, unless it has come
before (R397). -/
def State.flushQueues (s : State) (c : Nat) : State :=
  (s.ctx c).queues.foldl (fun s q =>
    if q.2.role = 1 then (s.modQueue c q.1 (fun x => { x with credits := 0 })).sendCtrl c q.2.peer q.1 q.2.next .flush
    else s.modQueue c q.1 (fun x => { x with flushing := !x.marked, marked := false })) s

/-- OPEN: CTX_INTEG is cleared, the trigger counts are zeroed, the norm records stamped, and the step is open (R389); a repeat sweeps its
prefetch plan and empties its stage queues afresh (R241, R397). A norm record that cannot be written ends it, with no step open (R226; log
62). -/
def runOpen (c : Nat) (s : State) (d : Desc) : State :=
  match s.group? c (d.num 18 2) with
  | none => s
  | some g =>
    let attempt := word (d.num 20 4)
    let step := (s.ctx c).mile.step
    match s.stampFails c step with
    | some st => s.endDesc c d.ring d.pos { status := st, result := mileResult (s.ctx c).mile }
    | none =>
    let s1 := s.modCtx c (fun x => { x with
      integ := 0#64
      trig := x.trig.map (fun e => { e with count := 0, fired := false, normArmed := false, shardSq := 0#32, nonfinite := 0 })
      queues := x.queues.map (fun (q : Nat × QueueSt) => (q.1, { q.2 with openUs := x.stallOf s.time q.1 })) })
    let s2 := (s1.stampNorms c step).modMile c (fun m => { (m.keepOutcome step 4 attempt) with
      state := 2
      attempt := attempt
      group := d.num 18 2
      me := g.me
      ranks := g.ranks
      openStart := s1.nextStart
      badWork := false
      contribs := m.contribs.filter (fun k => k.2.step == step && k.2.attempt == attempt)
      tOpen := s1.time
      tLastFire := none
      staleAtOpen := (s1.ctx c).staleDrop })
    let s3 := if attempt = 0#32 then s2 else (s2.planRestart c).flushQueues c
    s3.endDesc c d.ring d.pos { status := stOk, result := mileResult (s3.ctx c).mile }

/-- MILEPOST OPEN (R389). -/
def execMilepostOpen (c : CtxId) (q : RingId) (p : Word) (s : State) : Host.Outcome State Fault Refusal :=
  .next (s.startDesc c q p (isMilepost 1) (fun _ => false) (mileChk 1 c) (runOpen c))

/-- V and P of R350: the slots, and their sum in ascending order. -/
def normSlots (es : List TrigEntry) : List Word :=
  let t := es.foldl (fun (t : Tab Word) e => if e.norm then t.set e.layer (fadd (t.get 0#32 e.layer) e.shardSq) else t) []
  (List.range 4096).map (fun l => t.get 0#32 l)

/-- This rank's contribution to the commit reduction (R350, R393). -/
def State.contribution (s : State) (c : Nat) : Contribution :=
  let x := s.ctx c
  let v := normSlots x.trig
  let p := v.foldl fadd 0#32
  { step := x.mile.step, attempt := x.mile.attempt, fail := false, cause := 0#8, failRank := 0, p := p
    v := if fld (s.reg (rTrigCfg c)) 30 2 = 2 then v else []
    nonfinite := x.trig.any (fun e => e.norm && e.nonfinite != 0) || !isFinite p
    digestsPass := x.mile.commit.any (fun r => r.formed) }


/-- D of TRN_MP_CTL: 0 acts as 1, 65 to 127 as 64. -/
def State.digestEvery (s : State) (c : Nat) : Nat := min (atLeast1 (fld (s.reg (rMpCtl c)) 0 7)) 64

/-- The addresses of the buddy and the successor of this rank in the shadow group. -/
def Group.buddy (g : Group) : Nat := g.ranks.getD ((g.me + g.ranks.length - 1) % g.ranks.length) 0
def Group.successor (g : Group) : Nat := g.ranks.getD ((g.me + 1) % g.ranks.length) 0

/-- The bytes of the replica, shard and shadow ranges (R402). -/
def State.digestBytesOf (s : State) (u : MpSetup) : List (List Byte) :=
  [u.replica, u.shard, u.shadow].map (fun l => (s.readSpans (s.rangeSpans l)).data)

/-- Whether a state block's header is as R407 gives; its length. -/
def blockOk (bs : List Byte) (step : DWord) : Bool :=
  let n := recNat bs 8 4
  recNat bs 0 8 == step.toNat && decide (64 ≤ n ∧ n ≤ 65536) && n % 64 == 0 && decide (recNat bs 12 2 ≤ 2046)
    && decide (64 + 32 * recNat bs 12 2 ≤ n)

/-- The clip coefficient of a squared norm (R351). -/
def clipCoef (max eps g2 : Word) : Word :=
  let q := fdiv max (fadd (fsqrt g2) eps)
  if fle f32One q then f32One else q

/-- The reduced values of a commit: G2 or G2[l] and N (R350, R393). -/
structure Reduced where
  g2 : Word
  slots : List Word
  nonfinite : Bool

/-- The commit reduction in rank order (R274, R393). -/
def reduceRanks (ks : List Contribution) : Reduced :=
  match ks with
  | [] => ⟨0#32, [], false⟩
  | k :: r =>
    { g2 := r.foldl (fun a x => fadd a x.p) k.p
      slots := r.foldl (fun a x => List.zipWith fadd a x.v) k.v
      nonfinite := ks.any (fun x => x.nonfinite) }

/-- The commit word (R353), its G2 and CLIP, and whether SKIP is set (R352). -/
def commitWord (mode : Nat) (max eps : Word) (step : DWord) (r : Reduced) : List Byte × Word × Word × Bool :=
  let g2 := if mode = 2 then r.slots.foldl fadd 0#32 else r.g2
  let skip := r.nonfinite || (if mode = 2 then r.slots.any (fun w => !isFinite w) || !isFinite g2 else !isFinite g2)
  let clip := if skip then 0#32 else if mode = 1 then clipCoef max eps g2 else f32One
  let flags := b2n skip + 2 * b2n (mode == 2) + 4 * b2n r.nonfinite
  (leBytes 8 step.toNat ++ leBytes 4 g2.toNat ++ leBytes 4 (fsqrt g2).toNat ++ leBytes 4 clip.toNat ++ leBytes 1 flags ++ leBytes 11 0 ++
    (if mode = 2 then (r.slots.map (fun w => leBytes 4 (if skip then 0#32 else clipCoef max eps w).toNat)).flatten else []), g2, clip, skip)

/-- The step commits: commit word, step record, TRN_MP_STEP, and the buddy's kept copies become final (R353, R360, R393, R407). COMMIT ends
with the status of a commit word or a state block that could not be written (R105, R226). -/
def State.commitStep (s : State) (c : Nat) (ks : List Contribution) : State :=
  let m := (s.ctx c).mile
  let mode := fld (s.reg (rTrigCfg c)) 30 2
  let w := commitWord mode (word (s.reg (rClipMax c))) (word (s.reg (rClipEps c))) m.step (reduceRanks ks)
  let quiet := mode = 0 ∧ s.reg (rCommitOut c) = 0
  let s1 := if quiet then s else s.writeRef c (s.reg (rCommitOut c)) 0 w.1
  let st := if quiet then none else s.writeRefFails c (s.reg (rCommitOut c)) 0 w.1
  let outcome := if w.2.2.2 then 2 else 1
  let s2 := s1.writeStepRecord c outcome w.2.1 w.2.2.1
  let keep := if m.block.isEmpty then none else m.setup
  let kept := keep.any (fun u => (s.obj? u.stateObj).any (fun o => o.readOnly))
  let s3 := match keep with
    | some u => if kept then s2 else s2.devWrite (s2.objBase u.stateObj + 65536) (m.block.readN 0 (min 65536 (m.block.readLE 8 4)))
    | none => s2
  let s4 := s3.modMile c (fun m => { (m.keepOutcome m.step outcome m.attempt) with
    state := 1
    last := m.step
    expected := 0#32
    commit := none
    replicaIn := []
    shadowIn := none
    contribs := []
    block := []
    blockSeen := [] })
  s4.endCommits c { status := st.getD (if kept then stAuth else stOk), result := mileResult m }

/-- The result of the commit reduction arrives; this rank's own entry is what it contributed (R350, R393). -/
def State.recvResult (s : State) (c : Nat) (ranks : List Contribution) : State :=
  let m := (s.ctx c).mile
  if m.state ≠ 3 ∨ !(m.commit.any (fun r => r.contributed)) ∨ ranks.length ≠ m.ranks.length then s else
    let ks := ranks.set m.me (s.contribution c)
    match (ks.zipIdx).find? (fun k => k.1.fail || k.1.step != m.step || k.1.attempt != m.attempt) with
    | some (k, r) => s.failStep c (if k.fail then k.cause else 0x0E#8) (if k.fail then k.failRank else r) false stRepeat
    | none => s.commitStep c ks

/-- The reduction's result once the contributions of all other ranks have come as frames (R393). -/
def State.tryResult (s : State) (c : Nat) : State :=
  let m := (s.ctx c).mile
  let others := otherRanks m.ranks m.me
  if others.isEmpty || others.any (fun r => !m.contribs.any (fun k => k.1 == r.1)) then s
  else s.recvResult c ((List.range m.ranks.length).map (fun r =>
    ((List.find? (fun (k : Nat × Contribution) => k.1 == r) m.contribs).map (fun (k : Nat × Contribution) => k.2)).getD (s.contribution c)))

/-- The contribution of another rank arrives (R393). -/
def State.recvContribution (s : State) (c rank : Nat) (x : Contribution) : State :=
  (s.modMile c (fun m => { m with contribs := (rank, x) :: m.contribs.filter (fun k => k.1 != rank) })).tryResult c

/-- Contributes to the commit reduction (R391 step 8). -/
def State.contribute (s : State) (c : Nat) : State :=
  let m := (s.ctx c).mile
  let k := s.contribution c
  (((otherRanks m.ranks m.me).foldl (fun s r => s.sendCtrl c r.2 m.group 0 (.contribution k)) s).modMile c (fun m =>
    { m with commit := m.commit.map (fun r => { r with contributed := true }) })).tryResult c

/-- Ranks whose replica digest differs from the one that more than half hold; none if no value is held by more than half (R403). -/
def digestVerdict (ds : List (Nat × BitVec 256)) : Option (List Nat) :=
  match commonest ds with
  | some v => if ds.length < 2 * (ds.filter (fun d => d.2 == v)).length then some ((ds.filter (fun d => d.2 != v)).map (fun d => d.1)) else none
  | none => some []

/-- Judges the digests once all are held (R403). -/
def State.judge (s : State) (c : Nat) : State :=
  let m := (s.ctx c).mile
  match m.commit, m.setup with
  | some r, some u =>
    if !r.formed ∨ r.contributed then s else
      let rep := if u.replicaGroup = 0xFFFF then none else s.group? c u.replicaGroup
      let missing := match rep with
        | some g => (otherRanks g.ranks g.me).any (fun k => !m.replicaIn.any (fun d => d.1 == k.1))
        | none => false
      let solo := match s.group? c u.shadowGroup with
        | some g => g.ranks.length == 1
        | none => true
      if missing || (!solo && m.shadowIn.isNone) then s else
        let verdict := match rep with
          | some g => digestVerdict ((List.range g.ranks.length).map (fun k =>
              (k, if k = g.me then r.replica else ((List.find? (fun (d : Nat × BitVec 256) => d.1 == k) m.replicaIn).map (fun (d : Nat × BitVec 256) => d.2)).getD 0#256)))
          | none => some []
        let me := match rep with
          | some g => g.me
          | none => 0
        match verdict with
        | none => (s.modMile c (fun m => { m with odd := 0 })).failStep c 0x0A#8 m.me true stCheck
        | some odd =>
          let s1 := s.modMile c (fun m => { m with odd := odd.length })
          if odd.contains me then
            ((s1.modMile c (fun m => { (m.setOutcome ⟨m.step, 3, 0x08#8, m.attempt, m.me⟩) with
              cause := 0x08#8, failRank := m.me, ownFail := true, failedStep := m.step, expected := m.attempt + 1#32 })).writeStepRecord c 3 0#32 0#32).expel c
          else match odd with
            | k :: _ => s1.failStep c 0x09#8 k true stRepeat
            | [] => if m.shadowIn.any (fun d => d != r.shard) then s1.failStep c 0x0B#8 m.me true stCheck else s1.contribute c
  | _, _ => s

/-- Work of the open step that has not completed: every EXEC, COPY, PLACE and COLLECTIVE started since OPEN, armed ones too (R391). -/
def Ctx.stepWork (x : Ctx) : List Nat :=
  x.startsOf (fun e => (e.opcode == 2 || e.opcode == 3 || e.opcode == 4 || e.opcode == 6) && e.start.any (fun n => decide (x.mile.openStart ≤ n)))

/-- COMMIT goes through the steps of R391 as far as it can; a state block that it cannot read ends it with POISON (R246). -/
def State.commitProgress (s : State) (c : Nat) : State :=
  let x := s.ctx c
  let m := x.mile
  match m.commit, m.setup with
  | some r, some u =>
    if m.state ≠ 3 ∨ r.checked ∨ !x.stepWork.isEmpty then s
    else if m.badWork then s.localFail c 0x01#8
    else if x.integ ≠ 0#64 then s.localFail c 0x02#8
    else if x.trig.any (fun e => !e.fired) then s.localFail c 0x03#8
    else if m.shard ≠ m.last ∨ m.shadow ≠ m.last then s
    else
      let hdr := s.devRead (s.objBase u.stateObj) 64
      let blk := s.devRead (s.objBase u.stateObj) (recNat hdr.data 8 4)
      if hdr.stop.isSome ∨ (blockOk hdr.data (m.step + 1#64) ∧ blk.stop.isSome) then
        (s.reach (s.objBase u.stateObj) 65536).failStep c 0x0C#8 m.me true stPoison
      else if !blockOk hdr.data (m.step + 1#64) then s.localFail c 0x0C#8
      else
        let own := blk.data
        let s1 := match s.group? c u.shadowGroup with
          | some g => if g.ranks.length = 1 then s.modMile c (fun m => { m with block := m.block.writeN 0 own })
              else s.sendData c g.buddy 3 blockGroup (m.step.toNat % 2 ^ 32) 0 own
          | none => s
        let s2 := s1.modMile c (fun m => { m with commit := m.commit.map (fun r => { r with checked := true }) })
        if m.step.toNat % s.digestEvery c = 0 then s2 else s2.contribute c
  | _, _ => s

/-- COMMIT starts its checks, or reports a step that failed while it was open (R391, R392). -/
def runCommit (c : Nat) (s : State) (d : Desc) : State :=
  let m := (s.ctx c).mile
  if m.state = 4 then
    s.endDesc c d.ring d.pos { status := if m.ownFail then stCheck else stRepeat, result := mileResult m }
  else
    let s1 := s.setWork c d .commit
    if m.state = 3 then s1 else
      let dig := fun (u : MpSetup) => if m.step.toNat % s.digestEvery c = 0 then s.digestBytesOf u else []
      (s1.modMile c (fun m => { (m.keepOutcome m.step 5 m.attempt) with
        state := 3, commit := some { taken := m.setup.elim [] dig } })).commitProgress c

/-- MILEPOST COMMIT (R391). -/
def execMilepostCommit (c : CtxId) (q : RingId) (p : Word) (s : State) : Host.Outcome State Fault Refusal :=
  .next (s.startDesc c q p (isMilepost 2) (fun _ => false) (mileChk 2 c) (runCommit c))

/-- ABANDON fails the open step and sends FAIL; from UNKNOWN it sends nothing (R395). It is no local failure, so a COMMIT in flight ends with
REPEAT (R387, R396). -/
def runAbandon (c : Nat) (s : State) (d : Desc) : State :=
  let m := (s.ctx c).mile
  let s1 := (if m.state = 5 then s else s.sendFail c 0x06#8).failStep c 0x06#8 m.me false stRepeat
  s1.endDesc c d.ring d.pos { status := stOk, result := mileResult (s1.ctx c).mile }

/-- MILEPOST ABANDON (R395). -/
def execMilepostAbandon (c : CtxId) (q : RingId) (p : Word) (s : State) : Host.Outcome State Fault Refusal :=
  .next (s.startDesc c q p (isMilepost 3) (fun _ => false) (mileChk 3 c) (runAbandon c))

/-- The module at an address is this rank's successor in the shadow group. -/
def State.isSuccessor (s : State) (c addr : Nat) : Bool :=
  match (s.ctx c).mile.setup with
  | some u => (s.group? c u.shadowGroup).any (fun g => g.successor == addr)
  | none => false

/-- The failing rank belongs to this rank's replica group, whose ranks all decide from the same digests (R403). -/
def State.inReplica (s : State) (c rank : Nat) : Bool :=
  let m := (s.ctx c).mile
  match m.setup with
  | some u => u.replicaGroup != 0xFFFF && (s.group? c u.replicaGroup).any (fun g => g.ranks.contains (m.ranks.getD rank 4096))
  | none => false

/-- A FAIL arrives: it fails the open step it matches, or is counted in STALE_FAIL (R394, R403). While this rank forms its own verdict, a
FAIL by the replica digests of its group has no effect: the same digests decide here (R403; log 62). -/
def State.recvFail (s : State) (c : Nat) (step : DWord) (attempt : Word) (cause : Byte) (rank : Nat) : State :=
  let m := (s.ctx c).mile
  if (m.state = 2 ∨ m.state = 3) ∧ step = m.step ∧ attempt = m.attempt then
    if (cause = 0x08#8 ∨ cause = 0x09#8 ∨ cause = 0x0A#8) ∧ m.commit.any (fun r => r.formed && !r.contributed) ∧ s.inReplica c rank then s
    else if cause = 0x0B#8 then s.failStep c 0x0B#8 rank false (if s.isSuccessor c (m.ranks.getD rank 4096) then stCheck else stRepeat)
    else s.failStep c 0x05#8 rank false stRepeat
  else s.modMile c (fun m => { m with staleFail := satAdd 255 m.staleFail 1 })

/-- FAIL_FRAME (R394). -/
def execFailFrame (c : CtxId) (step : DWord) (attempt : Word) (cause : Byte) (rank : Nat) (s : State) : Host.Outcome State Fault Refusal :=
  .next (if s.hears c then s.recvFail c step attempt cause rank else s)

/-- The replica digest of a rank, or the buddy's shadow digest, arrives (R403). -/
def State.recvDigest (s : State) (c : Nat) (kind : DigestKind) (rank : Nat) (digest : BitVec 256) : State :=
  (match kind with
    | .replica => s.modMile c (fun m => { m with replicaIn := (rank, digest) :: m.replicaIn.filter (fun d => d.1 != rank) })
    | .shadow => s.modMile c (fun m => { m with shadowIn := some digest })).judge c

/-- DIGEST_FRAME (R403). -/
def execDigestFrame (c : CtxId) (kind : DigestKind) (rank : Nat) (digest : BitVec 256) (s : State) : Host.Outcome State Fault Refusal :=
  .next (if s.hears c then s.recvDigest c kind rank digest else s)

/-- The weight digest of bytes now read of ranges that held `was` at the start of COMMIT; a range written since has an undefined digest
(R402). -/
def takenDigest (was now free : List Byte) : BitVec 256 := if now = was then digest256 (weightDigest now) else digest256 free

/-- The three weight digests are formed and sent (R402, R403; log 119); a poisoned line of a range fails the step, and COMMIT ends with POISON
(R246). -/
def State.formDigests (s : State) (c : Nat) : State :=
  let m := (s.ctx c).mile
  match m.commit, m.setup with
  | some r, some u =>
    if m.state ≠ 3 ∨ !r.checked ∨ r.formed ∨ r.contributed then s else
      let dig := fun (l : List Rng) => (s.readSpans (s.rangeSpans l))
      let rep := dig u.replica
      let sh := dig u.shard
      let shd := dig u.shadow
      if rep.stop.isSome ∨ sh.stop.isSome ∨ shd.stop.isSome then
        (s.reachSpans (s.rangeSpans (u.replica ++ u.shard ++ u.shadow))).failStep c 0x01#8 m.me true stPoison else
        let free := s.freeBytes 96
        let repD := takenDigest (r.taken.getD 0 []) rep.data (free.take 32)
        let shD := takenDigest (r.taken.getD 1 []) sh.data ((free.drop 32).take 32)
        let shdD := takenDigest (r.taken.getD 2 []) shd.data (free.drop 64)
        let s := s.bump
        let s1 := match (if u.replicaGroup = 0xFFFF then none else s.group? c u.replicaGroup) with
          | some g => (otherRanks g.ranks g.me).foldl (fun (s : State) (k : Nat × Nat) => s.sendCtrl c k.2 u.replicaGroup 0 (.digest .replica repD)) s
          | none => s
        let s2 := match s.group? c u.shadowGroup with
          | some g => if g.ranks.length = 1 then s1.modMile c (fun m => { m with shadowIn := some shdD })
              else s1.sendCtrl c g.successor u.shadowGroup 0 (.digest .shadow shdD)
          | none => s1
        (s2.modMile c (fun m => { m with
          digest := repD
          commit := m.commit.map (fun r => { r with formed := true, replica := repD, shard := shD }) })).judge c
  | _, _ => s

/-- WEIGHT_DIGEST_FORMED (R402, R403). -/
def execWeightDigestFormed (c : CtxId) (s : State) : Host.Outcome State Fault Refusal := .next (s.formDigests c)

/-- COMMIT_RESULT (R393): with other ranks it comes on the fabric. -/
def execCommitResult (c : CtxId) (ranks : List Contribution) (s : State) : Host.Outcome State Fault Refusal :=
  .next (if s.hears c || decide (ranks.length ≤ 1) then s.recvResult c ranks else s)

/-- The commit timer expires (R390, R391, R393). -/
def State.commitExpire (s : State) (c : Nat) : State :=
  let m := (s.ctx c).mile
  match m.commit with
  | none => s
  | some r =>
    if m.state ≠ 3 then s
    else if r.contributed then
      (s.modMile c (fun m => { (m.setOutcome ⟨m.step, 6, 0x07#8, m.attempt, m.me⟩) with
        state := 5, cause := 0x07#8, failRank := m.me, commit := none })).endCommits c { status := stTimeout, result := mileResult { m with cause := 0x07#8, failRank := m.me } }
    else
      let stuck := (s.ctx c).stepWork.isEmpty && !r.checked && (m.shard != m.last || m.shadow != m.last)
      s.failStep c (if stuck then 0x04#8 else 0x07#8) m.me true stTimeout

/-- COMMIT_TIMER_EXPIRE (R390, R393). -/
def execCommitTimerExpire (c : CtxId) (s : State) : Host.Outcome State Fault Refusal := .next (s.commitExpire c)

/-- A flush marker empties a consumer queue: slots before its SEQ are discarded and the credits granted again (R397). -/
def State.flushMarker (s : State) (c queue seq : Nat) : State :=
  match (s.ctx c).queues.find? queue with
  | none => s
  | some q =>
    if q.role ≠ 2 then s else
      ((s.modQueue c queue (fun q => { (q.upTo seq) with flushing := false, marked := !q.flushing })).sendCtrl c q.peer queue 0 (.slotCredit q.slots)).driveQueue c queue

/-- QUEUE_FLUSH_MARKER (R397). -/
def execQueueFlushMarker (c : CtxId) (queue : Fin 64) (seq : Nat) (s : State) : Host.Outcome State Fault Refusal :=
  .next (if s.hears c then s.flushMarker c queue seq else s)

end Sys2Proof.Machine
end

