-- ==== Sys2Proof/Machine/Shadow.lean ====
section
/-!
DEFINITION. SHADOW_CTL (R398 to R400, R407 to R415) and the timeout of a fill.
-/
namespace Sys2Proof.Machine

def isShadow (op : Nat) (d : Desc) : Bool := d.opcode == 0x0E && d.num 16 1 == op
/-- SHADOW, KIND of SFLAGS. -/
def shadowFlag (d : Desc) : Bool := bitOf (d.num 17 1) 1
def kindFlag (d : Desc) : Bool := bitOf (d.num 17 1) 2

/-- TAKEOVER admits no other work but QUERY in flight (R411). -/
def Ctx.othersInFlight (x : Ctx) (d : Desc) : Bool :=
  x.descs.any (fun e => e.start.isSome && e.opcode != 0x0F && !(e.ring == d.ring && e.pos == d.pos))

/-- The checks of a SHADOW_CTL (R102, R408 to R415). -/
def shadowChk (op c : Nat) (s : State) (d : Desc) : Chk :=
  let m := (s.ctx c).mile
  let refs := op == 1 || op == 3 || op == 4
  let sized := op == 3 || op == 4
  { reserved := [(48, 16)]
    reservedBits := [(decide (8 ≤ d.num 17 1), 17), (decide (4096 ≤ d.num 18 2), 18)]
    format := [(op != 5 && op != 6 && d.num 18 2 != 0, 18), (op != 7 && d.num 20 4 != 0, 20),
      (if refs then badRef d 24 else mustZero d 24 8), allOnes d 32 8, (op != 2 && op != 4 && op != 7 && d.num 40 8 != 0, 40)]
    bounds := [(sized && decide ((s.resolve c (d.num 24 8)).extent < d.num 32 8), 32)]
    expelled := m.state == 6
    state := match op with
      | 1 => m.state != 0
      | 2 => m.state == 0 || dword (d.num 40 8) != m.last
      | 3 => m.state == 0 || m.shadow != m.last
      | 4 => !(m.state == 1 || m.state == 4 || m.state == 5)
      | 5 => !(m.state == 1 || m.state == 4) || (if kindFlag d then m.shard else m.shadow) != m.last
      | 6 => !(m.state == 1 || m.state == 4)
      | 7 => !(m.state == 1 || m.state == 4) || (s.ctx c).othersInFlight d || dword (d.num 40 8) != m.last
      | _ => m.state == 0 }

/-- The range of a record (R414). -/
def rangeOf (r : List Byte) : Rng := ⟨recNat r 0 4, recNat r 8 8, recNat r 16 8⟩
def rangeRecOk (r : List Byte) : Bool := recNat r 0 4 / 2 ^ 20 == 0 && recNat r 4 4 == 0 && recNat r 16 8 != 0 && recNat r 24 8 == 0

/-- Whether the header of a set-up block is as R414 gives. -/
def setupHdrOk (h : List Byte) : Bool :=
  let sh := recNat h 0 2
  let rep := recNat h 2 2
  decide (sh ≤ 255) && (decide (rep ≤ 255) || rep == 0xFFFF) && decide (1 ≤ recNat h 4 2 ∧ recNat h 4 2 ≤ 1024) && decide (recNat h 6 2 ≤ 1024)
    && recNat h 16 4 / 2 ^ 20 == 0 && recNat h 20 4 / 2 ^ 20 == 0 && (h.drop 24).all (fun b => b == 0#8)

/-- The size of an object a context sees; 0 if there is none. -/
def State.objSize (s : State) (c id : Nat) : Nat := ((s.visible c id).map (fun o => o.size)).getD 0

def State.rangeFits (s : State) (c : Nat) (r : Rng) : Bool := decide (r.off + r.len ≤ s.objSize c r.obj)

/-- SETUP copies the lists and enters CLOSED (R414). -/
def runSetup (c : Nat) (s : State) (d : Desc) : State :=
  let s := s.touchRefs c [d.num 24 8]
  let bad := fun (st : Byte) => s.endDesc c d.ring d.pos (endField st 24)
  let t := s.resolve c (d.num 24 8)
  if t.extent < 64 then bad stBounds else
  let h := s.readTarget c t 64
  match h.stop with
  | some st => (s.reachTarget t 64).endDesc c d.ring d.pos { status := st, result := dword h.data.length }
  | none =>
    if !setupHdrOk h.data then bad stFormat else
    let n := recNat h.data 4 2
    let k := recNat h.data 6 2
    if t.extent < 64 + 32 * (2 * n + k) then bad stBounds else
    let b := s.readTarget c (t.plus 64) (32 * (2 * n + k))
    match b.stop with
    | some st => (s.reachTarget (t.plus 64) (32 * (2 * n + k))).endDesc c d.ring d.pos { status := st, result := dword (64 + b.data.length) }
    | none =>
      let rs := records 32 (2 * n + k) b.data
      let all := rs.map rangeOf
      let u : MpSetup :=
        { shadowGroup := recNat h.data 0 2, replicaGroup := recNat h.data 2 2, shard := all.take n, shadow := (all.drop n).take n
          replica := all.drop (2 * n), keepObj := recNat h.data 16 4, stateObj := recNat h.data 20 4 }
      if !rs.all rangeRecOk || (u.shard.zip u.shadow).any (fun p => p.1.len != p.2.len) then bad stFormat
      else if (u.keepObj :: u.stateObj :: all.map (fun r => r.obj)).any (fun o => !s.inRange c o) then bad stAuth
      else if !all.all (s.rangeFits c) || decide (s.objSize c u.stateObj < 131072) then bad stBounds
      else
        let last := dword (recNat h.data 8 8)
        (s.modMile c (fun m => { m with state := 1, setup := some u, last := last, shard := last, shadow := last })).endDesc c d.ring d.pos (endOk 0)

/-- SHADOW_CTL SETUP (R414). -/
def execShadowSetup (c : CtxId) (q : RingId) (p : Word) (s : State) : Host.Outcome State Fault Refusal :=
  .next (s.startDesc c q p (isShadow 1) (fun _ => false) (shadowChk 1 c) (runSetup c))

/-- ADVANCE sets the shard step or the shadow step; a COMMIT that waits for it goes on (R391, R399). -/
def runAdvance (c : Nat) (s : State) (d : Desc) : State :=
  let own := bitOf (d.num 17 1) 0
  ((s.modMile c (fun m => if own then { m with shard := m.last } else { m with shadow := m.last })).endDesc c d.ring d.pos (endOk 0)).commitProgress c

/-- SHADOW_CTL ADVANCE (R399). -/
def execShadowAdvance (c : CtxId) (q : RingId) (p : Word) (s : State) : Host.Outcome State Fault Refusal :=
  .next (s.startDesc c q p (isShadow 2) (fun _ => false) (shadowChk 2 c) (runAdvance c))

/-- The length of a state block in STATE_OBJ, from its own BYTES (R407). -/
def State.blockLen (s : State) (a : Nat) : Nat := min 65536 (leNat (s.devBytes (a + 8) 4))

def waymarkMagic : Nat := 0x5741594D

/-- WAYMARK writes header, shadow ranges and the kept block (R408). -/
def runWaymark (c : Nat) (s : State) (d : Desc) : State :=
  let s := s.touchRefs c [d.num 24 8]
  match (s.ctx c).mile.setup with
  | none => s.endDesc c d.ring d.pos (endWith stState)
  | some u =>
    match s.readGroup c u.shadowGroup with
    | .error st => (s.reachGroup c u.shadowGroup).endDesc c d.ring d.pos (endWith st)
    | .ok g =>
      let spans := s.rangeSpans u.shadow
      let n := spanBytes spans
      let k := s.blockLen (s.objBase u.stateObj + 65536)
      if d.num 32 8 < 64 + n + k then s.endDesc c d.ring d.pos (endField stBounds 32) else
      let got := s.readSpans (spans ++ [(s.objBase u.stateObj + 65536, k)])
      if got.stop.isSome then (s.reachSpans (spans ++ [(s.objBase u.stateObj + 65536, k)])).endDesc c d.ring d.pos (endWith stPoison) else
        let hdr := leBytes 4 waymarkMagic ++ leBytes 2 ((g.me + 1) % g.ranks.length) ++ leBytes 2 g.ranks.length ++
          leBytes 8 (s.ctx c).mile.last.toNat ++ leBytes 8 (n + k) ++ leBytes 8 0 ++ weightDigest (got.data.take n)
        match s.writeTarget c (s.resolve c (d.num 24 8)) (hdr ++ got.data) with
        | (s2, some (st, w)) => s2.endDesc c d.ring d.pos { status := st, result := dword w }
        | (s2, none) => (s2.setWork c d (.waymark (got.data.take n))).endHeld c d.ring d.pos (endOk 0)

/-- SHADOW_CTL WAYMARK (R408). -/
def execShadowWaymark (c : CtxId) (q : RingId) (p : Word) (s : State) : Host.Outcome State Fault Refusal :=
  .next (s.startDesc c q p (isShadow 3) (fun _ => false) (shadowChk 3 c) (runWaymark c))

/-- RESTORE reads a Waymark into the shard or the shadow (R409). -/
def runRestore (c : Nat) (s : State) (d : Desc) : State :=
  let s := s.touchRefs c [d.num 24 8]
  let bad := fun (st : Byte) => s.endDesc c d.ring d.pos (endField st 24)
  let t := s.resolve c (d.num 24 8)
  match (s.ctx c).mile.setup with
  | none => s.endDesc c d.ring d.pos (endWith stState)
  | some u =>
    match s.readGroup c u.shadowGroup with
    | .error st => (s.reachGroup c u.shadowGroup).endDesc c d.ring d.pos (endWith st)
    | .ok g =>
      let sh := shadowFlag d
      let spans := s.rangeSpans (if sh then u.shadow else u.shard)
      let n := spanBytes spans
      let h := s.readTarget c t 64
      if d.num 32 8 < 64 then s.endDesc c d.ring d.pos (endField stBounds 32) else
      match h.stop with
      | some st => (s.reachTarget t 64).endDesc c d.ring d.pos { status := st, result := dword h.data.length }
      | none =>
        let len := recNat h.data 16 8
        let rank := if sh then (g.me + 1) % g.ranks.length else g.me
        if recNat h.data 0 4 ≠ waymarkMagic ∨ len < n ∨ n + 65536 < len ∨ recNat h.data 8 8 ≠ d.num 40 8 ∨ recNat h.data 4 2 ≠ rank then bad stFormat
        else if d.num 32 8 < 64 + len then s.endDesc c d.ring d.pos (endField stBounds 32) else
        let b := s.readTarget c (t.plus 64) len
        match b.stop with
        | some st => (s.reachTarget (t.plus 64) len).endDesc c d.ring d.pos { status := st, result := dword (64 + b.data.length) }
        | none =>
          let area := s.objBase u.stateObj + (if sh then 65536 else 0)
          if s.spansReadOnly (spans ++ [(area, 65536)]) then s.endDesc c d.ring d.pos (endWith stAuth) else
          let s1 := (State.writeSpans spans s 0 0 (b.data.take n)).devWrite area (b.data.drop n)
          if weightDigest (s1.readSpans spans).data ≠ (h.data.drop 32).take 32 then (s1.reachSpans spans).endDesc c d.ring d.pos (endWith stCheck) else
            let step := dword (d.num 40 8)
            (s1.modMile c (fun m => { m with
              state := 1
              last := step
              shard := if sh then m.shard else step
              shadow := if sh then step else m.shadow
              expected := 0#32
              commit := none })).endDesc c d.ring d.pos (endOk 0)

/-- SHADOW_CTL RESTORE (R409). -/
def execShadowRestore (c : CtxId) (q : RingId) (p : Word) (s : State) : Host.Outcome State Fault Refusal :=
  .next (s.startDesc c q p (isShadow 4) (fun _ => false) (shadowChk 4 c) (runRestore c))

/-- A fill starts; its length is that of its ranges and the block (R410). -/
def State.startFill (s : State) (c : Nat) (d : Desc) (send : Bool) : State × FillRun :=
  let kind := kindFlag d
  let total := match (s.ctx c).mile.setup with
    | some u => spanBytes (s.fillSpans u send kind)
    | none => 0
  let r : FillRun := { send := send, kind := kind, peer := d.num 18 2 % 4096, total := total }
  (s.setWork c d (.fill r), r)

/-- FILL_SEND sends once the other end has asked (R410). -/
def runFillSend (c : Nat) (s : State) (d : Desc) : State :=
  let x := s.startFill c d true
  let mine := fun (y : ReadyInfo) => y.group == fillGroup x.2.kind && y.src.toNat == x.2.peer && y.op == 9
  let early := (s.ctx c).readies.filter mine
  let s1 := x.1.modCtx c (fun z => { z with readies := z.readies.filter (fun y => !mine y) })
  early.foldl (fun s y => s.fillReady c x.2.kind y) s1

/-- SHADOW_CTL FILL_SEND (R410). -/
def execShadowFillSend (c : CtxId) (q : RingId) (p : Word) (s : State) : Host.Outcome State Fault Refusal :=
  .next (s.startDesc c q p (isShadow 5) (fun _ => false) (shadowChk 5 c) (runFillSend c))

/-- FILL_RECV asks the sender for its data (R410). -/
def runFillRecv (c : Nat) (s : State) (d : Desc) : State :=
  let x := s.startFill c d false
  x.1.fillMsg c x.2 9

/-- SHADOW_CTL FILL_RECV (R410). -/
def execShadowFillRecv (c : CtxId) (q : RingId) (p : Word) (s : State) : Host.Outcome State Fault Refusal :=
  .next (s.startDesc c q p (isShadow 6) (fun _ => false) (shadowChk 6 c) (runFillRecv c))

/-- TAKEOVER (R411). -/
def runTakeover (c : Nat) (s : State) (d : Desc) : State :=
  let s1 := s.modCtx c (fun x => { x with
    mile := { x.mile with state := 1, expected := word (d.num 20 4), commit := none }
    collSeq := []
    queues := x.queues.map (fun (q : Nat × QueueSt) =>
      (q.1, { q.2 with next := 0, filled := [], seen := [], bad := [], flushing := false, marked := false, credits := if q.2.role = 1 then q.2.slots else 0 })) })
  (s1.advanceEpoch c (some (d.ring, d.pos)) false).endDesc c d.ring d.pos (endOk 0)

/-- SHADOW_CTL TAKEOVER (R411). -/
def execShadowTakeover (c : CtxId) (q : RingId) (p : Word) (s : State) : Host.Outcome State Fault Refusal :=
  .next (s.startDesc c q p (isShadow 7) (fun _ => false) (shadowChk 7 c) (runTakeover c))

/-- SHADOW_CTL EXPEL (R388, R415). -/
def execShadowExpel (c : CtxId) (q : RingId) (p : Word) (s : State) : Host.Outcome State Fault Refusal :=
  .next (s.startDesc c q p (isShadow 8) (fun _ => false) (shadowChk 8 c) (fun s d => (s.expel c).endDesc c d.ring d.pos (endOk 0)))

/-- FILL_NO_PROGRESS_TIMEOUT (R410). -/
def execFillNoProgressTimeout (c : CtxId) (q : RingId) (p : Word) (s : State) : Host.Outcome State Fault Refusal :=
  .next (match s.desc? c q p with
    | some d => (match d.work with
      | .fill _ => s.endDesc c d.ring d.pos (endWith stTimeout)
      | _ => s)
    | none => s)

end Sys2Proof.Machine
end

