-- ==== Sys2Proof/Machine/Switchback.lean ====
section
/-!
DEFINITION. SWITCHBACK (R362 to R379): declaring a pair, the turn to rollout, its control frames and flip, the turn to learning, DROP.
-/
namespace Sys2Proof.Machine

def isSwitchback (op : Nat) (d : Desc) : Bool := d.opcode == 0x0D && d.num 16 1 == op

/-- A DROP or TO_LEARNER of the context is waiting (R369, R379). -/
def Ctx.flipWaiting (x : Ctx) : Bool :=
  x.descs.any (fun d => match d.work with
    | .flipWait _ _ => true
    | _ => false)

/-- A SWITCHBACK starts once an earlier DROP or TO_LEARNER has ended its wait (log 25). -/
def holdSb (c : Nat) (s : State) (_ : Desc) : Bool := (s.ctx c).flipWaiting

/-- A DROP of the context is waiting, as the flip does (R369). -/
def Ctx.dropWaiting (x : Ctx) : Bool :=
  x.descs.any (fun d => match d.work with
    | .flipWait drop _ => drop
    | _ => false)

/-- Host EXECs are held from the start of a turn to its last master read, and by a flip or a DROP that waits (R369, R371, R374). -/
def State.holdExec (s : State) (c : Nat) : Bool :=
  (s.ctx c).dropWaiting || ((s.ctx c).pair.any (fun p => p.turn.any (fun t => !t.sent || t.flipWaits.isSome)))

/-- SERVE_STEPs are held while a flip waits (R374). -/
def State.holdServe (s : State) (c : Nat) : Bool :=
  (s.ctx c).flipWaiting || ((s.ctx c).pair.any (fun p => p.turn.any (fun t => t.flipWaits.isSome)))

/-- QSLICE is a power of two from 1 to 64 (R362). -/
def qsliceOk (n : Nat) : Bool := n == 1 || n == 2 || n == 4 || n == 8 || n == 16 || n == 32 || n == 64

/-- The checks of a SWITCHBACK (R102, R367, R369, R371, R379). -/
def sbChk (op c : Nat) (s : State) (d : Desc) : Chk :=
  let dec := op == 1
  let x := s.ctx c
  let phase := x.pair.elim 0 (fun p => p.phase)
  let step := dword (d.num 48 8)
  { reserved := [(45, 3), (56, 8)]
    reservedBits := [(decide (2 ≤ d.num 17 1), 17), (decide (2 ^ 20 ≤ d.num 20 4), 20), (decide (2 ^ 20 ≤ d.num 36 4), 36), (decide (2 ^ 20 ≤ d.num 40 4), 40)]
    format := [(!dec && d.num 17 1 != 0, 17), (if dec then decide (255 < d.num 18 2) else d.num 18 2 != 0, 18), (!dec && d.num 20 4 != 0, 20),
      (if dec then !refDefined (d.num 24 8) || d.num 24 8 % 16 != 0 else d.num 24 8 != 0, 24), allOnes d 32 4,
      (if dec then decide (16777216 < d.num 32 4) else d.num 32 4 != 0, 32), (dec && !qsliceOk (d.num 44 1), 44), (op != 2 && d.num 48 8 != 0, 48)]
    bounds := [(dec && decide ((s.resolve c (d.num 24 8)).extent < 48 * d.num 32 4), 32)]
    zero := dec && d.num 32 4 == 0
    expelled := x.mile.state == 6
    state := match op with
      | 2 => phase != 1 || x.mile.state == 2 || x.mile.state == 3 || (if x.mile.state = 0 then step != 0#64 else step != x.mile.last)
      | 3 => phase != 3
      | 4 => phase == 0 || phase == 2
      | _ => false }

/-- One record of the segment map (R365). -/
def segOf (i base : Nat) (r : List Byte) : SegRec :=
  { index := i, srcRank := recNat r 0 2, slice := recNat r 2 1, fmt := recNat r 3 1, elems := recNat r 4 4, srcObj := recNat r 8 4
    srcOff := recNat r 16 8, dstOff := recNat r 24 8, scaleOff := recNat r 32 8, base := base }

/-- Whether a record's fields are as R365 gives. -/
def segRecOk (nranks qslice : Nat) (r : List Byte) : Bool :=
  let f := recNat r 3 1
  let e := recNat r 4 4
  decide (recNat r 0 2 < nranks) && decide (recNat r 2 1 < qslice) && decide (f < 8) && f != 4 && e % 32 == 0 && decide (32 ≤ e ∧ e ≤ 2 ^ 31 - 32)
    && recNat r 8 4 / 2 ^ 20 == 0 && recNat r 12 4 == 0 && recNat r 16 8 % 128 == 0 && recNat r 24 8 % 16 == 0
    && (isMx f || recNat r 32 8 == 0) && recNat r 40 8 == 0

/-- Every record with its place in the turn's transfer (log 17). -/
def segsOf : List (List Byte) → Nat → Nat → List SegRec
  | [], _, _ => []
  | r :: rs, i, base => let x := segOf i base r
    x :: segsOf rs (i + 1) (base + x.stride)

/-- Two records share a byte of the bank. -/
def SegRec.meets (a b : SegRec) : Bool :=
  let sp := fun (r : SegRec) => [(r.dstOff, r.elemBytes), (r.scaleOff, r.scaleBytes)]
  (sp a).any (fun x => (sp b).any (fun y => decide (x.1 < y.1 + y.2) && decide (y.1 < x.1 + x.2) && decide (0 < x.2) && decide (0 < y.2)))

/-- A record overlaps an earlier kept record of its slice (R368). -/
def overlapAt (kept : List SegRec) (r : SegRec) : Bool := kept.any (fun e => decide (e.index < r.index) && e.slice == r.slice && e.meets r)

/-- DECLARE (R368). -/
def runDeclare (c : Nat) (s : State) (d : Desc) : State :=
  let s := s.touchRefs c [d.num 24 8, d.num 36 4 * 2 ^ 40, d.num 40 4 * 2 ^ 40]
  let n := d.num 32 4
  let failRec := fun (st : Byte) (i : Nat) => s.endDesc c d.ring d.pos { status := st, secondary := half (0x8000 + 24), result := dword i }
  let fail := fun (st : Byte) (off : Nat) => s.endDesc c d.ring d.pos (endField st off)
  let q := d.num 44 1
  match s.readGroup c (d.num 18 2) with
  | .error st => if st = stFormat then fail st 18 else (s.reachGroup c (d.num 18 2)).endDesc c d.ring d.pos (endWith st)
  | .ok g =>
    let map := s.readTarget c (s.resolve c (d.num 24 8)) (48 * n)
    match map.stop with
    | some st => (s.reachTarget (s.resolve c (d.num 24 8)) (48 * n)).endDesc c d.ring d.pos { status := st, result := dword map.data.length }
    | none =>
      let raw := records 48 n map.data
      let ids := [(d.num 20 4, 20), (d.num 36 4, 36), (d.num 40 4, 40)]
      let live := fun (o : Nat) => (s.obj? o).any (fun x => decide (x.ctx = c) && x.state == 1)
      let size := s.objSize c (d.num 36 4)
      let kept := (segsOf raw 0 0).filter (fun r => r.srcRank == g.me || r.slice == g.me % q)
      if g.ranks.length % q ≠ 0 then fail stFormat 44 else
      match raw.findIdx? (fun r => !segRecOk g.ranks.length q r) with
      | some i => failRec stFormat i
      | none =>
      match ids.find? (fun x => !s.inRange c x.1) with
      | some x => fail stAuth x.2
      | none =>
      if (s.ctx c).pair.isSome || (s.obj? (d.num 20 4)).isSome || !live (d.num 36 4) || !live (d.num 40 4) || d.num 36 4 == d.num 40 4
          || size != s.objSize c (d.num 40 4) then s.endDesc c d.ring d.pos (endWith stState) else
      match kept.find? (fun r => (r.srcRank == g.me && decide (s.objSize c r.srcObj < r.srcOff + 4 * r.elems))
          || decide (size < r.dstOff + r.elemBytes) || decide (size < r.scaleOff + r.scaleBytes)) with
      | some r => failRec stBounds r.index
      | none =>
      match kept.find? (overlapAt kept) with
      | some r => failRec stFormat r.index
      | none =>
      if 1048576 < kept.length then s.endDesc c d.ring d.pos (endWith stNospace) else
        let ro := fun (s : State) (o : Nat) => s.modObj o (fun x => { x with readOnly := true })
        let s1 := ro (ro s (d.num 36 4)) (d.num 40 4)
        let p : Pair :=
          { group := d.num 18 2, nranks := g.ranks.length, me := g.me, ranks := g.ranks, qslice := q, aliasId := d.num 20 4
            bank0 := d.num 36 4, bank1 := d.num 40 4, recs := kept, mapDigest := digest256 (sha256 map.data), async := bitOf (d.num 17 1) 0 }
        (s1.modCtx c (fun x => { x with
          pair := some p
          sb := { failRank := x.sb.failRank, lastCause := x.sb.lastCause } })).endDesc c d.ring d.pos (endOk 0)

/-- SWITCHBACK DECLARE (R368). -/
def execSwitchbackDeclare (c : CtxId) (q : RingId) (p : Word) (s : State) : Host.Outcome State Fault Refusal :=
  .next (s.startDesc c q p (isSwitchback 1) (holdSb c s) (sbChk 1 c) (runDeclare c))

/-- TO_ROLLOUT starts the turn (R371). -/
def runToRollout (c : Nat) (s : State) (d : Desc) : State :=
  match (s.ctx c).pair with
  | none => s.endDesc c d.ring d.pos (endWith stState)
  | some p =>
    match s.readGroup c p.group with
    | .error st => (s.reachGroup c p.group).endDesc c d.ring d.pos (endWith st)
    | .ok g =>
      if g.me ≠ p.me ∨ g.ranks.length ≠ p.nranks then s.endDesc c d.ring d.pos (endWith stFormat) else
        let step := dword (d.num 48 8)
        let r := s.takeSeq c p.group
        let waits := (s.ctx c).startsOf (fun e => e.opcode == 3)
        let held := (s.ctx c).sbAgrees
        let t : Turn := { ring := d.ring, pos := d.pos, step := step, seq := r.2, agrees := held.filter (fun a => a.seq == r.2), quiesce := waits }
        let s1 := r.1.modCtx c (fun x => { x with
          pair := some { p with ranks := g.ranks, phase := 2, turn := some t }
          sbAgrees := held.filter (fun a => decide (r.2 < a.seq)) })
        let s2 := (otherRanks g.ranks g.me).foldl (fun (s : State) (k : Nat × Nat) => s.sendCtrl c k.2 p.group r.2 (.sbAgree step p.mapDigest)) s1
        (s2.setWork c d .turn).turnProgress c

/-- SWITCHBACK TO_ROLLOUT (R371). -/
def execSwitchbackToRollout (c : CtxId) (q : RingId) (p : Word) (s : State) : Host.Outcome State Fault Refusal :=
  .next (s.startDesc c q p (isSwitchback 2) (holdSb c s) (sbChk 2 c) (runToRollout c))

/-- What a DROP or TO_LEARNER does once its wait is over (R369, R379). -/
def State.endFlipWait (s : State) (c : Nat) (d : Desc) (drop : Bool) : State :=
  let s1 := s.modCtx c (fun x =>
    if drop then { x with pair := none, sb := { x.sb with step := 0#64, digest := 0#256 } }
    else { x with pair := x.pair.map (fun p => { p with phase := 1 }) })
  s1.endDesc c d.ring d.pos (endOk 0)

/-- DROPs and TO_LEARNERs whose wait is over end. -/
def State.settleFlipWaits (s : State) (c : Nat) : State :=
  (s.ctx c).descs.foldl (fun s d =>
    match d.work with
    | .flipWait drop waits => if d.ending.isNone && (s.ctx c).allDone waits then s.endFlipWait c d drop else s
    | _ => s) s

/-- TO_LEARNER waits for earlier SERVE_STEPs unless ASYNC; DROP waits as the flip does (R369, R379). -/
def runFlipWait (drop : Bool) (c : Nat) (s : State) (d : Desc) : State :=
  let now := !drop && (s.ctx c).pair.any (fun p => p.async)
  let waits := if now then [] else (s.ctx c).startsOf (fun e => e.opcode == 9 || (drop && e.opcode == 3))
  (s.setWork c d (.flipWait drop waits)).settleFlipWaits c

/-- SWITCHBACK TO_LEARNER (R379). -/
def execSwitchbackToLearner (c : CtxId) (q : RingId) (p : Word) (s : State) : Host.Outcome State Fault Refusal :=
  .next (s.startDesc c q p (isSwitchback 3) (holdSb c s) (sbChk 3 c) (runFlipWait false c))

/-- SWITCHBACK DROP (R369). -/
def execSwitchbackDrop (c : CtxId) (q : RingId) (p : Word) (s : State) : Host.Outcome State Fault Refusal :=
  .next (s.startDesc c q p (isSwitchback 4) (holdSb c s) (sbChk 4 c) (runFlipWait true c))

/-- An agreement arrives; it counts for the turn of its SEQ, waits for a later one, and is nothing to an earlier one (R371, R377). -/
def State.recvAgree (s : State) (c : Nat) (a : Agree) : State :=
  let hold := s.modCtx c (fun x => { x with sbAgrees := a :: x.sbAgrees.filter (fun b => b.rank != a.rank || b.seq != a.seq) })
  match (s.ctx c).pair.bind (fun p => p.turn) with
  | some t =>
    if a.seq < t.seq ∨ (a.seq = t.seq ∧ t.agrees.any (fun b => b.rank == a.rank)) then s
    else if a.seq = t.seq then (s.modTurn c (fun p t => (p, { t with agrees := a :: t.agrees }))).turnProgress c
    else hold
  | none => hold

/-- SB_AGREE_FRAME (R371). -/
def execSbAgreeFrame (c : CtxId) (rank : TurnRank) (step : DWord) (digest : BitVec 256) (s : State) : Host.Outcome State Fault Refusal :=
  .next (if s.hears c then s.recvAgree c ⟨rank.rank, rank.seq, step, digest⟩ else s)

/-- A confirmation is held (R373). -/
def State.recvConfirm (s : State) (c rank : Nat) (digest : BitVec 256) : State :=
  (s.modTurn c (fun p t => (p, if t.stage ≤ 5 then { t with confirms := (rank, digest) :: t.confirms.filter (fun a => a.1 != rank) } else t))).turnConfirm c

/-- SB_CONFIRM_FRAME (R373). -/
def execSbConfirmFrame (c : CtxId) (rank : Nat) (digest : BitVec 256) (s : State) : Host.Outcome State Fault Refusal :=
  .next (if s.hears c then s.recvConfirm c rank digest else s)

/-- Stage 4, once stage 3 is over: every received segment is checked against the digest behind it, the slice digest is formed and sent
(R371, R373). -/
def State.formSlice (s0 : State) (c : Nat) : State :=
  let s := s0.turnProgress c
  match (s.ctx c).pair with
  | none => s
  | some p =>
    match p.turn with
    | none => s
    | some t =>
      if t.stage ≠ 4 then s else
        let ds := p.receives.map (fun r => (sha256 (s.segInBank p r), t.arrived.readN (r.base + r.bytes) 32))
        if ds.any (fun x => x.1 != x.2) then s.turnFail c stCheck p.me else
          let slice := digest256 (sha256 ((ds.map (fun x => x.1)).flatten))
          let s1 := s.modTurn c (fun p t => (p, { t with stage := 5, slice := some slice }))
          let s2 := (otherRanks p.ranks p.me).foldl (fun (s : State) (k : Nat × Nat) => s.sendCtrl c k.2 p.group t.seq (.sbConfirm slice)) s1
          s2.recvConfirm c p.me slice

/-- SLICE_DIGEST_FORMED (R373). -/
def execSliceDigestFormed (c : CtxId) (s : State) : Host.Outcome State Fault Refusal := .next (s.formSlice c)

/-- The flip, once the work it waits for has completed (R374). -/
def State.flip (s : State) (c : Nat) : State :=
  match (s.ctx c).pair with
  | none => s
  | some p =>
    match p.turn with
    | none => s
    | some t =>
      if t.stage ≠ 6 ∨ !(s.ctx c).allDone (t.flipWaits.getD []) then s else
        let p1 : Pair :=
          { p with
            active := 1 - p.active
            st0 := if p.active = 0 then 0 else 1
            st1 := if p.active = 0 then 1 else 0
            phase := 3
            turn := none }
        let s1 := s.modCtx c (fun x => { x with
          pair := some p1
          sb := { x.sb with step := t.step, digest := t.slice.getD 0#256, done := x.sb.done + 1#32 } })
        (s1.advanceEpoch c (some (t.ring, t.pos)) true).endDesc c t.ring t.pos (endOk t.written)

/-- SB_FLIP (R374). -/
def execSbFlip (c : CtxId) (s : State) : Host.Outcome State Fault Refusal := .next (s.flip c)

/-- A status that a frame carries, as a completion status; a value that R12 does not define is INTERNAL (log 98). -/
def carriedStatus (st : Byte) : Byte := if st.toNat < 16 then st else stInternal

/-- An ABORT ends the turn unless this rank has completed stage 5 (R376, R377). -/
def State.recvAbort (s : State) (c rank : Nat) (st : Byte) (stage : Nat) : State :=
  let s1 := s.modCtx c (fun x => { x with sbAgrees := x.sbAgrees.filter (fun a => a.rank != rank) })
  match (s.ctx c).pair.bind (fun p => p.turn) with
  | some t => if t.stage ≤ 5 then s1.endTurn c (carriedStatus st) rank stage else s1
  | none => s1

/-- SB_ABORT (R376). -/
def execSbAbort (c : CtxId) (rank : Nat) (status : Byte) (stage : Nat) (s : State) : Host.Outcome State Fault Refusal :=
  .next (if s.hears c then s.recvAbort c rank status stage else s)

/-- The Switchback timer ends a turn in stages 1 to 5, and a waiting TO_LEARNER or DROP (R376 to R378). -/
def State.sbExpire (s : State) (c : Nat) : State :=
  let s1 := s.turnFail c stTimeout ((s.ctx c).pair.elim 0 (fun p => p.me))
  (s1.ctx c).descs.foldl (fun s d =>
    match d.work with
    | .flipWait _ _ => s.endDesc c d.ring d.pos (endWith stTimeout)
    | _ => s) s1

/-- SB_TIMER_EXPIRE (R378). -/
def execSbTimerExpire (c : CtxId) (s : State) : Host.Outcome State Fault Refusal := .next (s.sbExpire c)

end Sys2Proof.Machine
end

