-- ==== Sys2Proof/Machine/Contexts.lean ====
section
/-!
DEFINITION. Context registers with effects, doorbells, descriptor fetch and completion (R82 to R93, R106 to R108), FENCE and COPY.
-/
namespace Sys2Proof.Machine

/-- A write by the function that holds the context; others are discarded (R84). Before stage 4 every write is discarded and counted
(R50). -/
def State.ctxWrite (s : State) (f : Func) (c : Nat) (g : State → State) : State := s.whenUp (fun s => if s.holds f c then g s else s)

/-- CTX_TILE_MASK: all 96 bits are applied, or discarded with MASK_ERR (R83). -/
def State.applyMask (s : State) (c : Nat) (hi : Word) : State :=
  let x := s.ctx c
  let v : TileMask := BitVec.ofNat 96 (x.maskLatch.toNat + hi.toNat * 2 ^ 64)
  let busy := x.state == .active || x.state == .faulted || x.state == .stopping
  if busy || allCtxs.any (fun k => k != c && (s.ctx k).mask &&& v != 0#96) then s.modCtx c (fun x => { x with maskErr := true })
  else
    let leaving := bitList (x.mask.toNat &&& (v ^^^ BitVec.allOnes 96).toNat) 96
    leaving.foldl State.leaveMask (s.modCtx c (fun x => { x with mask := v }))

/-- CTX_TILE_MASK_APPLY (R83). -/
def execCtxTileMaskApply (f : Func) (c : CtxId) (hi : Word) (s : State) : Host.Outcome State Fault Refusal :=
  .next (s.pageWrite f (fun s => s.applyMask c hi))

/-- ENABLE set (R85). -/
def State.enableCtx (s : State) (c : Nat) : State :=
  let s1 := s.modCtx c (fun x => { x with enable := true })
  if (s.ctx c).state == .off then s1.toIdle c else s1

/-- CTX_ENABLE (R85). -/
def execCtxEnable (f : Func) (c : CtxId) (s : State) : Host.Outcome State Fault Refusal := .next (s.pageWrite f (fun s => s.enableCtx c))

/-- ENABLE cleared: the context is reset and left Off; context 0 is never Off (R85). -/
def State.disableCtx (s : State) (c : Nat) : State :=
  if c = 0 ∨ !(s.ctx c).enable then s else (s.modCtx c (fun x => { x with enable := false })).resetCtx c

/-- CTX_DISABLE (R85, R107). -/
def execCtxDisable (f : Func) (c : CtxId) (s : State) : Host.Outcome State Fault Refusal := .next (s.pageWrite f (fun s => s.disableCtx c))

/-- RUN set (R85). -/
def State.setRun (s : State) (c : Nat) : State :=
  let s1 := s.modCtx c (fun x => { x with run := true })
  if (s.ctx c).state == .idle then s1.tryRun c else s1

/-- CTX_RUN_SET (R85). -/
def execCtxRunSet (f : Func) (c : CtxId) (s : State) : Host.Outcome State Fault Refusal := .next (s.ctxWrite f c (fun s => s.setRun c))

/-- RUN cleared (R85). -/
def State.clearRun (s : State) (c : Nat) : State :=
  let s1 := s.modCtx c (fun x => { x with run := false })
  if (s.ctx c).state == .active then (s1.modCtx c (fun x => { x with state := .stopping })).settleStop c else s1

/-- CTX_RUN_CLEAR (R85). -/
def execCtxRunClear (f : Func) (c : CtxId) (s : State) : Host.Outcome State Fault Refusal := .next (s.ctxWrite f c (fun s => s.clearRun c))

/-- RESUME (R85, R106). -/
def State.resume (s : State) (c : Nat) : State :=
  let x := s.ctx c
  if x.state != .faulted then s else
    let s1 := s.modCtx c (fun x => { x with cause := 0, faultInfo := 0#64, cqHold := false })
    let s2 := if x.run then s1.enterActive c else (s1.modCtx c (fun x => { x with state := .stopping })).settleStop c
    s2.flushRecords c

/-- CTX_RESUME (R85, R106). -/
def execCtxResume (f : Func) (c : CtxId) (s : State) : Host.Outcome State Fault Refusal := .next (s.ctxWrite f c (fun s => s.resume c))

/-- CTX_RESET (R107). -/
def execCtxReset (f : Func) (c : CtxId) (s : State) : Host.Outcome State Fault Refusal := .next (s.ctxWrite f c (fun s => s.resetCtx c))

/-- CTX_RESET_DONE (R107). -/
def execCtxResetDone (c : CtxId) (s : State) : Host.Outcome State Fault Refusal :=
  .next (if (s.ctx c).state == .resetting then s.resetDone c else s)

/-- Writable bits of CTX_RING_CFG and CTX_CQ_CFG. -/
def ringCfgBits : Nat := 0x8000003F
def cqCfgBits : Nat := 0xFFFF9F0F

/-- Counts published before a doorbell, once ring q starts from 0 again. -/
def Ring.forget (q : Nat) (r : Ring) : Ring := { r with pubs := r.pubs.map (fun p => (p.1, p.2.set q 0)) }

/-- CTX_RING_CFG_q: an enabled ring takes only a write that disables it in Idle; enabling starts its counts from 0 and keeps a stored
doorbell value (R86, R87). -/
def State.writeRingCfg (s : State) (c q : Nat) (v : Word) : State :=
  let on := s.ringOn c q
  if on ∧ !((s.ctx c).state == .idle ∧ !bitOf v.toNat 31) then s else
    let s1 := s.setReg (rRingCfg c q) (v.toNat &&& ringCfgBits)
    if on then s1.modCtx c (fun x => { x with rings := x.rings.mod {} q (fun r => { r with stored := none, pubs := [] }) })
    else if bitOf v.toNat 31 then
      s1.modCtx c (fun x => { x with rings := Tab.set (x.rings.map (fun (r : Nat × Ring) => (r.1, r.2.forget q))) q { stored := (x.rings.get {} q).stored } })
    else s1

/-- CTX_RING_CFG_WRITE (R86). -/
def execCtxRingCfgWrite (f : Func) (c : CtxId) (q : RingId) (v : Word) (s : State) : Host.Outcome State Fault Refusal :=
  .next (s.ctxWrite f c (fun s => s.writeRingCfg c q v))

/-- CTX_CQ_CFG (R86). -/
def State.writeCqCfg (s : State) (c : Nat) (v : Word) : State :=
  let on := s.cqOn c
  if on ∧ !((s.ctx c).state == .idle ∧ !bitOf v.toNat 15) then s else
    let s1 := s.setReg (rCqCfg c) (v.toNat &&& cqCfgBits)
    if !on ∧ bitOf v.toNat 15 then (s1.modCtx c (fun x => { x with produced := 0, consumed := 0 })).flushRecords c else s1

/-- CTX_CQ_CFG_WRITE (R86). -/
def execCtxCqCfgWrite (f : Func) (c : CtxId) (v : Word) (s : State) : Host.Outcome State Fault Refusal :=
  .next (s.ctxWrite f c (fun s => s.writeCqCfg c v))

/-- What the host does to its memory before the doorbell (log 6). -/
def State.hostUpdate (s : State) (h : HostUpdate) : State :=
  { s with host := { data := h.stores.foldl (fun m x => m.writeN x.1 x.2) s.host.data, deny := h.deny, poison := h.poison } }

/-- A RING_DB write (R87, R88). -/
def State.ringDoorbell (s : State) (c q : Nat) (v : Word) : State :=
  match (s.ctx c).state with
  | .off | .idle | .resetting => s.countErr
  | .active => if s.ringOn c q then s.publish c q v else s.countErr
  | .faulted | .stopping => s.modCtx c (fun x => { x with rings := x.rings.mod {} q (fun r => { r with stored := some v }) })

/-- RING_DB (R87). -/
def execRingDb (f : Func) (c : CtxId) (q : RingId) (v : Word) (host : HostUpdate) (s : State) : Host.Outcome State Fault Refusal :=
  .next ((s.hostUpdate host).ctxWrite f c (fun s => s.ringDoorbell c q v))

/-- A CQ_DB write (R87, R88, R92). -/
def State.cqDoorbell (s : State) (c : Nat) (v : Word) : State :=
  let x := s.ctx c
  match x.state with
  | .off | .resetting => s.countErr
  | _ =>
    let n := (v - word x.consumed).toNat
    if x.produced - x.consumed < n then s.ctxFault c 2 (16 * 2 ^ 32 + v.toNat)
    else (s.modCtx c (fun x => { x with consumed := x.consumed + n })).flushRecords c

/-- CQ_DB (R87). -/
def execCqDb (f : Func) (c : CtxId) (v : Word) (s : State) : Host.Outcome State Fault Refusal :=
  .next (s.ctxWrite f c (fun s => s.cqDoorbell c v))

/-- PRIO of ring q of a context. -/
def State.ringPrio (s : State) (c q : Nat) : Nat := fld (s.reg (rRingCfg c q)) 4 2

/-- Ring q of a context is enabled and has something to fetch (R90). -/
def State.fetchable (s : State) (c q : Nat) : Bool :=
  s.ringOn c q && decide (((s.ctx c).rings.get {} q).fetched < ((s.ctx c).rings.get {} q).published)

/-- A poisoned completion sets the Poisoned TLP Received bit in the home port's Advanced Error Reporting (R75; log 15). -/
def State.notePoison (s : State) (f : Func) (g : Got) : State :=
  if g.stop = some stPoison then s.modHostPort (s.homePort f) (fun p => { p with aerUncorr := p.aerUncorr ||| 0x1000#32 }) else s

/-- Fetches n descriptors of a ring one by one; a read that fails faults the context (R90, R106). -/
def State.fetchRing (c q : Nat) : Nat → State → State
  | 0, s => s
  | n + 1, s =>
    let x := s.ctx c
    let r := x.rings.get {} q
    let a := s.reg (rRingBase c q) + 64 * (r.fetched % s.ringSize c q)
    let g := s.hostRead x.func a 64
    if g.stop.isSome then (s.notePoison x.func g).ctxFault c 3 (a + g.data.length) else
      let before := (List.find? (fun (p : Nat × List Nat) => decide (r.fetched < p.1)) r.pubs).elim [] (fun p => p.2)
      let d : Desc := { ring := q, pos := r.fetched, bytes := BitVec.ofNat 512 (leNat g.data), before := before }
      let r' : Ring := { r with fetched := r.fetched + 1, pubs := r.pubs.filter (fun p => decide (r.fetched + 1 < p.1)) }
      State.fetchRing c q n (s.setCtx c { x with rings := x.rings.set q r', descs := x.descs ++ [d] })

/-- A context from whose rings the module may fetch (R85, R113, R427). -/
def State.mayFetch (s : State) (c : Nat) : Bool := (s.ctx c).state == .active && s.pathUp (s.ctx c).func && !s.chip.safeHold

/-- The rings of every context that the module may fetch from, as (PRIO, 16 times the context plus the ring). -/
def State.fetchRings (s : State) : List (Nat × Nat) :=
  (allCtxs.filter s.mayFetch).flatMap (fun c => ((List.range 16).filter (s.fetchable c)).map (fun q => (s.ringPrio c q, 16 * c + q)))

/-- How far the round-robin of a PRIO is from a ring (R90). -/
def State.ringTurn (s : State) (r : Nat × Nat) : Nat := (r.2 + 1024 - s.nextFetch.get 0 r.1) % 1024

/-- The ring that is served next, of all contexts: highest PRIO, then round-robin (R90). -/
def State.nextRing (s : State) : Option (Nat × Nat) :=
  (sortBy (fun a b => decide (b.1 < a.1) || (a.1 == b.1 && decide (s.ringTurn a ≤ s.ringTurn b))) s.fetchRings).head?

/-- Up to n descriptors of the ring served next, if it is one of the context's (R90; log 94). -/
def State.fetch (s : State) (c n : Nat) : State :=
  match s.nextRing with
  | none => s
  | some (prio, k) =>
    if k / 16 ≠ c then s else
      let r := (s.ctx c).rings.get {} (k % 16)
      State.fetchRing c (k % 16) (min (min n 16) (r.published - r.fetched)) { s with nextFetch := s.nextFetch.set prio ((k + 1) % 1024) }

/-- DESCRIPTOR_FETCH (R90). -/
def execDescriptorFetch (c : CtxId) (n : Nat) (s : State) : Host.Outcome State Fault Refusal := .next (s.fetch c n)

/-- Every descriptor that a FENCE waits for has completed (R96). -/
def Ctx.fenceDone (x : Ctx) (mask : Nat) (upTo : List Nat) : Bool :=
  (bitList mask 16).all (fun k =>
    decide (upTo.getD k 0 ≤ (x.rings.get {} k).fetched) && x.descs.all (fun d => d.ring != k || decide (upTo.getD k 0 ≤ d.pos)))

/-- FENCEs whose wait is over end (R96). -/
def State.settleFences (s : State) (c : Nat) : State :=
  (s.ctx c).descs.foldl (fun s d =>
    match d.work with
    | .fence m u => if d.ending.isNone && (s.ctx c).fenceDone m u then s.endDesc c d.ring d.pos (endOk 0) else s
    | _ => s) s

/-- FENCE waits (R96). -/
def runFence (c : Nat) (s : State) (d : Desc) : State :=
  (s.setWork c d (.fence (d.num 16 2 ||| 2 ^ d.ring) d.before)).settleFences c

/-- FENCE (R96). -/
def execFence (c : CtxId) (q : RingId) (p : Word) (s : State) : Host.Outcome State Fault Refusal :=
  .next (s.startDesc c q p (fun d => d.opcode == 1) (fun _ => false) (fun _ _ => { reserved := [(18, 46)] }) (runFence c))

/-- Work of an open step: its completion with a status other than OK is a local failure (R392); in COMMITTING step 2 of R391 finds it. -/
def State.noteStatus (s : State) (c : Nat) (d : Desc) (e : Ending) : State :=
  let m := (s.ctx c).mile
  let counts := (d.opcode == 2 || d.opcode == 3 || d.opcode == 4 || d.opcode == 6) && d.start.any (fun n => decide (m.openStart ≤ n))
  if !counts ∨ e.status = stOk then s
  else if m.state = 2 then s.localFail c 0x01#8
  else if m.state = 3 then s.modMile c (fun m => { m with badWork := true })
  else s

/-- What waits for completions goes on (R85, R96, R369, R371, R391). -/
def State.settle (s : State) (c : Nat) : State :=
  ((((s.settleFences c).commitProgress c).turnProgress c).settleFlipWaits c).settleStop c

/-- A descriptor whose work has ended completes: its record is written or held (R91, R92), STRICT may fault the context (R104). A record of
work in flight joins the queue of held records though it holds 256 already (R92; log 122). -/
def State.complete (s : State) (c : Nat) (d : Desc) (e : Ending) : State :=
  let s1 := (s.modCtx c (fun x => { x with
    descs := x.descs.filter (fun y => !(y.ring == d.ring && y.pos == d.pos))
    held := x.held ++ [s.recOf d e] })).flushRecords c
  let s2 := if e.status = stState ∧ (s.ctx c).strict then s1.ctxFault c 1 (d.ring * 2 ^ 32 + (word d.pos).toNat) else s1
  (s2.noteStatus c d e).settle c

/-- How a descriptor whose work has ended completes: a WAYMARK whose shadow ranges were written while it read them with STATE, its
destination no Waymark (R408). -/
def State.finalEnding (s : State) (c : Nat) (d : Desc) (e : Ending) : State × Ending :=
  match d.work, (s.ctx c).mile.setup with
  | .waymark img, some u =>
    if e.status = stOk ∧ (s.readSpans (s.rangeSpans u.shadow)).data ≠ img then
      (((s.writeHeld c (d.num 24 8) 0 (s.freeBytes (64 + img.length))).1).bump, endWith stState)
    else (s, e)
  | _, _ => (s, e)

/-- A PLACE whose moves a quarantine has ended is done (R248). -/
def State.settlePlace (s : State) (c q : Nat) (p : Word) : State :=
  match s.desc? c q p with
  | some d => (match d.work with
    | .place _ => s.settleHalted
    | _ => s)
  | none => s

/-- DESCRIPTOR_COMPLETE (R91). -/
def execDescriptorComplete (c : CtxId) (q : RingId) (p : Word) (s0 : State) : Host.Outcome State Fault Refusal :=
  let s := s0.settlePlace c q p
  .next (match s.desc? c q p with
    | some d => (match d.ending with
      | some e => if (s.ctx c).state == .resetting then s else (s.finalEnding c d e).1.complete c d (s.finalEnding c d e).2
      | none => s)
    | none => s)

/-- COALESCE_TIMEOUT (R93). -/
def execCoalesceTimeout (c : CtxId) (s : State) : Host.Outcome State Fault Refusal :=
  .next (if 0 < (s.ctx c).coalN ∧ fld (s.reg (rCqCfg c)) 16 8 ≠ 0 then
      (s.modCtx c (fun x => { x with coalN := 0 })).raiseVec c (fld (s.reg (rCqCfg c)) 8 5)
    else s)

/-- DESCRIPTOR_TIMEOUT; FENCE, COLLECTIVE, MILEPOST and SWITCHBACK have timers of their own or none (R108). -/
def execDescriptorTimeout (c : CtxId) (q : RingId) (p : Word) (s : State) : Host.Outcome State Fault Refusal :=
  .next (match s.desc? c q p with
    | some d =>
      if d.start.isNone || d.ending.isSome || d.opcode == 1 || d.opcode == 4 || d.opcode == 0x0C || d.opcode == 0x0D then s
      else s.cancelWork c d stTimeout
    | none => s)

/-- The checks of COPY (R97, R102). -/
def copyChk (c : Nat) (s : State) (d : Desc) : Chk :=
  let n := d.num 32 8
  let a := s.resolve c (d.num 16 8)
  let b := s.resolve c (d.num 24 8)
  { reserved := [(40, 24)]
    format := [badRef d 16, badRef d 24, (n + 1 != 2 ^ 64 && a.overlaps b n n, 24), allOnes d 32 8]
    bounds := [(decide (a.extent < n ∨ b.extent < n), 32)]
    zero := n == 0 }


/-- The host address of a byte of a target: of a block in the slow tier, or in a window. -/
def State.hostByte (s : State) (t : Target) (i : Nat) : Option Nat :=
  match t.space with
  | .dev _ => s.backing (t.addr + i)
  | .host _ => some (t.addr + i)
  | .nothing => none

/-- The ranges of host memory that n bytes of a target take, block by block of the slow tier. -/
def State.hostSpans (s : State) (t : Target) (n : Nat) : List (Nat × Nat) :=
  match t.space with
  | .dev _ => (List.range (n / blockBytes + 2)).filterMap (fun k =>
      let lo := max t.addr ((t.addr / blockBytes + k) * blockBytes)
      let hi := min (t.addr + n) ((t.addr / blockBytes + k + 1) * blockBytes)
      if hi ≤ lo then none else (s.backing lo).map (fun h => (h, hi - lo)))
  | .host _ => [(t.addr, n)]
  | .nothing => []

/-- What a COPY writes: its source's bytes, but undefined ones where source and destination share host memory, the one by a window and the
other by a slow-tier region (R97). -/
def State.copyBytes (s : State) (a b : Target) (bs : List Byte) : List Byte :=
  let spans := if a.isHost = b.isHost then [] else s.hostSpans a bs.length
  bs.zipIdx.map (fun x => if (s.hostByte b x.2).any (fun h => spans.any (fun r => decide (r.1 ≤ h) && decide (h < r.1 + r.2))) then
    Config.freeByte (s.fresh * 2 ^ 41 + x.2) else x.1)

/-- COPY (R97, R105, R246). -/
def runCopy (c : Nat) (s : State) (d : Desc) : State :=
  let n := d.num 32 8
  let s0 := s.touchRefs c [d.num 16 8, d.num 24 8]
  let a := s0.resolveHeld c (s0.pinRef c (d.num 16 8))
  let b := s0.resolveHeld c (s0.pinRef c (d.num 24 8))
  let g := s0.readTarget c a n
  let s1 := s0.reachTarget a n
  match (if a.isHost = b.isHost then s1 else s1.bump).writeTarget c b (s1.copyBytes a b g.data) with
  | (s2, some (st, k)) => s2.endDesc c d.ring d.pos { status := st, result := dword k }
  | (s2, none) =>
    match g.stop with
    | none => s2.endDesc c d.ring d.pos (endOk n)
    | some st =>
      let k := g.data.length
      let s3 := if st = stPoison then s2.carryPoison (b.plus k) (min (64 - (a.addr + k) % 64) (n - k)) else s2
      s3.endDesc c d.ring d.pos { status := st, result := dword k }

/-- COPY (R97). -/
def execCopy (c : CtxId) (q : RingId) (p : Word) (s : State) : Host.Outcome State Fault Refusal :=
  .next (s.startDesc c q p (fun d => d.opcode == 2) (fun _ => false) (copyChk c) (runCopy c))

end Sys2Proof.Machine
end

