-- ==== Sys2Proof/Machine/CollCmd.lean ====
section
/-!
DEFINITION. COLLECTIVE (R271 to R276, R344, R398), its timeouts (R278, R283), and the trigger entries that start armed ones (R343, R345).
-/
namespace Sys2Proof.Machine

def isColl (op : Nat) (d : Desc) : Bool := d.opcode == 4 && d.num 16 1 == op

def collFlags (d : Desc) : Nat := d.num 18 1

/-- The trigger entry that a TRIGGER COLLECTIVE arms against: that of its SRC object; RECV and QRECV have no SRC (R344; log 113). -/
def State.trigOfDesc (s : State) (c : Nat) (d : Desc) : Option Nat :=
  if d.num 16 1 = 6 ∨ d.num 16 1 = 8 ∨ fld (d.num 24 8) 60 4 ≠ 0 then none
  else (s.ctx c).trig.findIdx? (fun e => e.gradObj == refId (d.num 24 8))

/-- Bytes that SRC holds and DST receives, for n ranks (R272). -/
def collBytes (op n : Nat) (d : Desc) (root : Bool) : Nat × Nat :=
  let si := if op = 7 ∨ op = 8 then 1 else dtSize (d.num 17 1 % 16)
  let so := dtSize (d.num 17 1 / 16)
  let k := d.num 40 8
  match op with
  | 1 => (n * k * si, k * so)
  | 2 => (k * si, n * k * si)
  | 3 => (k * si, k * so)
  | 4 => (if root then k * si else 0, k * si)
  | 5 => (k * si, 0)
  | 6 => (0, k * si)
  | 7 => (k, 0)
  | _ => (0, k)

/-- The checks of a COLLECTIVE (R102, R202, R266, R269, R271, R272, R344, R398). The arrival-order flag of an operation that makes no reduction
is ignored (log 123). -/
def collChk (op c : Nat) (s : State) (d : Desc) : Chk :=
  let x := s.ctx c
  let queue := op == 7 || op == 8
  let g := d.num 20 2
  let grp := s.readGroup c g
  let badGroup := match grp with
    | .error st => st == stFormat
    | .ok _ => false
  let n := match grp with
    | .ok r => r.ranks.length
    | .error _ => 1
  let me := match grp with
    | .ok r => r.me
    | .error _ => 0
  let q := x.queues.find? g
  let dtIn := d.num 17 1 % 16
  let dtOut := d.num 17 1 / 16
  let red := op == 1 || op == 3
  let arrival := bitOf (collFlags d) 0
  let trigger := bitOf (collFlags d) 1
  let root := decide (d.num 22 2 = me)
  let b := collBytes op n d root
  let src := s.resolve c (d.num 24 8)
  let dst := s.resolve c (d.num 32 8)
  let inPlace := op == 3 && decide (src.space = dst.space) && src.addr == dst.addr && b.1 == b.2
  let num := s.reg (rNumCtl c)
  let e := s.trigOfDesc c d
  { reserved := [(19, 1), (48, 16)]
    reservedBits := [(decide (8 ≤ collFlags d), 18)]
    format := [(decide (2 < dtIn ∨ 1 < dtOut) || (red && dtIn == 2) || (!red && dtOut != 0), 17),
      (if queue then decide (63 < g) else decide (255 < g) || badGroup, 20),
      (if op = 4 ∨ op = 5 ∨ op = 6 then decide (n ≤ d.num 22 2) else d.num 22 2 != 0, 22),
      (if op = 6 ∨ op = 8 then d.num 24 8 != 0 else !refDefined (d.num 24 8), 24),
      (if op = 5 ∨ op = 7 then d.num 32 8 != 0 else !refDefined (d.num 32 8), 32),
      (op != 5 && op != 6 && !queue && !inPlace && src.overlaps dst b.1 b.2, 32), allOnes d 40 8]
    auth := [(s.tag c == 0, 0)]
    bounds := [(decide (src.extent < b.1 ∨ dst.extent < b.2) || (queue && q.any (fun y => decide (y.slotBytes < d.num 40 8)))
      || (op == 1 && x.mile.setup.any (fun u => u.shadowGroup == g && (x.mile.state == 2 || x.mile.state == 3)
        && decide (s.objSize c u.keepObj < dst.extent + refOff (d.num 32 8)))), 40)]
    zero := d.num 40 8 == 0
    expelled := x.mile.state == 6
    state := !bitOf (s.reg rModAddr) 31
      || (red && arrival && (bitOf num 0 || !bitOf num 2))
      || (queue && !q.any (fun y => y.role == (if op = 7 then 1 else 2)))
      || (trigger && ((x.mile.state != 2 && x.mile.state != 3) || e.isNone || (op == 1 && e.any (fun i => (x.trig[i]?).any (fun t => t.norm && t.normArmed))))) }

/-- The references that an operation uses: SEND and QSEND have no DST, RECV and QRECV no SRC (R225, R272). -/
def collRefs (op : Nat) (d : Desc) : List Nat :=
  if op = 5 ∨ op = 7 then [d.num 24 8] else if op = 6 ∨ op = 8 then [d.num 32 8] else [d.num 24 8, d.num 32 8]

/-- The trigger entry that a COLLECTIVE with TRIGGER waits for or starts by (R276, R344). -/
def State.arms (s : State) (c : Nat) (d : Desc) : Option Nat := if bitOf (collFlags d) 1 then s.trigOfDesc c d else none

/-- That entry has fired in this step already. -/
def State.hasFired (s : State) (c : Nat) (e : Option Nat) : Bool := e.any (fun i => ((s.ctx c).trig[i]?).any (fun t => t.fired))

/-- A COLLECTIVE on a group takes its SEQ, and starts or arms (R271, R273, R344); one that its checks end, a zero COUNT among them, takes none
(log 123). -/
def runColl (op c : Nat) (s : State) (d : Desc) : State :=
  match s.readGroup c (d.num 20 2) with
  | .error st => (s.reachGroup c (d.num 20 2)).endDesc c d.ring d.pos (endWith st)
  | .ok g =>
    let e := s.arms c d
    let fired := s.hasFired c e
    let t := (s.touchRefs c (collRefs op d)).takeSeq c (d.num 20 2)
    let r : CollRun :=
      { op := op, dtIn := d.num 17 1 % 16, dtOut := d.num 17 1 / 16, arrival := bitOf (collFlags d) 0, bulk := bitOf (collFlags d) 2
        group := d.num 20 2, peer := d.num 22 2, src := dword (s.pinRef c (d.num 24 8)), dst := dword (s.pinRef c (d.num 32 8))
        count := d.num 40 8, seq := t.2, me := g.me, ranks := g.ranks, armed := e, entry := if fired then e else none }
    let s1 := match e with
      | some i => if op = 1 then t.1.modCtx c (fun x => { x with trig := updAt x.trig i (fun t => { t with normArmed := true }) }) else t.1
      | none => t.1
    let s2 := s1.setWork c d (.coll r)
    if e.isSome ∧ !fired then s2 else s2.tryColl c d.ring d.pos

/-- A QSEND or QRECV joins its queue, at once or when its entry fires (R276, R282, R344). -/
def runQueue (op c : Nat) (s : State) (d : Desc) : State :=
  let e := s.arms c d
  let r : CollRun :=
    { op := op, dtIn := 2, group := d.num 20 2, src := dword (s.pinRef c (d.num 24 8)), dst := dword (s.pinRef c (d.num 32 8)), count := d.num 40 8, seq := 0
      armed := if s.hasFired c e then none else e, entry := e }
  let r := { r with held := r.armed.isNone && s.collWaits c r }
  ((s.touchRefs c (collRefs op d)).setWork c d (.coll r)).driveQueue c (d.num 20 2)

/-- COLLECTIVE REDUCE_SCATTER (R272, R274, R275). -/
def execReduceScatter (c : CtxId) (q : RingId) (p : Word) (s : State) : Host.Outcome State Fault Refusal :=
  .next (s.startDesc c q p (isColl 1) (fun _ => false) (collChk 1 c) (runColl 1 c))

/-- COLLECTIVE ALL_GATHER (R272). -/
def execAllGather (c : CtxId) (q : RingId) (p : Word) (s : State) : Host.Outcome State Fault Refusal :=
  .next (s.startDesc c q p (isColl 2) (fun _ => false) (collChk 2 c) (runColl 2 c))

/-- COLLECTIVE ALL_REDUCE (R272, R274). -/
def execAllReduce (c : CtxId) (q : RingId) (p : Word) (s : State) : Host.Outcome State Fault Refusal :=
  .next (s.startDesc c q p (isColl 3) (fun _ => false) (collChk 3 c) (runColl 3 c))

/-- COLLECTIVE BROADCAST (R272). -/
def execBroadcast (c : CtxId) (q : RingId) (p : Word) (s : State) : Host.Outcome State Fault Refusal :=
  .next (s.startDesc c q p (isColl 4) (fun _ => false) (collChk 4 c) (runColl 4 c))

/-- COLLECTIVE SEND (R272). -/
def execSend (c : CtxId) (q : RingId) (p : Word) (s : State) : Host.Outcome State Fault Refusal :=
  .next (s.startDesc c q p (isColl 5) (fun _ => false) (collChk 5 c) (runColl 5 c))

/-- COLLECTIVE RECV (R272). -/
def execRecv (c : CtxId) (q : RingId) (p : Word) (s : State) : Host.Outcome State Fault Refusal :=
  .next (s.startDesc c q p (isColl 6) (fun _ => false) (collChk 6 c) (runColl 6 c))

/-- COLLECTIVE QSEND (R282). -/
def execQsend (c : CtxId) (q : RingId) (p : Word) (s : State) : Host.Outcome State Fault Refusal :=
  .next (s.startDesc c q p (isColl 7) (fun _ => false) (collChk 7 c) (runQueue 7 c))

/-- COLLECTIVE QRECV (R282). -/
def execQrecv (c : CtxId) (q : RingId) (p : Word) (s : State) : Host.Outcome State Fault Refusal :=
  .next (s.startDesc c q p (isColl 8) (fun _ => false) (collChk 8 c) (runQueue 8 c))

/-- The missing peer of a COLLECTIVE: the first rank that still owes bytes, else the first not served (R278). -/
def CollRun.missing (r : CollRun) : Option Nat :=
  match (List.range r.n).find? (fun k => r.got.get 0 k != r.need k) with
  | some k => some k
  | none => r.serves.find? (fun k => !r.sent.contains k || r.out.any (fun o => o.1 == k))

/-- Its module address: that of the missing rank, of the other end of a queue, else of a module to which a frame still waits for credits
or a live port (R278). -/
def State.missingAddr (s : State) (c : Nat) (r : CollRun) : Option Nat :=
  if r.op = 7 ∨ r.op = 8 then ((s.ctx c).queues.find? r.group).map (fun x => x.peer)
  else match r.missing with
    | some k => r.ranks[k]?
    | none => (s.unsent (s.tag c) r.group r.seq).head?.map (fun f => hdrDst f.hdr)

/-- UNIT of a timeout: the first port of the route mask of a module, plus 0x100 (R278). -/
def State.firstPort (s : State) (addr : Option Nat) : Half :=
  match addr.bind (fun a => (bitList (s.route a).toNat 64).head?) with
  | some p => half (p + 0x100)
  | none => 65535#16

/-- Held results of a newer epoch that wait for a transfer, or for the slots of a queue, are discarded and counted, and so is whatever has
waited for the collective timeout (R112). -/
def State.dropNewer (s : State) (c : Nat) (r : CollRun) : State :=
  (s.discardNewer c (fun f =>
    hdrGroup f.2.hdr == r.group && (if r.op = 8 then hdrVc f.2.hdr == 2 else hdrVc f.2.hdr != 2 && hdrSeq f.2.hdr == r.seq))).expireNewer c

/-- A COLLECTIVE without progress ends with TIMEOUT, a QSEND too whose frames cannot leave; an armed one has no timer (R278, R345). Results of
a newer epoch that have waited for the timeout are discarded, whether a COLLECTIVE expires or not (R112). -/
def State.collExpire (s : State) (c : Nat) (q : Nat) (p : Word) : State :=
  match s.desc? c q p with
  | none => s.expireNewer c
  | some d =>
    match d.work with
    | .coll r =>
      if r.armed.isSome ∨ d.ending.isSome ∨ (r.op = 7 ∧ !r.final) then s.expireNewer c
      else (s.dropNewer c r).endColl c d.ring d.pos stTimeout (s.firstPort (s.missingAddr c r))
    | _ => s.expireNewer c

/-- COLLECTIVE_TIMEOUT (R278). -/
def execCollectiveTimeout (c : CtxId) (q : RingId) (p : Word) (s : State) : Host.Outcome State Fault Refusal := .next (s.collExpire c q p)

/-- A QSEND that has waited too long for a credit ends; the queue stays open (R283). -/
def State.qsendExpire (s : State) (c : Nat) (q : Nat) (p : Word) : State :=
  match s.desc? c q p with
  | none => s
  | some d =>
    match d.work with
    | .coll r =>
      if r.op ≠ 7 ∨ r.final ∨ r.armed.isSome ∨ d.ending.isSome then s
      else s.endColl c d.ring d.pos stTimeout (s.firstPort (s.missingAddr c r))
    | _ => s

/-- QSEND_TIMEOUT (R283). -/
def execQsendTimeout (c : CtxId) (q : RingId) (p : Word) (s : State) : Host.Outcome State Fault Refusal := .next (s.qsendExpire c q p)


/-- The COLLECTIVEs armed against entry i start in arming order (R345). -/
def State.fireEntry (s : State) (c i : Nat) : State :=
  let armed := sortBy (fun a b => decide (a.start.getD 0 ≤ b.start.getD 0)) ((s.ctx c).descs.filter (fun d => match d.work with
    | .coll r => r.armed == some i && d.ending.isNone
    | _ => false))
  armed.foldl (fun s d => (s.modColl c d.ring d.pos (fun r => { r with entry := some i })).tryColl c d.ring d.pos) s

/-- An EXEC of program `prog` has completed with OK: each entry of an open step that names it counts it, and those whose count is
reached fire in ascending order (R343, R345). -/
def State.countTriggers (s : State) (c prog : Nat) : State :=
  let x := s.ctx c
  if x.mile.state ≠ 2 ∧ x.mile.state ≠ 3 then s else
    let hits := (List.range x.trig.length).filter (fun i => (x.trig[i]?).any (fun e => e.prog == prog && !e.fired))
    let s1 := hits.foldl (fun s i => s.modCtx c (fun x => { x with trig := updAt x.trig i (fun e =>
      { e with count := e.count + 1, fired := decide (e.fireAfter ≤ e.count + 1) }) })) s
    let fired := hits.filter (fun i => ((s1.ctx c).trig[i]?).any (fun e => e.fired))
    let s2 := if fired.isEmpty then s1 else s1.modMile c (fun m => { m with tLastFire := some s.time })
    fired.foldl (fun s i => s.fireEntry c i) s2

end Sys2Proof.Machine
end

