-- ==== Sys2Proof/Machine/Ports.lean ====
section
/-!
DEFINITION. Causeway links (R252, R253), port states (R255 to R260), received frames (R262 to R269, R277 to R280), and the owner's writes
of module address, routes and tags.
-/
namespace Sys2Proof.Machine

/-- CAUSEWAY_CRC_RETRY: the transfer is retried; no data is lost or reordered (R252). -/
def execCausewayCrcRetry (_ : LinkId) (s : State) : Host.Outcome State Fault Refusal := .next s

/-- A link is marked down, so that traffic takes the paths that avoid it; DEGRADED follows from DOWN; vector 1 of context 0 (R253). -/
def State.cwFail (s : State) (l : Nat) : State :=
  ({ s with fabric := { s.fabric with cwDown := s.fabric.cwDown ||| BitVec.ofNat 10 (2 ^ l) } }.logEv 4 [l]).raiseVec 0 1

/-- A lane of one direction moves to a spare; with all 4 spares of the direction in use the link fails (R252, R253). -/
def State.spareLane (s : State) (d : LinkDir) : State :=
  let l := d.link.val
  let k := 2 * l + b2n d.back
  let n := s.fabric.cwSpares.get 0 k
  if s.fabric.cwDown.getLsbD l then s
  else if 4 ≤ n then s.cwFail l
  else { s with fabric := { s.fabric with cwSpares := s.fabric.cwSpares.set k (n + 1), cwSpared := s.fabric.cwSpared ||| BitVec.ofNat 10 (2 ^ l) } }.logEv 3 [l]

/-- CAUSEWAY_LANE_SPARE (R252). -/
def execCausewayLaneSpare (l : LinkDir) (s : State) : Host.Outcome State Fault Refusal := .next (s.spareLane l)

/-- CAUSEWAY_LINK_DOWN (R253). -/
def execCausewayLinkDown (l : LinkId) (s : State) : Host.Outcome State Fault Refusal := .next (s.cwFail l)

/-- COLLECTIVEs whose last frame has left are done (R272). -/
def State.settleAll (s : State) : State := (s.ctxs.map (fun (x : Nat × Ctx) => x.1)).foldl (fun s c => (s.settleColls c).turnProgress c) s

/-- The unacknowledged and queued frames of a port that leaves UP or TRAIN, but for the link's own (R277). -/
def Port.leftOver (x : Port) : List Frame := ((x.replay ++ x.queued).filter (fun f => !f.isLink)).map (fun f => { f with replays := 0 })

/-- A port that leaves UP or TRAIN for a state. -/
def Port.leave (x : Port) (st : Nat) : Port :=
  { x with
    state := st, credits := [], share := [], queued := [], replay := [], linkSeq := 0#16, recvSeq := 0#16, peerMod := 0
    peerPort := if st = 3 then x.peerPort else 0
    fails := 0 }

/-- Ports leave UP or TRAIN together: then their frames go to other ports of their masks (R277, R291). -/
def State.leavePorts (s : State) (ps : List Nat) (st : Nat) : State :=
  let fs := (ps.map (fun p => (s.port p).leftOver)).flatten
  (fs.foldl State.placeFrame (ps.foldl (fun s p => s.modPort p (fun x => x.leave st)) s)).settleAll

def State.leavePort (s : State) (p st : Nat) : State := s.leavePorts [p] st

/-- DARK, or PROBE where the connector switch is closed already (R255). -/
def State.darkOrProbe (s : State) (p : Nat) : State :=
  s.modPort p (fun x => if x.conn then { x with state := 2 } else { x with state := 1, swapped := false })

/-- An engine has a cartridge in service (R255, R289). -/
def State.engineLit (s : State) (d : Nat) : Bool :=
  let lit := fun (b : Nat) => decide (2 ≤ (s.bay b).state ∧ (s.bay b).state ≤ 4)
  lit (2 * d) || lit (2 * d + 1)

/-- A port leaves OFF for DARK, and so for PROBE with the switch closed, once no cause holds it there (R255, R257, R291; log 115). -/
def State.leaveOff (s : State) (p : Nat) : State :=
  if (s.port p).state = 0 ∧ 3 ≤ s.chip.stage ∧ s.engineLit (p / 8) ∧ !bitOf (s.reg (rPortCtl p)) 0
      ∧ !s.inputs.domainsOff.contains (386 + 3 * (p / 8)) then (s.modPort p (fun x => { x with swapped := false })).darkOrProbe p else s

/-- The eight ports of a die. -/
def diePorts (d : Nat) : List Nat := (List.range 8).map (fun k => 8 * d + k)

/-- The connector switch of a die's ports opens (R40, R255). -/
def State.connOpen (s : State) (d : Nat) : State :=
  let s1 := (diePorts d).foldl (fun s p =>
    let s1 := s.modPort p (fun x => { x with conn := false, ret := false })
    if (s.port p).state = 2 ∨ (s.port p).state = 6 then s1.darkOrProbe p else s1) s
  s1.leavePorts ((diePorts d).filter (fun p => (s.port p).state == 3 || (s.port p).state == 4)) 5

/-- PORT_CONNECTOR_OPEN (R40). -/
def execPortConnectorOpen (d : DieId) (s : State) : Host.Outcome State Fault Refusal := .next (s.connOpen d)

/-- PORT_RETURN_LOST: the light goes off and the port holds (R40, R255, R260). -/
def execPortReturnLost (p : PortId) (s : State) : Host.Outcome State Fault Refusal :=
  .next (let s1 := s.modPort p (fun x => { x with ret := false })
    if (s.port p).state = 3 ∨ (s.port p).state = 4 then s1.leavePort p 5 else s1)

/-- PORT_CONNECTOR_CLOSE (R255). -/
def execPortConnectorClose (d : DieId) (s : State) : Host.Outcome State Fault Refusal :=
  .next ((diePorts d).foldl (fun s p => s.modPort p (fun x => { x with conn := true, state := if x.state = 1 then 2 else x.state })) s)

/-- PORT_PROBE_BURST: in PROBE and LOOP the port sends its probe, with the module's serial and its number (R259). -/
def execPortProbeBurst (p : PortId) (s : State) : Host.Outcome State Fault Refusal :=
  .next (if (s.port p).state = 2 ∨ (s.port p).state = 6 then s.emit (.probe p.val Config.serial) else s)

/-- PORT_PROBE_SEEN: to TRAIN, or to LOOP where the probe is this module's own (R255, R258). -/
def execPortProbeSeen (p : PortId) (serial : DWord) (farPort : Fin 64) (s : State) : Host.Outcome State Fault Refusal :=
  .next (s.modPort p (fun x => if x.state ≠ 2 then x else { x with ret := true, peerPort := farPort.val, state := if serial = Config.serial then 6 else 3 }))

/-- PORT_CROSSED_PAIR: the end with the lower pair (serial, port number) exchanges its fibre roles (R257). -/
def execPortCrossedPair (p : PortId) (serial : DWord) (farPort : Fin 64) (s : State) : Host.Outcome State Fault Refusal :=
  .next (s.modPort p (fun x =>
    if x.state = 2 ∧ (Config.serial < serial ∨ (Config.serial = serial ∧ p.val < farPort.val)) then { x with swapped := true } else x))

/-- PORT_LOOP_DETECT (R258). -/
def execPortLoopDetect (p : PortId) (s : State) : Host.Outcome State Fault Refusal :=
  .next (s.modPort p (fun x => if x.state = 2 then { x with state := 6 } else x))

/-- PORT_TRAIN_DONE: 512 credits per virtual channel; frames that waited for a port leave (R256, R263, R277). -/
def execPortTrainDone (p : PortId) (peerMod : BitVec 12) (peerPort : Fin 64) (s : State) : Host.Outcome State Fault Refusal :=
  .next (if (s.port p).state ≠ 3 then s else
    ((s.modPort p (fun x => { x with
      state := 4
      ret := true
      fails := 0
      peerMod := peerMod.toNat
      peerPort := peerPort.val
      linkSeq := 0#16
      recvSeq := 0#16
      share := []
      credits := [(0, 512), (1, 512), (2, 512), (3, 512)] })).sendWaiting).settleAll)

/-- PORT_TRAIN_FAIL: the third in a row ends in FAIL (R255). -/
def execPortTrainFail (p : PortId) (s : State) : Host.Outcome State Fault Refusal :=
  .next (s.modPort p (fun x => if x.state ≠ 3 then x else if 2 ≤ x.fails then { x with state := 7, fails := 0 } else { x with fails := x.fails + 1 }))

/-- PORT_HOLD_EXPIRE (R255). -/
def execPortHoldExpire (p : PortId) (s : State) : Host.Outcome State Fault Refusal :=
  .next (if (s.port p).state = 5 then s.darkOrProbe p else s)

/-- PORT_FAIL_EXPIRE (R255). -/
def execPortFailExpire (p : PortId) (s : State) : Host.Outcome State Fault Refusal :=
  .next (if (s.port p).state = 7 then s.darkOrProbe p else s)

/-- OPX_PORT_CTL_p: DISABLE sends the port to OFF, without light or probe; SWAPPED stays (R255, R257, R259). -/
def State.writePortCtl (s : State) (p : Nat) (v : Word) : State :=
  let s1 := s.setReg (rPortCtl p) (v.toNat % 2)
  if v.toNat % 2 = 1 then s1.leavePort p 0 else s1.leaveOff p

/-- OPX_PORT_DISABLE (R255). -/
def execOpxPortDisable (f : Func) (p : PortId) (v : Word) (s : State) : Host.Outcome State Fault Refusal :=
  .next (s.ownerWrite f (fun s => s.writePortCtl p v))

/-- The context whose tag a frame carries (R269). -/
def State.ctxOfTag (s : State) (tag : Nat) : Option Nat := if tag = 0 then none else allCtxs.find? (fun c => s.tag c == tag)

/-- A frame is dropped for want of a context with its tag (R269). -/
def State.dropTagged (s : State) : State := { s with fabric := { s.fabric with dropTag := satAdd 65535 s.fabric.dropTag 1 } }

/-- A header with one hop fewer (R268). -/
def hopDown (h : HdrWord) : HdrWord := BitVec.ofNat 256 (setFld h.toNat 10 3 (hdrHops h - 1))

/-- A frame for another module goes on by this module's routes, or is dropped without hops (R268). -/
def State.forward (s : State) (p : Nat) (f : Frame) : State :=
  let s1 := s.returnCredit p f
  if hdrHops f.hdr = 0 then { s1 with fabric := { s1.fabric with dropHops := satAdd 65535 s1.fabric.dropHops 1 } }
  else s1.sendFrame { f with hdr := hopDown f.hdr, replays := 0 }

/-- Ends a fill with CHECK; what a FILL_RECV has written is undefined (R280). -/
def State.fillCheck (s : State) (c : Nat) (kind : Bool) (src : Nat) (unit : Half) : State :=
  match s.fillOf c false kind src, (s.ctx c).mile.setup with
  | some (d, r), some u =>
    (State.writeSpans (s.fillSpans u false kind) s 0 0 (s.freeBytes r.total)).bump.endDesc c d.ring d.pos { status := stCheck, unit := unit }
  | _, _ => match s.fillOf c true kind src with
    | some (d, _) => s.endDesc c d.ring d.pos { status := stCheck, unit := unit }
    | none => s

/-- What an integrity failure of a frame ends with CHECK: the slot's QRECV, the QSEND that waits for the credits, the fill, the turn or the
COLLECTIVE that the frame belongs to, a failed READY also one that starts or fires later (R280; log 114). -/
def State.integrityEnds (s : State) (c p : Nat) (h : HdrWord) : State :=
  let unit := half (p + 0x100)
  let g := hdrGroup h
  let inTurn := (s.ctx c).pair.any (fun x => x.group == g && x.turn.any (fun t => t.seq == hdrSeq h))
  if hdrVc h = 2 ∧ hdrType h = 1 then s.queueBad c g (hdrSeq h) unit
  else if hdrVc h = 2 then
    (match hdrType h, s.qsends c g 7 with
     | 3, d :: _ => s.endColl c d.ring d.pos stCheck unit
     | _, _ => s)
  else if g = fillGroup false ∨ g = fillGroup true then s.fillCheck c (g == fillGroup true) (hdrSrc h) unit
  else if inTurn then s.turnFail c stCheck ((s.ctx c).pair.elim 0 (fun x => x.me))
  else if hdrType h = 6 then s
  else match s.collOf c g (hdrSeq h) with
    | some d => s.endCheck c d.ring d.pos unit
    | none => if hdrType h = 2 then s.modCtx c (fun x => { x with badReadies := x.badReadies ++ [(g, hdrSeq h, unit)] }) else s

/-- A PAY_CRC failure: the frame is discarded, the port's bit is set in CTX_INTEG, an open step fails (R265, R280, R392). -/
def State.integrity (s : State) (c p : Nat) (h : HdrWord) : State :=
  let s1 := s.modCtx c (fun x => { x with integ := x.integ ||| dword (2 ^ p) })
  (if (s.ctx c).mile.state = 2 then s1.localFail c 0x02#8 else s1).integrityEnds c p h

/-- A frame accepted on a link, whatever its TYPE: one for another module is forwarded, one of no context's tag dropped, one with a bad
PAY_CRC is an integrity failure; `g` is what it does at its context, with its receive buffer still taken (R265, R266, R268, R269). -/
def State.deliverTo (s : State) (p : Nat) (f : Frame) (g : Nat → State → State) : State :=
  if !s.isMe (hdrDst f.hdr) then s.forward p f else
    match s.ctxOfTag (hdrTag f.hdr) with
    | none => (s.dropTagged).returnCredit p f
    | some c => if crc32c f.payload ≠ f.crc then (s.integrity c p f.hdr).returnCredit p f else g c s

/-- A DATA frame at its context: delivered, stale, or held for a newer epoch (R112, R279). -/
def State.arrive (s : State) (c p : Nat) (f : Frame) : State :=
  let e := (s.ctx c).epoch.toNat
  if hdrEpoch f.hdr = e then (s.deliver c f.hdr f.payload).returnCredit p f
  else if olderEpoch (hdrEpoch f.hdr) e then (s.countStale c 1).returnCredit p f
  else s.modCtx c (fun x => { x with newer := x.newer ++ [(p, { f with since := s.time })] })

/-- Codewords that the FEC of a port corrected, and whether one was uncorrectable, in OPX_PORT_ERR (R264). -/
def State.countFec (s : State) (p : Nat) (x : Fec) : State :=
  s.modPort p (fun y => { y with
    corrected := word (satAdd 0xFFFFFFFF y.corrected.toNat x.corrected)
    uncorr := if x.ok then y.uncorr else half (satAdd 65535 y.uncorr.toNat 1) })

/-- A frame on a port in UP: one with an uncorrectable codeword or a failed HDR_CRC is discarded and answered with NAK (R256, R264). -/
def State.checkLink (s : State) (p : Nat) (fec : Fec) (h : HdrWord) (g : State → State) : State :=
  if (s.port p).state ≠ 4 then s else
    let s1 := s.countFec p fec
    if !fec.ok || !hdrCrcOk h then s1.sendNak p (s.port p).recvSeq else g s1

/-- A frame of the link sequence: the next one is acknowledged and accepted, a repeated one only acknowledged, one after a gap answered with
NAK (R264). -/
def State.recvLink (s : State) (p : Nat) (fec : Fec) (f : Frame) (g : State → State) : State :=
  s.checkLink p fec f.hdr (fun s =>
    let x := s.port p
    let d := (half (hdrLinkSeq f.hdr) - x.recvSeq).toNat
    if d = 0 then
      g (((s.modPort p (fun x => { x with recvSeq := x.recvSeq + 1#16 })).sendAck p (half (hdrLinkSeq f.hdr))).countMod 9 f.payload.length)
    else if 32768 ≤ d then s.sendAck p (half (hdrLinkSeq f.hdr))
    else s.sendNak p x.recvSeq)

/-- A received frame as it is held. -/
def frameOf (f : RxFrame) : Frame := { hdr := f.hdr, payload := f.payload, crc := f.crc }

/-- FRAME_DATA (R265). -/
def execFrameData (p : PortId) (fec : Fec) (hdr : HdrWord) (payload : List Byte) (payCrc : Word) (s : State) : Host.Outcome State Fault Refusal :=
  let f : Frame := { hdr := hdr, payload := payload, crc := payCrc }
  .next ((s.recvLink p fec f (fun s => s.deliverTo p f (fun c s => s.arrive c p f))).settleAll)

/-- A READY reaches what waits for it, or is kept (R112, R273, R410). -/
def State.recvReady (s : State) (c : Nat) (r : ReadyInfo) : State :=
  let keep := s.modCtx c (fun x => { x with readies := x.readies ++ [r] })
  let e := (s.ctx c).epoch.toNat
  if r.epoch.toNat ≠ e then (if olderEpoch r.epoch.toNat e then s else keep)
  else if r.group = fillGroup false ∨ r.group = fillGroup true then
    let kind := r.group == fillGroup true
    if r.op = 9 ∧ (s.fillOf c true kind r.src.toNat).isNone ∧ (s.fillOf c false kind r.src.toNat).isNone then keep else s.fillReady c kind r
  else
    match s.collOf c r.group r.seq.toNat with
    | some d => s.collReady c d.ring d.pos r
    | none => keep

/-- What a READY frame says (R262, R273). -/
def readyInfo (r : ReadyFrame) : ReadyInfo :=
  let h := r.rx.hdr
  let tail := r.rx.payload.drop 12
  { tag := BitVec.ofNat 24 (hdrTag h), src := BitVec.ofNat 12 (hdrSrc h), epoch := half (hdrEpoch h), group := hdrGroup h, seq := word (hdrSeq h)
    op := r.op, dtype := r.dtype, count := r.count
    lens := if hdrGroup h = fillGroup false ∨ hdrGroup h = fillGroup true then (records 8 (tail.length / 8) tail).map leNat else [] }

/-- FRAME_READY (R273). -/
def execFrameReady (p : PortId) (r : ReadyFrame) (s : State) : Host.Outcome State Fault Refusal :=
  let f := frameOf r.rx
  .next (s.recvLink p r.rx.fec f (fun s => s.deliverTo p f (fun c s => (s.recvReady c (readyInfo r)).returnCredit p f)))

/-- Credits of a virtual channel of the link (R263). -/
def State.takeCredits (s : State) (p vc n : Nat) : State :=
  (s.modPort p (fun x => { x with credits := x.credits.set vc (x.credits.get 0 vc + n) })).pump p

/-- Slot credits of a producer queue; those that come before it opens wait for it (R282). -/
def State.takeSlots (s : State) (c queue n : Nat) : State :=
  if ((s.ctx c).queues.find? queue).isSome then
    (s.modQueue c queue (fun x => if x.role = 1 then { x with credits := x.credits + n } else x)).driveQueue c queue
  else s.modCtx c (fun x => { x with slotCredits := x.slotCredits.set queue (x.slotCredits.get 0 queue + n) })

/-- FRAME_CREDIT: without a tag n credits of the link's channel vc, with one n slot credits of the queue it names (R263, R282; log 110). -/
def execFrameCredit (p : PortId) (vc : Fin 4) (n : Nat) (f : RxFrame) (s : State) : Host.Outcome State Fault Refusal :=
  let x := frameOf f
  .next ((s.recvLink p f.fec x (fun s =>
    if hdrIsLink f.hdr then (if crc32c f.payload = f.crc then s.takeCredits p vc n else s)
    else s.deliverTo p x (fun c s => (s.takeSlots c (hdrGroup f.hdr) n).returnCredit p x))).settleAll)

/-- Every frame up to the one named leaves the replay buffer (R264). -/
def State.takeAck (s : State) (p : Nat) (seq : Half) : State :=
  (s.modPort p (fun x => { x with replay := x.replay.filter (fun f => decide (32768 ≤ (seq - half (hdrLinkSeq f.hdr)).toNat)) })).pump p

/-- FRAME_ACK (R264). -/
def execFrameAck (p : PortId) (f : RxFrame) (s : State) : Host.Outcome State Fault Refusal :=
  .next ((s.checkLink p f.fec f.hdr (fun s => s.takeAck p (half (hdrLinkSeq f.hdr)))).settleAll)

/-- Replay from a frame onwards; one replayed for the eighth time sends the port to TRAIN (R264, R277). -/
def State.replayFrom (s : State) (p : Nat) (seq : Half) : State :=
  let x := s.port p
  if x.state ≠ 4 then s else
    let again := fun (f : Frame) => decide ((half (hdrLinkSeq f.hdr) - seq).toNat < 32768)
    let fs := x.replay.map (fun f => if again f then { f with replays := f.replays + 1 } else f)
    let n := (x.replay.filter again).length
    let s1 := (s.setPort p { x with replay := fs, replays := half (satAdd 65535 x.replays.toNat n) }).countMod 10 n
    let s2 := (fs.filter again).foldl (fun s f => s.emit (.frame p f.hdr f.payload f.crc)) s1
    if fs.any (fun f => decide (8 ≤ f.replays)) then s2.leavePort p 3 else s2

/-- FRAME_NAK: the sender replays from the frame named (R264). -/
def execFrameNak (p : PortId) (f : RxFrame) (s : State) : Host.Outcome State Fault Refusal :=
  .next (s.checkLink p f.fec f.hdr (fun s => s.replayFrom p (half (hdrLinkSeq f.hdr))))

/-- FRAME_ACK_TIMEOUT: a frame still unacknowledged is replayed as after a NAK (R264). -/
def execFrameAckTimeout (p : PortId) (seq : Half) (s : State) : Host.Outcome State Fault Refusal :=
  .next (if (s.port p).replay.any (fun f => half (hdrLinkSeq f.hdr) == seq) then s.replayFrom p seq else s)

/-- The contribution that a payload carries, of the model's layout (log 18). -/
def contributionOf (bs : List Byte) : Contribution :=
  let flags := recNat bs 16 1
  { step := dword (recNat bs 4 8), attempt := word (recNat bs 12 4), fail := bitOf flags 0, nonfinite := bitOf flags 1, digestsPass := bitOf flags 2
    cause := byte (recNat bs 17 1), failRank := recNat bs 18 2, p := word (recNat bs 20 4), v := f32List ((bs.length - 24) / 4) (bs.drop 24) }

/-- The message of a CTRL frame's payload, of the model's layout (log 18). -/
def ctrlOf (bs : List Byte) : Option Ctrl :=
  let digest := fun (off : Nat) => BitVec.ofNat 256 (recNat bs off 32)
  match recNat bs 0 4 with
  | 1 => some .flush
  | 2 => some (.sbAgree (dword (recNat bs 4 8)) (digest 12))
  | 3 => some (.sbConfirm (digest 4))
  | 4 => some (.sbAbort (recNat bs 4 2) (byte (recNat bs 6 1)) (recNat bs 7 1))
  | 5 => some (.failFrame (dword (recNat bs 4 8)) (word (recNat bs 12 4)) (byte (recNat bs 18 1)) (recNat bs 16 2))
  | 6 => some (.digest .replica (digest 4))
  | 7 => some (.digest .shadow (digest 4))
  | 8 => some (.contribution (contributionOf bs))
  | _ => none

/-- The rank of a module address in a list of ranks. -/
def rankOf (ranks : List Nat) (addr : Nat) : Option Nat := ranks.findIdx? (fun a => a == addr)

/-- A message of a context has its effect, as its own row gives (R269, R371, R373, R376, R393, R394, R397, R403; log 26). -/
def State.hearCtrl (s : State) (c : Nat) (h : HdrWord) (m : Ctrl) : State :=
  let x := s.ctx c
  let turnRank := x.pair.bind (fun p => rankOf p.ranks (hdrSrc h))
  let inTurn := x.pair.any (fun p => p.turn.any (fun t => t.seq == hdrSeq h))
  match m, turnRank with
  | .flush, _ => s.flushMarker c (hdrGroup h) (hdrSeq h)
  | .sbAgree step d, some k => s.recvAgree c ⟨k, hdrSeq h, step, d⟩
  | .sbConfirm d, some k => if inTurn then s.recvConfirm c k d else s
  | .sbAbort rank st stage, some _ => if inTurn then s.recvAbort c rank st stage else s
  | .failFrame step att cause rank, _ => s.recvFail c step att cause rank
  | .digest kind d, _ =>
    (match x.mile.setup.bind (fun u => s.group? c (match kind with
        | .replica => u.replicaGroup
        | .shadow => u.shadowGroup)) with
      | some g => ((rankOf g.ranks (hdrSrc h)).map (fun k => s.recvDigest c kind k d)).getD s
      | none => s)
  | .contribution k, _ => ((rankOf x.mile.ranks (hdrSrc h)).map (fun r => s.recvContribution c r k)).getD s
  | _, _ => s

/-- FRAME_CTRL: checked, acknowledged and routed as every frame of the link sequence; link control changes nothing that the module holds, and
a message has its effect at the context whose tag the frame carries (R262, R266, R269; log 26). -/
def execFrameCtrl (p : PortId) (f : RxFrame) (s : State) : Host.Outcome State Fault Refusal :=
  let x := frameOf f
  .next (s.recvLink p f.fec x (fun s => if hdrIsLink f.hdr then s else
    s.deliverTo p x (fun c s => ((ctrlOf f.payload).elim s (s.hearCtrl c f.hdr)).returnCredit p x)))

def State.setOpxErr (s : State) : State := { s with fabric := { s.fabric with cfgErr := true } }

/-- A COLLECTIVE of any context is in flight. -/
def State.anyColl (s : State) : Bool := s.ctxs.any (fun x => x.2.descs.any (fun d => d.opcode == 4 && d.start.isSome))

/-- OPX_MODULE_ADDR is set, or discarded with CFG_ERR (R266). -/
def State.writeModAddr (s : State) (v : Word) : State := if s.anyColl then s.setOpxErr else s.setReg rModAddr (v.toNat &&& 0x80000FFF)

/-- OPX_MODULE_ADDR_WRITE (R266). -/
def execOpxModuleAddrWrite (f : Func) (v : Word) (s : State) : Host.Outcome State Fault Refusal :=
  .next (s.ownerWrite f (fun s => s.writeModAddr v))

/-- The port mask of entry DEST (R267). -/
def State.writeRoute (s : State) (v : DWord) : State := { s with fabric := { s.fabric with routes := s.fabric.routes.set (s.reg rRouteIdx) v } }

/-- OPX_ROUTE_MASK_WRITE (R267). -/
def execOpxRouteMaskWrite (f : Func) (v : DWord) (s : State) : Host.Outcome State Fault Refusal :=
  .next (s.ownerWrite f (fun s => s.writeRoute v))

/-- OPX_CTX_TAG_c (R270). -/
def State.writeTag (s : State) (c : Nat) (v : Word) : State :=
  let t := v.toNat % 2 ^ 24
  let st := (s.ctx c).state
  if (st != .idle && st != .off) || (t != 0 && allCtxs.any (fun k => k != c && s.tag k == t)) then s.setOpxErr else s.setReg (rCtxTag c) t

/-- OPX_CTX_TAG_WRITE (R270). -/
def execOpxCtxTagWrite (f : Func) (c : CtxId) (v : Word) (s : State) : Host.Outcome State Fault Refusal :=
  .next (s.ownerWrite f (fun s => s.writeTag c v))

end Sys2Proof.Machine
end

