-- ==== Sys2Proof/Machine/Bays.lean ====
section
/-!
DEFINITION. Laser cartridges and their bays (R42 to R44, R261, R284 to R291).
-/
namespace Sys2Proof.Machine

/-- Bay states of R289. -/
def bayEmpty : Nat := 0
def bayCheck : Nat := 1
def bayIn : Nat := 2
def baySolo : Nat := 3
def bayRetiring : Nat := 4
def bayOut : Nat := 5

def partnerOf (b : Nat) : Nat := if b % 2 = 0 then b + 1 else b - 1
def Bay.lit (x : Bay) : Bool := decide (2 ≤ x.state ∧ x.state ≤ 4)
def State.modBay (s : State) (b : Nat) (f : Bay → Bay) : State := s.setBay b (f (s.bay b))

/-- The second cartridge of an engine left service: its ports go OFF and FAULT_N is asserted (R34, R291). -/
def State.engineDown (s : State) (d : Nat) : State :=
  let s1 := { s with fabric := { s.fabric with enginesOff := s.fabric.enginesOff ||| BitVec.ofNat 8 (2 ^ d) } }
  (s1.leavePorts (diePorts d) 0).assertFault

/-- What the partner of a cartridge that leaves service does (R286, R291). -/
def State.partnerAlone (s : State) (b : Nat) : State :=
  if (s.bay (partnerOf b)).lit then s.modBay (partnerOf b) (fun x => { x with state := baySolo, ramping := false }) else s.engineDown (b / 2)

/-- A present cartridge goes OUT with a cause (R44, R261, R287, R289). -/
def State.bayGoesOut (s : State) (b cause : Nat) : State :=
  let x := s.bay b
  let s1 := s.modBay b (fun x => { x with state := bayOut, cause := cause, ramping := false })
  if x.lit then s1.partnerAlone b else s1

/-- ORIENT inside a correctly inserted cartridge (R42). -/
def orientOk (ohm : Nat) : Bool := decide (9000 ≤ ohm ∧ ohm ≤ 11000)

/-- BAY_LATCH_CLOSE: ORIENT as it measures, none where the bay holds no cartridge and stays EMPTY (R42, R289). -/
def execBayLatchClose (b : BayId) (orientOhm : Option Nat) (s : State) : Host.Outcome State Fault Refusal :=
  .next (s.modBay b (fun x => if x.state ≠ bayEmpty ∨ x.ilk then x else
    match orientOhm with
    | none => { x with ilk := true }
    | some ohm => if orientOk ohm then { x with ilk := true, state := bayCheck } else { x with ilk := true, state := bayOut, cause := 1 }))

/-- Record bytes 0 to 31 (R284); the reserved bytes are zero. -/
def cartBytes (r : CartRecord) : List Byte :=
  leBytes 8 r.serial.toNat ++ leBytes 4 r.model.toNat ++ leBytes 4 r.mfgDate.toNat ++ leBytes 4 r.ratedLife.toNat ++ leBytes 4 r.wear.toNat
    ++ leBytes 2 r.bias0.toNat ++ leBytes 2 r.pHalf.toNat ++ leBytes 4 0

/-- What a cartridge answers authenticates it (R285; log 70): its chain leads to the root, its signature holds over the SHA-384 digest of
nonce, record and certificate, and the certificate names its serial. -/
def cartOk (p : CartProof) (r : CartRecord) : Bool :=
  p.chainOk && ecdsaVerify p.keyX.toNat p.keyY.toNat (beNat (sha384 (beBytes 32 p.nonce.toNat ++ cartBytes r ++ p.cert))) p.sigR.toNat p.sigS.toNat
    && r.serial == p.serial

/-- The engine is in service again: its bit is released, its ports leave OFF (R34, R291). -/
def State.engineUp (s : State) (d : Nat) : State :=
  let s1 := { s with fabric := { s.fabric with enginesOff := s.fabric.enginesOff &&& ~~~(BitVec.ofNat 8 (2 ^ d)) } }
  ((diePorts d).foldl State.leaveOff s1).refreshFault

/-- Authentication ends (R42, R285, R286): with its partner in service the cartridge ramps to half load, alone it goes to full load. Before
stage 3 no bay has its supply, and nothing is authenticated (R29, R42, R49). -/
def State.bayAuth (s : State) (b : Nat) (p : CartProof) (r : CartRecord) : State :=
  if (s.bay b).state ≠ bayCheck ∨ s.chip.stage < 3 then s
  else if !cartOk p r then s.bayGoesOut b 2
  else
    let solo := !(s.bay (partnerOf b)).lit
    let s1 := s.modBay b (fun x => { x with
      state := if solo then baySolo else bayIn
      ramping := !solo
      serial := r.serial
      record := some r
      wear := r.wear })
    if solo then s1.engineUp (b / 2) else s1.modBay (partnerOf b) (fun x => { x with ramping := true })

/-- CARTRIDGE_AUTHENTICATED (R42, R285). -/
def execCartridgeAuthenticated (b : BayId) (proof : CartProof) (record : CartRecord) (s : State) : Host.Outcome State Fault Refusal :=
  .next (s.bayAuth b proof record)

/-- The ramp between the partners ends (R286, R289, R290). -/
def State.rampDone (s : State) (d : Nat) : State :=
  [2 * d, 2 * d + 1].foldl (fun s b =>
    if (s.bay b).state = bayRetiring then s.bayGoesOut b 6
    else if (s.bay b).ramping then s.modBay b (fun x => { x with state := bayIn, ramping := false })
    else s) s

/-- CARTRIDGE_RAMP_DONE (R286). -/
def execCartridgeRampDone (d : DieId) (s : State) : Host.Outcome State Fault Refusal := .next (s.rampDone d)

/-- BAY_INTERLOCK_OPEN: the supply is removed and the bay is empty (R43, R289). -/
def execBayInterlockOpen (b : BayId) (s : State) : Host.Outcome State Fault Refusal :=
  .next (let x := s.bay b
    let s1 := s.setBay b { wear := x.wear }
    if x.lit then s1.partnerAlone b else s1)

/-- CARTRIDGE_SENSE_FAULT (R44). -/
def execCartridgeSenseFault (b : BayId) (s : State) : Host.Outcome State Fault Refusal :=
  .next (if (s.bay b).state = bayEmpty ∨ (s.bay b).state = bayOut then s else s.bayGoesOut b 3)

/-- CARTRIDGE_OVER_POWER (R261). -/
def execCartridgeOverPower (b : BayId) (s : State) : Host.Outcome State Fault Refusal := .next (if (s.bay b).lit then s.bayGoesOut b 4 else s)

/-- CARTRIDGE_OVER_TEMP (R287). -/
def execCartridgeOverTemp (b : BayId) (s : State) : Host.Outcome State Fault Refusal := .next (if (s.bay b).lit then s.bayGoesOut b 5 else s)

/-- The hourly addition to WEAR, round(10 × (L / 0.5) × 2^((T − 55) / 10)), for L in thousandths and T in tenths of a degree (R287): the
number of k ≥ 1 with k − 1/2 at most the value. -/
def wearAdd (load temp10 : Nat) : Nat :=
  let e := temp10 - 550
  ((List.range (load * 2 ^ (e / 100 + 1) / 50 + 2)).filter (fun k => decide (((2 * k + 1) * 50) ^ 100 ≤ (2 * load) ^ 100 * 2 ^ e))).length

/-- The wear estimate in hours (R288); none without an addition. -/
def wearHours (rated wear : Nat) (adds : List Nat) : Option Nat :=
  if adds.sum = 0 then none else some ((rated - wear) * adds.length / adds.sum)

/-- The bias estimate in hours (R288), samples oldest first; none unless the fitted slope is positive. -/
def biasHours (bias0 bias : Nat) (ys : List Nat) : Option Nat :=
  let n := ys.length
  let xs := List.range n
  let sx := xs.sum
  let sxy := (List.zipWith (fun x y => x * y) xs ys).sum
  let sxx := (xs.map (fun x => x * x)).sum
  let num : Int := n * sxy - sx * ys.sum
  let den : Int := n * sxx - sx * sx
  if num ≤ 0 then none else some (((3 * bias0 - 2 * bias : Int) * den / (2 * num)).toNat)

/-- The prediction of R288: the lower estimate, 0 at a limit; none where neither estimate exists. -/
def lifeHours (r : CartRecord) (wear bias : Nat) (adds biases : List Nat) : Option Nat :=
  if 3 * r.bias0.toNat ≤ 2 * bias ∨ r.ratedLife.toNat ≤ wear then some 0 else
    match wearHours r.ratedLife.toNat wear adds, biasHours r.bias0.toNat bias biases with
    | some a, some b => some (min a b)
    | some a, none => some a
    | none, b => b

/-- The hourly wear of a cartridge in service and its predicted life (R287, R288). -/
def State.hourly (s : State) (b load temp10 bias power : Nat) : State :=
  let x := s.bay b
  match x.record with
  | none => s
  | some r =>
    if !x.lit then s else
      let add := wearAdd load temp10
      let wear := satAdd 0xFFFFFFFF x.wear.toNat add
      let adds := ((x.adds ++ [add]).reverse.take 168).reverse
      let biases := ((x.biases ++ [bias]).reverse.take 720).reverse
      let life := lifeHours r wear bias adds biases
      let hours := life.getD s.free.toNat
      let warn := decide (hours % 2 ^ 32 < 2000)
      let s1 := s.setBay b { x with
        wear := word wear
        record := some { r with wear := word wear }
        adds := adds
        biases := biases
        bias := half bias
        power := half power
        life := word hours
        lifeWarn := warn }
      let s2 := if life.isNone then s1.bump else s1
      if warn ∧ !x.lifeWarn then (s2.logEv 10 [b]).raiseVec 0 1 else s2

/-- WEAR_HOURLY (R287, R288). -/
def execWearHourly (b : BayId) (load1000 temp10 bias power : Nat) (s : State) : Host.Outcome State Fault Refusal :=
  .next (s.hourly b load1000 temp10 bias power)

/-- RETIRE takes effect only if the partner is IN (R290). -/
def State.retire (s : State) (b : Nat) : State :=
  if (s.bay b).state = bayIn ∧ (s.bay (partnerOf b)).state = bayIn then s.modBay b (fun x => { x with state := bayRetiring, retire := true }) else s

/-- LSR_BAY_RETIRE (R290). -/
def execLsrBayRetire (f : Func) (b : BayId) (s : State) : Host.Outcome State Fault Refusal := .next (s.ownerWrite f (fun s => s.retire b))

end Sys2Proof.Machine
end

