-- ==== Sys2Proof/Machine/LoadSigned.lean ====
section
/-!
DEFINITION. LOAD_SIGNED (R381 to R385) and the publisher key slots (R380).
-/
namespace Sys2Proof.Machine

def chunkBytes : Nat := 2 ^ 26

/-- Whether a published format is MXFP8. -/
def isMxfp8 (efmt : Nat) : Bool := efmt == 0x10 || efmt == 0x11
/-- Bytes of an element group (R382). -/
def groupBytes (efmt : Nat) : Nat := if efmt = 0 then 4 else if efmt = 1 then 2 else 33
/-- Elements of a shard. -/
def loadElems (efmt bytes : Nat) : Nat := bytes / groupBytes efmt * (if isMxfp8 efmt then 32 else 1)
/-- The conversions allowed (R383). -/
def convAllowed (efmt dfmt : Nat) : Bool :=
  dfmt == 0 || (efmt == 0 && (dfmt == 2 || decide (3 ≤ dfmt ∧ dfmt ≤ 5))) || (efmt == 1 && (dfmt == 1 || decide (3 ≤ dfmt ∧ dfmt ≤ 5)))
    || (isMxfp8 efmt && (dfmt == 1 || dfmt == 2))
def mxOut (dfmt : Nat) : Bool := decide (3 ≤ dfmt ∧ dfmt ≤ 5)
/-- Element bytes and scale bytes of the output (R383). -/
def outBytes (efmt dfmt bytes : Nat) : Nat × Nat :=
  let n := loadElems efmt bytes
  match dfmt with
  | 0 => (bytes, 0)
  | 1 => (4 * n, 0)
  | 2 => (2 * n, 0)
  | 3 => (n / 2, n / 32)
  | _ => (6 * n / 8, n / 32)

/-- Source bytes that convert together. -/
def convUnit (efmt dfmt : Nat) : Nat := if dfmt = 0 then 1 else if mxOut dfmt then 32 * groupBytes efmt else groupBytes efmt

/-- 33-byte groups as (scale, element codes) (R381). -/
def mxfp8Groups (bs : List Byte) : List (Nat × List Nat) :=
  (chunks 33 (bs.length / 33 + 1) bs).map (fun g => ((g.headD 0#8).toNat, (g.drop 1).map (fun b => b.toNat)))

/-- Elements converted: element bytes, scale bytes, and whether an MXFP8 widening saturated (R383). -/
def convLoad (efmt dfmt : Nat) (bs : List Byte) : List Byte × List Byte × Bool :=
  if dfmt = 0 then (bs, [], false)
  else if isMxfp8 efmt then
    let f := if efmt = 0x10 then fmtE4m3 else fmtE5m2
    let xs := (mxfp8Groups bs).map (fun g => g.2.map (fun c => (c, g.1)))
    if dfmt = 1 then
      let ws := xs.flatten.map (fun x => mxfp8Widen f x.1 x.2)
      ((ws.map (fun w => leBytes 4 w.1.toNat)).flatten, [], ws.any (fun w => w.2))
    else
      let ws := xs.flatten.map (fun x => mxfp8WidenBf16 f x.1 x.2)
      ((ws.map (fun w => leBytes 2 w.1)).flatten, [], ws.any (fun w => w.2))
  else
    let ws := wideElems efmt bs
    if dfmt = 1 then ((ws.map (fun w => leBytes 4 w.toNat)).flatten, [], false)
    else if dfmt = 2 then (outElems 1 ws, [], false)
    else
      let b := convertSeg (dfmt + 2) ws
      let n := ws.length * elemBits (dfmt + 2) / 8
      (b.take n, b.drop n, false)

/-- A manifest's fields (R381). -/
structure Manifest where
  efmt : Nat
  dataBytes : Nat
  nchunk : Nat
  nshard : Nat
  keyOff : Nat
  chunkOff : Nat
  shardOff : Nat
  sigOff : Nat
  deriving DecidableEq, Repr

def manifestOf (m : List Byte) : Manifest :=
  { efmt := recNat m 6 1, dataBytes := recNat m 24 8, nchunk := recNat m 32 4, nshard := recNat m 36 4, keyOff := recNat m 40 4
    chunkOff := recNat m 44 4, shardOff := recNat m 48 4, sigOff := recNat m 52 4 }

/-- Shard records as (rank, first byte, bytes). -/
def Manifest.shards (x : Manifest) (m : List Byte) : List (Nat × Nat × Nat) :=
  (records 32 x.nshard (m.drop x.shardOff)).map (fun r => (recNat r 0 2, recNat r 8 8, recNat r 16 8))

/-- Whether the header and its tables are as R381 and R382 give. -/
def Manifest.ok (x : Manifest) (m : List Byte) : Bool :=
  let sh := x.shards m
  decide (64 ≤ m.length) && recNat m 0 4 == 0x4D414E31 && recNat m 4 2 == 1 && (decide (x.efmt ≤ 1) || isMxfp8 x.efmt) && recNat m 7 1 == 0
    && recNat m 56 8 == 0 && x.nchunk == ceilDiv x.dataBytes chunkBytes && decide (1 ≤ x.nshard ∧ x.nshard ≤ 4096)
    && [x.keyOff, x.chunkOff, x.shardOff, x.sigOff].all (fun o => o % 8 == 0)
    && decide (x.keyOff + 97 ≤ x.sigOff) && decide (x.chunkOff + 48 * x.nchunk ≤ x.sigOff) && decide (x.shardOff + 32 * x.nshard ≤ x.sigOff)
    && decide (x.sigOff + 96 ≤ m.length)
    && (records 32 x.nshard (m.drop x.shardOff)).all (fun r => recNat r 2 6 == 0 && recNat r 24 8 == 0)
    && sh.all (fun r => r.2.1 % chunkBytes == 0 && ((r.2.1 + r.2.2) % chunkBytes == 0 || r.2.1 + r.2.2 == x.dataBytes)
        && decide (r.2.1 + r.2.2 ≤ x.dataBytes) && r.2.2 != 0 && r.2.2 % groupBytes x.efmt == 0)
    && decide ((sh.map (fun r => r.1)).Nodup)

/-- The digest that key slot k holds (R380). -/
def State.slotHash (s : State) (k : Nat) : List Byte := ((List.range 12).map (fun w => leBytes 4 (s.reg (rPubHash k w)))).flatten

/-- The VALID slot of a context whose digest is that of a key (R380, R384). -/
def State.keySlot (s : State) (c : Nat) (key : List Byte) : Option Nat :=
  (List.range 32).find? (fun k => bitOf (s.reg (rPubCtl k)) 31 && bitOf (s.reg (rPubCtx k)) c && s.slotHash k == sha384 key)

/-- Whether the manifest's signature verifies under its key (R381). -/
def Manifest.signed (x : Manifest) (m : List Byte) : Bool :=
  let key := (m.drop x.keyOff).take 97
  let sig := (m.drop x.sigOff).take 96
  key.headD 0#8 == 4#8 && ecdsaVerify (beNat ((key.drop 1).take 48)) (beNat (key.drop 49)) (beNat (sha384 (m.take x.sigOff)))
    (beNat (sig.take 48)) (beNat (sig.drop 48))

/-- The checks of LOAD_SIGNED (R102). -/
def loadChk (c : Nat) (s : State) (d : Desc) : Chk :=
  let badGroup := match s.readGroup c (d.num 30 2) with
    | .error st => st == stFormat
    | .ok _ => false
  { reserved := [(44, 20)]
    reservedBits := [(decide (8 ≤ d.num 28 1), 28), (decide (2 ^ 20 ≤ d.num 40 4), 40)]
    format := [badRef d 16, allOnes d 24 4, (decide (5 < d.num 29 1), 29), (badGroup, 30), badRef d 32]
    bounds := [(decide ((s.resolve c (d.num 16 8)).extent < d.num 24 4), 24)] }

/-- What steps 1 to 3 of R384 find. -/
inductive LoadFind where
  | stop (e : Ending)
  | shard (x : Manifest) (digests : List (List Byte)) (slot first bytes : Nat)
  deriving DecidableEq, Repr

/-- A reference of a started descriptor, which resolved once when it started (R363). -/
def State.heldRef (s : State) (c : Nat) (d : Desc) (off : Nat) : Target := s.resolveHeld c (s.pinRef c (d.num off 8))

/-- Steps 1 to 3 of R384. -/
def State.loadFind (s : State) (c : Nat) (d : Desc) : LoadFind :=
  let g := s.readTarget c (s.heldRef c d 16) (d.num 24 4)
  match g.stop with
  | some st => .stop { status := st, result := dword g.data.length }
  | none =>
    let x := manifestOf g.data
    if !x.ok g.data || !convAllowed x.efmt (d.num 29 1) then .stop (endWith stFormat) else
      match s.keySlot c ((g.data.drop x.keyOff).take 97) with
      | none => .stop (endWith stAuth)
      | some k =>
        if !x.signed g.data then .stop (endWith stAuth) else
          match s.readGroup c (d.num 30 2) with
          | .error st => .stop (endWith st)
          | .ok grp =>
            match (x.shards g.data).find? (fun r => r.1 == grp.me) with
            | none => .stop (endOk 0)
            | some r =>
              if mxOut (d.num 29 1) && loadElems x.efmt r.2.2 % 32 != 0 then .stop (endWith stFormat)
              else .shard x (records 48 x.nchunk (g.data.drop x.chunkOff)) k r.2.1 r.2.2

/-- Writes the conversion of the source bytes `bs` that start at byte `start` of the shard, a multiple of the conversion unit. -/
def State.putLoad (s : State) (base efmt dfmt total start : Nat) (bs : List Byte) : State × Bool :=
  let o := convLoad efmt dfmt bs
  let at0 := outBytes efmt dfmt start
  let s1 := s.devWrite (base + at0.1) o.1
  (if o.2.1.isEmpty then s1 else s1.devWrite (base + (outBytes efmt dfmt total).1 + at0.2) o.2.1, o.2.2)

/-- Step 5 of R384, chunk by chunk: `rest` holds source bytes not converted yet, which start at byte `start` of the shard. Returns the
chunk and status of a failure, or whether anything saturated. -/
def State.loadChunks (c : Nat) (src : Target) (x : Manifest) (dfmt base first total : Nat) :
    List (Nat × List Byte) → State → Nat → List Byte → Bool → State × Option (Nat × Byte) × Bool
  | [], s, start, rest, sat =>
    let r := s.putLoad base x.efmt dfmt total start rest
    (r.1, none, sat || r.2)
  | (i, want) :: cs, s, start, rest, sat =>
    let n := min chunkBytes (first + total - i * chunkBytes)
    let t := src.plus (i * chunkBytes)
    if t.extent < n then (s, some (i, stBounds), sat) else
      let g := s.readTarget c t n
      match g.stop with
      | some st => (s.reachTarget t n, some (i, st), sat)
      | none =>
        if sha384 g.data ≠ want then (s, some (i, stAuth), sat) else
          let all := rest ++ g.data
          let k := all.length / convUnit x.efmt dfmt * convUnit x.efmt dfmt
          let r := s.putLoad base x.efmt dfmt total start (all.take k)
          State.loadChunks c src x dfmt base first total cs r.1 (start + k) (all.drop k) (sat || r.2)

/-- Lines of a range lose their poison (R385). -/
def State.clearPoison (s : State) (a n : Nat) : State :=
  { s with mem := { s.mem with poison := s.mem.poison.filter (fun l => !(decide (a < 64 * l + 64) && decide (64 * l < a + n))) } }

/-- Step 5 of R384 into a live object. -/
def State.loadData (s : State) (c : Nat) (d : Desc) (x : Manifest) (digests : List (List Byte)) (slot first bytes : Nat) (repair : Bool) : State :=
  let o := d.num 40 4
  let dfmt := d.num 29 1
  let base := s.objBase o
  let i0 := first / chunkBytes
  let cs := (List.range (ceilDiv bytes chunkBytes)).map (fun i => (i0 + i, digests.getD (i0 + i) []))
  let src := s.heldRef c d 32
  match State.loadChunks c src x dfmt base first bytes cs s 0 [] false with
  | (s1, some (i, st), _) =>
    let s2 := if repair then s1 else s1.releaseObj o ((s1.ctx c).startsOf (fun e => decide (e.ring ≠ d.ring ∨ e.pos ≠ d.pos)))
    s2.endDesc c d.ring d.pos { status := st, result := dword i }
  | (s1, none, sat) =>
    let n := (outBytes x.efmt dfmt bytes).1 + (outBytes x.efmt dfmt bytes).2
    let s2 := (s1.clearPoison base n).modObj o (fun y => { y with signed := true, verified := true, touch := s1.touchNow })
    s2.endDesc c d.ring d.pos (endOk (n + slot * 2 ^ 48 + b2n sat * 2 ^ 63))

/-- Step 4 of R384: DST_OBJ is created, or with REPAIR found. -/
def State.loadCreate (s : State) (c : Nat) (d : Desc) (x : Manifest) (bytes : Nat) : Created :=
  let n := (outBytes x.efmt (d.num 29 1) bytes).1 + (outBytes x.efmt (d.num 29 1) bytes).2
  s.createObj c (d.num 40 4) n 0 0 false (bitOf (d.num 28 1) 2) (bitOf (d.num 28 1) 0)

/-- LOAD_SIGNED (R384). -/
def runLoad (c : Nat) (s : State) (d : Desc) : State :=
  let o := d.num 40 4
  let s := s.touchRefs c [d.num 16 8, d.num 32 8, o * 2 ^ 40]
  let fin := fun (e : Ending) => s.endDesc c d.ring d.pos e
  match s.loadFind c d with
  | .stop e => if e.status = stPoison then ((s.reachTarget (s.heldRef c d 16) (d.num 24 4)).reachGroup c (d.num 30 2)).endDesc c d.ring d.pos e else fin e
  | .shard x digests slot first bytes =>
    if !s.inRange c o then fin (endWith stAuth)
    else if bitOf (d.num 28 1) 1 then
      match s.visible c o with
      | none => fin (endWith stState)
      | some y =>
        if y.size ≠ (outBytes x.efmt (d.num 29 1) bytes).1 + (outBytes x.efmt (d.num 29 1) bytes).2 then fin (endWith stState)
        else s.loadData c d x digests slot first bytes true
    else if (s.obj? o).isSome || s.isAlias c o then fin (endWith stState)
    else match s.loadCreate c d x bytes with
      | .ok s' _ => s'.loadData c d x digests slot first bytes false
      | .short s' _ => s'.endDesc c d.ring d.pos (endWith stNospace)
      | .wait => s

/-- The creation waits for promotions in flight, as PLACE CREATE does (R234). -/
def loadWaits (c : Nat) (s : State) (d : Desc) : Bool :=
  (s.check c d (loadChk c s d)).isNone && match s.loadFind c d with
    | .stop _ => false
    | .shard x _ _ _ bytes =>
      s.inRange c (d.num 40 4) && !bitOf (d.num 28 1) 1 && (s.obj? (d.num 40 4)).isNone && !s.isAlias c (d.num 40 4)
        && match s.loadCreate c d x bytes with
          | .wait => true
          | _ => false

/-- LOAD_SIGNED (R384). -/
def execLoadSigned (c : CtxId) (q : RingId) (p : Word) (s : State) : Host.Outcome State Fault Refusal :=
  .next (s.startDesc c q p (fun d => d.opcode == 5) (loadWaits c s) (loadChk c) (runLoad c))

/-- VALID of publisher key slot k (R380). -/
def State.writePubCtl (s : State) (k : Nat) (v : Word) : State := s.setReg (rPubCtl k) (v.toNat &&& 0x80000000)

/-- SEC_PUB_CTL_k: from physical function 0 alone (R380). -/
def execSecPubCtlWrite (f : Func) (k : Fin 32) (v : Word) (s : State) : Host.Outcome State Fault Refusal :=
  .next (if f = .pf then s.writePubCtl k v else s)

end Sys2Proof.Machine
end

