-- ==== Sys2Proof/Machine/Ledger.lean ====
section
/-!
DEFINITION. The Page Ledger, the length table, LEDGER_EDIT and prefix handles (R298 to R318, R332, R333).
-/
namespace Sys2Proof.Machine

/-- Page size, tokens per page and planes of a context (R300). -/
def State.pageBytes (s : State) (c : Nat) : Nat := 65536 * 2 ^ fld (s.reg (rKvLayout c)) 30 2
def State.kvT (s : State) (c : Nat) : Nat := fld (s.reg (rKvLayout c)) 0 16
def State.planes (s : State) (c : Nat) : Nat := fld (s.reg (rKvLayout c)) 16 12

/-- First entry and count of a context's ledger range; first sequence and count of its sequence range (R298). -/
def State.entryLo (s : State) (c : Nat) : Nat := fld (s.reg (rLedgerRange c)) 0 21
def State.entryN (s : State) (c : Nat) : Nat := fld (s.reg (rLedgerRange c)) 32 22
def State.seqLo (s : State) (c : Nat) : Nat := fld (s.reg (rSeqRange c)) 0 16
def State.seqN (s : State) (c : Nat) : Nat := fld (s.reg (rSeqRange c)) 32 17

def State.ownsSeq (s : State) (c q : Nat) : Bool := decide (s.seqLo c ≤ q) && decide (q < s.seqLo c + s.seqN c)
/-- Entries e to e + n - 1 lie in the context's range. -/
def State.ownsEntries (s : State) (c e n : Nat) : Bool := decide (s.entryLo c ≤ e) && decide (e + n ≤ s.entryLo c + s.entryN c)

def State.seqEntry (s : State) (q : Nat) : SeqEntry := Tab.get {} s.ledger.seqs q
def State.setSeq (s : State) (q : Nat) (e : SeqEntry) : State := { s with ledger := { s.ledger with seqs := s.ledger.seqs.set q e } }
def State.entry (s : State) (e : Nat) : DWord := s.ledger.entries.get 0#64 e
/-- An EMPTY entry is all zeros and is not listed (R301). -/
def State.setEntry (s : State) (e : Nat) (v : DWord) : State :=
  { s with ledger := { s.ledger with entries := if v = 0#64 then s.ledger.entries.erase e else s.ledger.entries.set e v } }

/-- Fields of an entry (R301). -/
def entryValid (v : DWord) : Bool := fld v.toNat 62 2 == 1
def entryShared (v : DWord) : Bool := bitOf v.toNat 61
def entryObj (v : DWord) : Nat := fld v.toNat 24 20
def entryPage (v : DWord) : Nat := fld v.toNat 0 24
/-- A value that R301 allows: EMPTY all zeros, or VALID with bits 60:44 zero. -/
def entryOk (v : DWord) : Bool := v == 0#64 || (entryValid v && fld v.toNat 44 17 == 0)
def withShared (v : DWord) : DWord := v ||| 0x2000000000000000#64

/-- The length limit of a sequence (R299). -/
def State.lenLimit (s : State) (c : Nat) (e : SeqEntry) : Nat := min (e.cap * s.kvT c) 16777215

/-- The absolute entries of a row, with their row-relative indices (R302). -/
def State.rowLen (s : State) (c : Nat) (e : SeqEntry) : Nat := e.cap * s.planes c

/-- The 16 bytes of a length-table entry (R299). -/
def seqBytes (e : SeqEntry) : List Byte :=
  leBytes 4 e.len ++ leBytes 4 e.base ++ leBytes 4 e.cap ++ leBytes 2 e.version.toNat ++ [byte (b2n e.live + 2 * b2n e.editWait), 0#8]

/-- A LEDGER_EDIT record's fields (R307). -/
def editRec (r : List Byte) (values : List DWord) : EditRec :=
  let f := recNat r 1 1
  { op := recNat r 0 1, free := bitOf f 0, check := bitOf f 1, version := half (recNat r 2 2), seq := recNat r 4 2, arg0 := recNat r 8 4
    arg1 := recNat r 12 4, data := dword (recNat r 16 8), values := values }

/-- Whether a record breaks check FORMAT of step 1, but for the values of a MAP (R307, R308). -/
def editFormatBad (r : List Byte) : Bool :=
  let op := recNat r 0 1
  let a1 := recNat r 12 4
  let data := recNat r 16 8
  op == 0 || decide (6 < op) || decide (4 ≤ recNat r 1 1) || (!bitOf (recNat r 1 1) 1 && recNat r 2 2 != 0) || recNat r 6 2 != 0
    || recNat r 24 8 != 0 || (op == 1 && a1 == 0) || (op == 2 && a1 != 0) || (op == 4 && (recNat r 8 4 != 0 || a1 != 0))
    || (op == 3 && (a1 == 0 || decide (4096 < a1))) || (op == 6 && decide (4096 < a1))
    || (if op = 3 ∨ op = 6 then !refDefined data else data != 0)

/-- The row capacity that a sequence has once the records before have been applied, as far as they set it (log 27). -/
def capAfter (s : State) (rs : List EditRec) (q : Nat) : Nat :=
  rs.foldl (fun cap r => if r.seq = q ∧ (r.op = 1 ∨ r.op = 5) then r.arg1 else cap) (s.seqEntry q).cap

/-- The row of a sequence lies outside the context's entry range: a live sequence's, or that which READ copies (R298, R302). -/
def State.rowOutside (s : State) (c op q : Nat) : Bool :=
  let e := s.seqEntry q
  2 ≤ op && (e.live || op == 6) && s.rowLen c e != 0 && !s.ownsEntries c e.base (s.rowLen c e)

/-- The object of a VALID value is one of the context's range, live, and covers the whole page (R308). -/
def State.pageLive (s : State) (c : Nat) (v : DWord) : Bool :=
  (s.obj? (entryObj v)).any (fun o => o.ctx == c && o.state == 1 && decide ((entryPage v + 1) * s.pageBytes c ≤ o.size))

/-- Step 1 of R309 for one record: its fields, or the status it fails with. -/
def State.checkEdit (s : State) (c : Nat) (before : List EditRec) (r : List Byte) : Except Byte EditRec :=
  let x := editRec r []
  if editFormatBad r then .error stFormat
  else
    let n := x.arg1
    let data := x.data.toNat
    let t := s.resolve c data
    let short := (x.op == 3 && decide (t.extent < 8 * n)) || (x.op == 6 && decide (t.extent < 16 + 8 * n))
    let g : Got := if x.op = 3 ∧ !short then s.readTarget c t (8 * n) else { data := [] }
    let vs := if x.op = 3 ∧ !short then (records 8 n g.data).map (fun b => dword (leNat b)) else []
    if g.stop.isNone && vs.any (fun v => !entryOk v) then .error stFormat
    else if !s.ownsSeq c x.seq || ((x.op == 1 || x.op == 5) && !s.ownsEntries c x.arg0 (n * s.planes c))
        || (!before.any (fun y => y.seq == x.seq && (y.op == 1 || y.op == 5)) && s.rowOutside c x.op x.seq)
        || (g.stop.isNone && vs.any (fun v => entryValid v && !s.inRange c (entryObj v))) then .error stAuth
    else if short || (x.op == 2 && decide (16777215 < x.arg0)) || (g.stop.isNone && vs.any (fun v => entryValid v && !s.pageLive c v))
        || (x.op == 3 && decide (capAfter s before x.seq * s.planes c < x.arg0 + n)) then .error stBounds
    else match g.stop with
      | some st => .error st
      | none => .ok { x with values := vs }

/-- Step 1 of R309: the records, or the status and index of the first failure. -/
def State.readEdits (s : State) (c : Nat) : List (List Byte) → List EditRec → Except (Byte × Nat) (List EditRec)
  | [], done => .ok done
  | r :: rs, done =>
    match s.checkEdit c done r with
    | .ok x => s.readEdits c rs (done ++ [x])
    | .error st => .error (st, done.length)

/-- The starts that an edit of a row set waits for: EXECs, and SERVE_STEPs that list one of its sequences (R312). A SERVE_STEP whose
batch waits for the host counts as one that may. -/
def Ctx.editWaits (x : Ctx) (rows : List Nat) : List Nat :=
  x.startsOf (fun d => d.opcode == 3 || (d.opcode == 9 && (match d.work with
    | .serve r => r.batch.any (fun b => rows.contains b.seq)
    | .hostWait => true
    | _ => false)))

/-- An edit, a PIN, or a SERVE_STEP with a prefix that waits or applies: every EXEC is held until it completes (R313, R332). -/
def Ctx.editHolds (x : Ctx) : Bool :=
  x.descs.any (fun d => match d.work with
    | .edit _ => true
    | .serve _ => !d.waitRows.isEmpty
    | _ => false)

/-- A SERVE_STEP that lists one of the sequences is held (R313). -/
def Ctx.editHoldsRows (x : Ctx) (rows : List Nat) : Bool :=
  x.descs.any (fun d => match d.work with
    | .edit r => r.rows.any (fun q => rows.contains q)
    | .serve _ => d.waitRows.any (fun q => rows.contains q)
    | _ => false)

def isPrefix (op : Nat) (d : Desc) : Bool := d.opcode == 0x0B && d.num 16 1 == op

/-- The edit starts its wait (R312). -/
def State.startEdit (s : State) (c : Nat) (d : Desc) (recs : List EditRec) (rows : List Nat) (pin : Bool) : State :=
  let me := d.start.getD 0
  let ws := ((s.ctx c).editWaits rows).filter (fun n => n != me)
  (s.setWork c d (.edit { recs := recs, rows := rows, waits := ws, out := dword (d.num 32 8), outBytes := d.num 40 4, pin := pin })).refreshWait c rows

/-- The checks of LEDGER_EDIT (R102, R306). -/
def editChk (c : Nat) (s : State) (d : Desc) : Chk :=
  { reserved := [(28, 4), (44, 20)]
    format := [badRef d 16, (d.num 16 8 % 32 != 0, 16), allOnes d 24 4, (decide (4096 < d.num 24 4), 24), badRef d 32, allOnes d 40 4]
    bounds := [(decide ((s.resolve c (d.num 16 8)).extent < 32 * d.num 24 4), 24), (decide ((s.resolve c (d.num 32 8)).extent < d.num 40 4), 40)]
    zero := d.num 24 4 == 0 }

/-- The state after the read of the values of record i, where that failed (R247). -/
def State.reachValues (s : State) (c : Nat) (rs : List (List Byte)) (i : Nat) (st : Byte) : State :=
  let x := editRec (rs.getD i []) []
  if st = stPoison then s.reachTarget (s.resolve c x.data.toNat) (8 * x.arg1) else s

/-- LEDGER_EDIT: steps 1 and 2 of R309. -/
def runEdit (c : Nat) (s : State) (d : Desc) : State :=
  let n := d.num 24 4
  let s1 := s.touchRefs c [d.num 16 8, d.num 32 8]
  let g := s1.readTarget c (s1.resolve c (d.num 16 8)) (32 * n)
  match g.stop with
  | some st => (s1.reachTarget (s1.resolve c (d.num 16 8)) (32 * n)).endDesc c d.ring d.pos { status := st, result := dword g.data.length }
  | none =>
    match s1.readEdits c (records 32 n g.data) [] with
    | .error (st, i) => (s1.reachValues c (records 32 n g.data) i st).endDesc c d.ring d.pos { status := st, secondary := 0x8010#16, result := dword i }
    | .ok recs => s1.startEdit c d recs (recs.map (fun r => r.seq)).eraseDups false

/-- LEDGER_EDIT (R306 to R309). -/
def execLedgerEdit (c : CtxId) (q : RingId) (p : Word) (s : State) : Host.Outcome State Fault Refusal :=
  .next (s.startDesc c q p (fun d => d.opcode == 8) (fun _ => false) (editChk c) (runEdit c))

/-- Applying records: the state they leave, the entries freed as (entry, sequence, old value), what READ writes as (reference, bytes). -/
structure EditAcc where
  s : State
  freed : List (Nat × Nat × DWord) := []
  writes : List (DWord × List Byte) := []

/-- Sets entries e, e + 1, … -/
def State.setEntries : State → Nat → List DWord → State
  | s, _, [] => s
  | s, e, v :: vs => State.setEntries (s.setEntry e v) (e + 1) vs

/-- Entries e to e + n - 1 become EMPTY. -/
def State.emptyEntries (s : State) (e n : Nat) : State :=
  { s with ledger := { s.ledger with entries := s.ledger.entries.filter (fun x => !(decide (e ≤ x.1) && decide (x.1 < e + n))) } }

/-- Listed entries e to e + n - 1, ascending. -/
def State.entriesIn (s : State) (e n : Nat) : List (Nat × DWord) :=
  s.ledger.entries.filter (fun x => decide (e ≤ x.1) && decide (x.1 < e + n))

def State.anyShared (s : State) (e n : Nat) : Bool := (s.entriesIn e n).any (fun x => entryShared x.2)

/-- VERSION + 1 (R310). -/
def SeqEntry.edited (e : SeqEntry) : SeqEntry := { e with version := e.version + 1#16 }

/-- Frees an adapter version whose references are gone: PIN is cleared, and with RELEASE_OLD the object is released (R338). -/
def State.freeAdapters (s : State) : State :=
  let dead := s.mem.adapters.filter (fun (a : Adapter) => a.draining && a.refs == 0)
  dead.foldl (fun (s : State) (a : Adapter) =>
    let s1 := s.modObj a.obj (fun o => { o with pin := false })
    if a.releaseOld then s1.releaseObj a.obj ((s1.ctx a.ctx).startsOf (fun _ => true)) else s1)
    { s with mem := { s.mem with adapters := s.mem.adapters.filter (fun (a : Adapter) => !(a.draining && a.refs == 0)) } }

/-- The request on a sequence releases its adapter reference (R328, R338). -/
def State.dropAdapter (s : State) (c : Nat) (ad : Option (Nat × Nat)) : State :=
  match ad with
  | none => s
  | some (id, v) =>
    ({ s with mem := { s.mem with adapters := s.mem.adapters.map (fun (a : Adapter) =>
        if a.ctx = c ∧ a.id = id ∧ a.version = v then { a with refs := a.refs - 1 } else a) } }).freeAdapters

/-- The request on a sequence ends and is forgotten (R324). -/
def State.endRequest (s : State) (c q : Nat) : State :=
  match Tab.find? (s.ctx c).rollout.requests q with
  | none => s
  | some r =>
    let s1 := s.modCtx c (fun x => { x with rollout := { x.rollout with requests := x.rollout.requests.erase q } })
    if r.stopped then s1 else s1.dropAdapter c r.adapter

/-- Draining handles of a context without a user are emptied, and their entries listed with SEQ 0xFFFF (R333). -/
def State.drainHandles (s : State) (c : Nat) : State × List (Nat × Nat × DWord) :=
  let dead := s.mem.handles.filter (fun h => h.ctx == c && h.draining && h.users.isEmpty)
  let s1 := { s with mem := { s.mem with handles := s.mem.handles.filter (fun h => !(h.ctx == c && h.draining && h.users.isEmpty)) } }
  dead.foldl (fun (r : State × List (Nat × Nat × DWord)) h =>
    (r.1.emptyEntries h.base h.pages, r.2 ++ (r.1.entriesIn h.base h.pages).map (fun x => (x.1, 65535, x.2)))) (s1, [])

/-- Applies one record, or the status it fails with (R308, R309, R315, R333); the entries it acts on lie within the context's range, whatever
became of that during the wait (R298). -/
def applyEdit (c : Nat) (a : EditAcc) (r : EditRec) : Except Byte EditAcc :=
  let s := a.s
  let e := s.seqEntry r.seq
  let row := s.rowLen c e
  let listed := fun (xs : List (Nat × DWord)) => (xs.filter (fun x => entryValid x.2)).map (fun x => (x.1, r.seq, x.2))
  if s.rowOutside c r.op r.seq || ((r.op == 1 || r.op == 5) && !s.ownsEntries c r.arg0 (r.arg1 * s.planes c)) then .error stAuth
  else if r.check ∧ r.version ≠ e.version then .error stState
  else if (r.op = 1 ∧ e.live) ∨ ((2 ≤ r.op ∧ r.op ≤ 5) ∧ !e.live) then .error stState
  else match r.op with
  | 1 =>
    let n := r.arg1 * s.planes c
    if s.anyShared r.arg0 n then .error stState
    else .ok { a with s := (s.emptyEntries r.arg0 n).setSeq r.seq { e.edited with len := 0, base := r.arg0, cap := r.arg1, live := true } }
  | 2 =>
    let k := ceilDiv r.arg0 (s.kvT c) * s.planes c
    if s.lenLimit c e < r.arg0 then .error stBounds
    else if r.free ∧ s.anyShared (e.base + k) (row - k) then .error stState
    else
      let s1 := s.setSeq r.seq { e.edited with len := r.arg0 }
      if r.free then .ok { a with s := s1.emptyEntries (e.base + k) (row - k), freed := a.freed ++ listed (s.entriesIn (e.base + k) (row - k)) }
      else .ok { a with s := s1 }
  | 3 =>
    if row < r.arg0 + r.arg1 then .error stBounds
    else if s.anyShared (e.base + r.arg0) r.arg1 then .error stState
    else .ok { a with s := (s.setEntries (e.base + r.arg0) r.values).setSeq r.seq e.edited }
  | 4 =>
    let xs := s.entriesIn e.base row
    let own := xs.filter (fun x => !entryShared x.2)
    let s1 := if r.free then s.emptyEntries e.base row else (xs.filter (fun x => entryShared x.2)).foldl (fun s x => s.setEntry x.1 0#64) s
    let s2 := (s1.setSeq r.seq { e.edited with len := 0, live := false }).endRequest c r.seq
    let s3 := { s2 with mem := { s2.mem with handles := s2.mem.handles.map (fun (h : Prefix) => if h.ctx = c then { h with users := h.users.filter (fun u => u != r.seq) } else h) } }
    let (s4, drained) := s3.drainHandles c
    .ok { a with s := s4, freed := a.freed ++ (if r.free then listed own else []) ++ drained }
  | 5 =>
    let new := r.arg1 * s.planes c
    let keep := min new row
    let drop := s.entriesIn (e.base + keep) (row - keep)
    let taken := (s.entriesIn r.arg0 new).filter (fun x => !(decide (e.base ≤ x.1) && decide (x.1 < e.base + row)))
    if r.arg1 * s.kvT c < e.len then .error stBounds
    else if drop.any (fun x => entryShared x.2) || taken.any (fun x => entryShared x.2) || (!r.free && drop.any (fun x => entryValid x.2)) then .error stState
    else
      let kept := s.entriesIn e.base keep
      let s1 := (s.emptyEntries e.base row).emptyEntries r.arg0 new
      let s2 := kept.foldl (fun s x => s.setEntry (x.1 - e.base + r.arg0) x.2) s1
      .ok { a with s := s2.setSeq r.seq { e.edited with base := r.arg0, cap := r.arg1 }, freed := a.freed ++ listed drop }
  | _ =>
    let inRow := decide (r.arg0 + r.arg1 ≤ row)
    let past := s.freeBytes (8 * r.arg1)
    let es := ((List.range r.arg1).map (fun i =>
      if r.arg0 + i < row then leBytes 8 (s.entry (e.base + r.arg0 + i)).toNat else (past.drop (8 * i)).take 8)).flatten
    .ok { a with s := if inRow then s else s.bump, writes := a.writes ++ [(r.data, seqBytes e ++ es)] }

/-- Step 3 of R309: every record in order, or the status and index of the first failure. -/
def applyEdits (c : Nat) : EditAcc → List EditRec → Nat → Except (Byte × Nat) EditAcc
  | a, [], _ => .ok a
  | a, r :: rs, i =>
    match applyEdit c a r with
    | .ok b => applyEdits c b rs (i + 1)
    | .error st => .error (st, i)

/-- The bytes that list freed entries (R311). -/
def freedBytes (l : List (Nat × Nat × DWord)) : List Byte :=
  (l.map (fun x => leBytes 4 x.1 ++ leBytes 2 x.2.1 ++ leBytes 2 0 ++ leBytes 8 x.2.2.toNat)).flatten

/-- Writes through held references in order; the status and byte count of the first failure (R105). -/
def State.writeAll (s : State) (c : Nat) : List (DWord × List Byte) → State × Option (Byte × Nat)
  | [] => (s, none)
  | (ref, bs) :: r =>
    match s.writeHeld c ref.toNat 0 bs with
    | (s', none) => s'.writeAll c r
    | (s', some e) => (s', some e)

/-- Steps 3 to 5 of R309. -/
def State.applyLedger (s : State) (c : Nat) (d : Desc) (r : EditRun) : State :=
  let fail := fun (st : Byte) (res : Nat) => (s.endHeld c d.ring d.pos { status := st, result := dword res }).refreshWait c r.rows
  let s0 := { s with ledger := { s.ledger with seqs := r.rows.foldl (fun (t : Tab SeqEntry) q =>
    Tab.mod {} t q (fun e => { e with editWait := (s.ctx c).descs.any (fun x => (x.ring != d.ring || x.pos != d.pos) && x.waitRows.contains q) })) s.ledger.seqs } }
  match applyEdits c { s := s0 } r.recs 0 with
  | .error (st, i) => fail st i
  | .ok a =>
    if r.outBytes < 16 * a.freed.length then fail stNospace 0 else
      let out := if a.freed.isEmpty then [] else [(r.out, freedBytes a.freed)]
      match a.s.writeAll c (a.writes ++ out) with
      | (s2, some (st, k)) => s2.endHeld c d.ring d.pos { status := st, result := dword k }
      | (s2, none) => s2.endHeld c d.ring d.pos (endOk (r.recs.length + a.freed.length * 2 ^ 32))

/-- An edit or PIN may name one of the sequences, if there are any: one whose records wait for the host may name each (R113, R313). -/
def Desc.mayEdit (y : Desc) (rows : List Nat) : Bool :=
  match y.work with
  | .edit r => r.rows.any (fun q => rows.contains q)
  | .hostWait => (y.opcode == 8 && !rows.isEmpty) || (isPrefix 1 y && rows.contains (y.num 32 2))
  | _ => false

/-- No edit or PIN of the context that shares a sequence and started before is still to be applied (R313). -/
def Ctx.firstEdit (x : Ctx) (d : Desc) (rows : List Nat) : Bool :=
  x.descs.all (fun y => y.ending.isSome || !decide (y.start.getD 0 < d.start.getD 0) || !y.mayEdit rows)

/-- The edit's wait is over (R312, R313). -/
def Ctx.editReady (x : Ctx) (d : Desc) (r : EditRun) : Bool := d.ending.isNone && x.allDone r.waits && x.firstEdit d r.rows

/-- LEDGER_EDIT_APPLY (R309, R312, R313). -/
def execLedgerEditApply (c : CtxId) (q : RingId) (p : Word) (s : State) : Host.Outcome State Fault Refusal :=
  .next (match s.desc? c q p with
    | some d => (match d.work with
      | .edit r => if !r.pin && (s.ctx c).editReady d r then s.applyLedger c d r else s
      | _ => s)
    | none => s)


/-- Entries of a prefix of PLEN tokens (R332). -/
def State.prefixEntries (s : State) (c plen : Nat) : Nat := plen / s.kvT c * s.planes c

/-- The handle of a context. -/
def State.handle? (s : State) (c : Nat) (h : DWord) : Option Prefix :=
  s.mem.handles.find? (fun x => x.ctx == c && x.handle == h)

/-- The checks of PREFIX_PIN (R102, R332). -/
def prefixChk (op c : Nat) (s : State) (d : Desc) : Chk :=
  let pin := op == 1
  let plen := d.num 36 4
  { reserved := [(17, 7), (34, 2), (56, 8)]
    format := [(d.num 24 8 == 0, 24), (!pin && d.num 32 2 != 0, 32), allOnes d 36 4,
      (if pin then plen % s.kvT c != 0 else plen != 0, 36), (!pin && d.num 40 4 != 0, 40), allOnes d 44 4, badRef d 48]
    auth := [(pin && !s.ownsSeq c (d.num 32 2), 32), (pin && !s.ownsEntries c (d.num 40 4) (s.prefixEntries c plen), 40)]
    bounds := [(!pin && decide ((s.resolve c (d.num 48 8)).extent < d.num 44 4), 44)]
    zero := pin && plen == 0
    state := op == 2 && (s.handle? c (dword (d.num 24 8))).isNone }

/-- No live row of the context holds one of the entries (R332). -/
def State.outsideRows (s : State) (c e n : Nat) : Bool :=
  s.ledger.seqs.all (fun (x : Nat × SeqEntry) => !(s.ownsSeq c x.1 && x.2.live && rangesMeet e n x.2.base (s.rowLen c x.2)))

/-- PIN once its wait is over (R332). -/
def State.applyPin (s : State) (c : Nat) (d : Desc) (r : EditRun) : State :=
  let q := d.num 32 2
  let plen := d.num 36 4
  let base := d.num 40 4
  let h := dword (d.num 24 8)
  let n := s.prefixEntries c plen
  let e := s.seqEntry q
  let fin := fun (s : State) (x : Ending) => (s.endHeld c d.ring d.pos x).refreshWait c r.rows
  let src := (List.range n).map (fun i => s.entry (e.base + i))
  if (s.handle? c h).isSome || !e.live || decide (e.len < plen) || decide (s.rowLen c e < n) || src.any (fun v => !entryValid v)
      || !(s.entriesIn base n).isEmpty || !s.outsideRows c base n then fin s (endWith stState)
  else if 8192 ≤ s.mem.handles.length then fin s (endWith stNospace)
  else
    let vs := src.map withShared
    let s1 := ((s.setEntries e.base vs).setEntries base vs).setSeq q e.edited
    fin { s1 with mem := { s1.mem with handles := s1.mem.handles ++ [⟨c, h, base, n, plen, [q], false⟩] } } (endOk 0)

/-- PREFIX_PIN: starts its wait, and the same command once the wait is over applies it (R312, R332). -/
def State.pinCommand (s : State) (c : Nat) (q : Nat) (p : Word) : State :=
  let apply := fun (s : State) => match s.desc? c q p with
    | some d => (match d.work with
      | .edit r => if r.pin && (s.ctx c).editReady d r then s.applyPin c d r else s
      | _ => s)
    | none => s
  apply (s.startDesc c q p (isPrefix 1) (fun _ => false) (prefixChk 1 c) (fun s d => s.startEdit c d [] [d.num 32 2] true))

/-- PREFIX_PIN (R332). -/
def execPrefixPin (c : CtxId) (q : RingId) (p : Word) (s : State) : Host.Outcome State Fault Refusal := .next (s.pinCommand c q p)

/-- RELEASE of a prefix handle (R333). -/
def runPrefixRelease (c : Nat) (s : State) (d : Desc) : State :=
  let s := s.touchRefs c [d.num 48 8]
  let h := dword (d.num 24 8)
  let s1 := { s with mem := { s.mem with handles := s.mem.handles.map (fun (x : Prefix) => if x.ctx = c ∧ x.handle = h then { x with draining := true } else x) } }
  let (s2, freed) := s1.drainHandles c
  if d.num 44 4 < 16 * freed.length then s.endDesc c d.ring d.pos (endWith stNospace)
  else if freed.isEmpty then s2.endDesc c d.ring d.pos (endOk 0)
  else
    match s2.writeTarget c (s2.resolve c (d.num 48 8)) (freedBytes freed) with
    | (s3, some (st, k)) => s3.endDesc c d.ring d.pos { status := st, result := dword k }
    | (s3, none) => s3.endDesc c d.ring d.pos (endOk 0)

/-- PREFIX_RELEASE (R333). -/
def execPrefixRelease (c : CtxId) (q : RingId) (p : Word) (s : State) : Host.Outcome State Fault Refusal :=
  .next (s.startDesc c q p (isPrefix 2) (fun _ => false) (prefixChk 2 c) (runPrefixRelease c))

/-- MEM_CTX_LEDGER is set, or discarded with CFG_ERR (R318). -/
def State.writeLedgerRange (s : State) (c : Nat) (v : DWord) : State :=
  let b := fld v.toNat 0 21
  let n := fld v.toNat 32 22
  let lo := s.entryLo c
  let bad := decide (2097152 < b + n) || allCtxs.any (fun k => k != c && rangesMeet b n (s.entryLo k) (s.entryN k))
    || (s.entriesIn lo (s.entryN c)).any (fun x => decide (x.1 < b ∨ b + n ≤ x.1))
  if bad then s.setCfgErr else s.setReg (rLedgerRange c) (b + n * 2 ^ 32)

/-- MEM_CTX_LEDGER (R318). -/
def execMemCtxLedgerWrite (f : Func) (c : CtxId) (v : DWord) (s : State) : Host.Outcome State Fault Refusal :=
  .next (s.ownerWrite f (fun s => s.writeLedgerRange c v))

/-- The live sequences of a context. -/
def State.liveSeqs (s : State) (c : Nat) : List Nat :=
  (s.ledger.seqs.filter (fun (x : Nat × SeqEntry) => x.2.live && s.ownsSeq c x.1)).map (fun (x : Nat × SeqEntry) => x.1)

/-- MEM_CTX_SEQ is set, or discarded with CFG_ERR (R318). -/
def State.writeSeqRange (s : State) (c : Nat) (v : DWord) : State :=
  let b := fld v.toNat 0 16
  let n := fld v.toNat 32 17
  let bad := decide (65536 < b + n) || allCtxs.any (fun k => k != c && rangesMeet b n (s.seqLo k) (s.seqN k))
    || (s.liveSeqs c).any (fun q => decide (q < b ∨ b + n ≤ q))
  if bad then s.setCfgErr else s.setReg (rSeqRange c) (b + n * 2 ^ 32)

/-- MEM_CTX_SEQ (R318). -/
def execMemCtxSeqWrite (f : Func) (c : CtxId) (v : DWord) (s : State) : Host.Outcome State Fault Refusal :=
  .next (s.ownerWrite f (fun s => s.writeSeqRange c v))

/-- CTX_KV_LAYOUT is set while Idle with no live sequence and every field in range, or the write is discarded whole (R300, R318). -/
def State.writeKvLayout (s : State) (c : Nat) (v : Word) : State :=
  let t := fld v.toNat 0 16
  let p := fld v.toNat 16 12
  if (s.ctx c).state != .idle || !(s.liveSeqs c).isEmpty || p == 0 || t % 64 != 0 || t == 0 then s
  else s.setReg (rKvLayout c) (t + p * 2 ^ 16 + fld v.toNat 30 2 * 2 ^ 30)

/-- CTX_KV_LAYOUT (R318). -/
def execCtxKvLayoutWrite (f : Func) (c : CtxId) (v : Word) (s : State) : Host.Outcome State Fault Refusal :=
  .next (s.ctxWrite f c (fun s => s.writeKvLayout c v))

end Sys2Proof.Machine
end

