-- ==== Sys2Proof/Machine/Writers.lean ====
section
/-!
DEFINITION. Tile store and who reads and writes it: the fields of tile instructions, the places that matrix, vector and DMA
instructions read and write (R119 to R122, R133, R134, R159, R170), the protected lines of R123, and the accesses that R155 leaves
unordered.
-/
namespace Sys2Proof.Machine

/-- Fields of a tile instruction, by highest and lowest bit. -/
def tf (w : TileWord) (hi lo : Nat) : Nat := fld w.toNat lo (hi - lo + 1)

def tclass (w : TileWord) : Nat := tf w 127 124

def top (w : TileWord) : Nat := tf w 123 120

/-- Bytes of a tile store (R118). -/
def storeBytes : Nat := 0x1800000

def lineBytes : Nat := 768

/-- A tile-store range lies within the store (R118). -/
def inStore (a n : Nat) : Bool := decide (a + n ≤ storeBytes)

/-- Pack factor and 32-bit segment mode of a format (R115). -/
def packOf (f : Nat) : Nat := if f < 2 then 1 else if f < 5 then 2 else 4

def wideSeg (f : Nat) : Bool := f == 6 || f == 7

/-- Element size in bytes of an output format of a drain (R133). -/
def ofmtSize (f : Nat) : Nat := if f = 0 then 4 else if f < 3 then 2 else 1

/-- Blocks of a pass (R115 and following). -/
def passBlocks (w : TileWord) : Nat := ceilDiv (tf w 70 54) 512

/-- Rows of block b of a pass. -/
def blockRows (w : TileWord) (b : Nat) : Nat := min 512 (tf w 70 54 - 512 * b)

/-- Lines a to a + n - 1 of bytes, as (first line, count). -/
def storeLines (a n : Nat) : Nat × Nat := (a / lineBytes, (a + n - 1) / lineBytes + 1 - a / lineBytes)

/-- Lines of a set of n segments. -/
def setLines (f n : Nat) : Nat := if wideSeg f then n else ceilDiv n 2

/-- The lines that an MLOAD reads, as (first, count) (R120, R121). -/
def mloadLines (w : TileWord) : List (Nat × Nat) :=
  (tf w 95 71 / lineBytes, setLines (tf w 119 116) (tf w 103 96)) :: (if isMx (tf w 119 116) then [storeLines (tf w 70 46) (32 * tf w 111 104 - 8)] else [])

/-- Places lo to lo + n - 1 of a ring of p places (0: none), as (first, count) (R122). -/
def ringSpan (p lo n : Nat) : List (Nat × Nat) :=
  if p = 0 then [(lo, n)]
  else if lo % p + n ≤ p then [(lo % p, n)]
  else [(lo % p, p - lo % p), (0, min p (lo % p + n - p))]

/-- How many of the blocks from the next one on the lines of a ring hold at once: those that leave the lines of the block decided last, whose
refilling the pass reads on, to be written (R122, R123; log 29). -/
def ringBlocks (ring : Nat) (wide : Bool) : Nat := max 1 (((if wide then ring else 2 * ring) - 703) / 512)

/-- The streamed lines that a pass protects: those of its undecided blocks, those of their MX scales included; of a ring operand those of the
undecided blocks that the ring holds (R123; log 29). -/
def streamLines (w : TileWord) (checked : Nat) : List (Nat × Nat) :=
  let rows := tf w 70 54
  let ring := tf w 53 39
  let two := if wideSeg (tf w 119 116) then 1 else 2
  let lo := 512 * checked
  let n := if ring = 0 then rows - lo else min (512 * ringBlocks ring (wideSeg (tf w 119 116))) (rows - lo)
  if rows ≤ lo then [] else
    (ringSpan ring (lo / two) (ceilDiv (lo + n + 191) two - lo / two)).map (fun l => (tf w 95 71 / lineBytes + l.1, l.2))
      ++ (if isMx (tf w 119 116) then (ringSpan (two * ring) lo n).map (fun l => storeLines (tf w 31 7 + 32 * l.1) (32 * l.2 - 8)) else [])

/-- The stationary source of a pass that has not started: the last MLOAD issued before it, if that has not swapped, or the active set. -/
def Matrix.setAhead (m : Matrix) (id : Nat) : List (Nat × Nat) :=
  match (m.queue.filter (fun q => top q.word == 1 && decide (q.id < id))).getLast?, m.shadow.filter (fun h => decide (h.id < id)) with
  | some q, _ => mloadLines q.word
  | none, some h => mloadLines h.word
  | none, none => m.active.lines

/-- The protected lines of a tile (R123): those of passes issued and not committed. -/
def Tile.protected (x : Tile) : List (Nat × Nat) :=
  (x.mx.passes.map (fun p => p.set.lines ++ streamLines p.word p.checked)).flatten ++
    ((x.mx.queue.filter (fun q => top q.word == 2)).map (fun q => x.mx.setAhead q.id ++ streamLines q.word 0)).flatten

/-- A write of n bytes from a reaches a protected line. -/
def Tile.guarded (x : Tile) (a n : Nat) : Bool :=
  decide (0 < n) && x.protected.any (fun l => decide (l.1 * lineBytes < a + n) && decide (a < (l.1 + l.2) * lineBytes))

/-- Address of element j of streamed row m at a base address, pack factor p (R119, R134, R160). -/
def skewAddr (base p m j : Nat) : Nat :=
  let r := j / p
  let k := m + r
  base + lineBytes * (k / 2) + 4 * r + 2 * (k % 2) + (if p = 2 then j % 2 else 0)

/-- A two's complement field of n bits. -/
def signedFld (v n : Nat) : Int := if 2 ^ (n - 1) ≤ v then (v : Int) - 2 ^ n else v

/-- A stream entry of the parameter block, with its signed strides. -/
structure Stream where
  addr : Nat
  fmt : Nat
  flags : Nat
  stride : Int
  rowStride : Int

def streamOf (param : List Byte) (i : Nat) : Stream :=
  let r := (param.drop (16 * i)).take 16
  { addr := recNat r 0 4, fmt := recNat r 4 1, flags := recNat r 5 1, stride := signedFld (recNat r 6 2) 16, rowStride := signedFld (recNat r 8 4) 32 }

def Stream.used (x : Stream) : Bool := x.fmt != 15

def Stream.skew (x : Stream) : Bool := bitOf x.flags 1

def Stream.rnd (x : Stream) : Bool := bitOf x.flags 0

/-- Element size in bytes (R159). -/
def Stream.size (x : Stream) : Nat := match x.fmt with
  | 0 => 4
  | 6 => 4
  | 1 => 2
  | 2 => 2
  | _ => 1

/-- Pack factor of a skewed stream, 0 if the format has none (R160). -/
def Stream.pack (x : Stream) : Nat := if x.fmt = 1 ∨ x.fmt = 2 then 1 else if x.fmt = 3 ∨ x.fmt = 4 ∨ x.fmt = 5 then 2 else 0

/-- Address of element (i, j) (R159). -/
def Stream.at (x : Stream) (i j : Nat) : Int := (x.addr : Int) + (i : Int) * x.rowStride + (j : Int) * x.stride * (x.size : Int)

/-- Fields of a micro-operation. -/
def uop (w : Word) : Nat := fld w.toNat 26 6

def ud (w : Word) : Nat := fld w.toNat 21 5

def isReduce (w : Word) : Bool := decide (0x21 ≤ uop w ∧ uop w ≤ 0x23)

/-- The parameter block of R169. -/
structure DmaParam where
  dev : Nat
  ts : Nat
  rows : Nat
  cols : Nat
  fmt : Nat
  mode : Nat
  flags : Nat
  m0 : Nat
  rowPitch : Nat
  tsPitch : Nat
  ring : Nat
  scaleTs : Nat
  scaleDev : Nat

def dmaParam (r : List Byte) : DmaParam :=
  { dev := recNat r 0 8, ts := recNat r 8 4, rows := recNat r 12 4, cols := recNat r 16 2, fmt := recNat r 18 1, mode := recNat r 19 1
    flags := recNat r 20 1, m0 := recNat r 22 2, rowPitch := recNat r 24 4, tsPitch := recNat r 28 4, ring := recNat r 32 2
    scaleTs := recNat r 36 4, scaleDev := recNat r 40 8 }

def DmaParam.trans (p : DmaParam) : Bool := bitOf p.flags 0

def DmaParam.zlead (p : DmaParam) : Bool := bitOf p.flags 1

def DmaParam.ztrail (p : DmaParam) : Bool := bitOf p.flags 2

def DmaParam.mx (p : DmaParam) : Bool := isMx p.fmt

def DmaParam.wide (p : DmaParam) : Bool := wideSeg p.fmt

def DmaParam.pack (p : DmaParam) : Nat := packOf p.fmt

def DmaParam.bits (p : DmaParam) : Nat := elemBits p.fmt

/-- Bytes of a device row; MXFP6 packs four elements in three bytes (R183; log 31). -/
def DmaParam.rowBytes (p : DmaParam) : Nat :=
  if p.mode = 0 then p.cols else if p.wide then 3 * ceilDiv p.cols 4 else ceilDiv (p.cols * p.bits) 8

/-- The K elements of an operand row, and the operand rows, of modes 1 and 2 (R170). -/
def DmaParam.kLen (p : DmaParam) : Nat := if p.trans then p.rows else p.cols

def DmaParam.opRows (p : DmaParam) : Nat := if p.trans then p.cols else p.rows

def DmaParam.segments (p : DmaParam) : Nat := ceilDiv p.kLen p.pack

/-- Scale bytes of an operand row, and of the device-side array (R170, R184). -/
def DmaParam.scalesPerRow (p : DmaParam) : Nat := if p.mx then ceilDiv p.kLen 32 else 0

def DmaParam.scaleBytes (p : DmaParam) : Nat := p.opRows * p.scalesPerRow

/-- Bytes from the first to the last of the device side (R171). -/
def DmaParam.devSpan (p : DmaParam) : Nat := (p.rows - 1) * p.rowPitch + p.rowBytes

/-- Address of segment r of row m of a streamed operand, given m + r (R119, R122). -/
def streamAddr (base ring : Nat) (wide : Bool) (r x : Nat) : Nat :=
  let wrap := fun (l : Nat) => if ring = 0 then l else l % ring
  if wide then base + lineBytes * wrap x + 4 * r else base + lineBytes * wrap (x / 2) + 4 * r + 2 * (x % 2)

/-- Address of segment r of stationary row c (R120). -/
def statAddr (base : Nat) (wide : Bool) (c r : Nat) : Nat :=
  if wide then base + lineBytes * r + 4 * c else base + lineBytes * (r / 2) + 4 * c + 2 * (r % 2)

/-- The row of scales of operand row i (R121, R122). -/
def DmaParam.scaleRow (p : DmaParam) (i : Nat) : Nat :=
  let m := p.m0 + i
  if p.ring = 0 then m else m % (if p.wide then p.ring else 2 * p.ring)

/-- A byte that a transfer writes: its address, its value, and the source bytes it comes from, as (of the scales, offset). -/
structure DmaByte where
  addr : Nat
  val : Byte
  src : List (Bool × Nat) := []

/-- The bytes of one segment: value v at addr, `src k` the source bytes of byte k. -/
def segWrite (wide : Bool) (addr v : Nat) (src : Nat → List (Bool × Nat)) : List DmaByte :=
  (leBytes (if wide then 4 else 2) v).zipIdx.map (fun (b : Byte × Nat) => { addr := addr + b.2, val := b.1, src := if b.2 < 3 then src b.2 else [] })

/-- The segments of an operand row i: segment r with its value and the sources of its bytes; `dev` reads n source bytes at an offset
(R170, R183). Elements beyond the row's K are zero (R184; log 31). -/
def DmaParam.segs (p : DmaParam) (dev : Nat → Nat → List Byte) (i : Nat) : List (Nat × Nat × (Nat → List (Bool × Nat))) :=
  let b := p.bits
  let pk := p.pack
  if p.trans then
    let elem := fun (k : Nat) => (leNat (dev (k * p.rowPitch + b * i / 8) ((b * i % 8 + b + 7) / 8)) >>> (b * i % 8)) % 2 ^ b
    (List.range p.segments).map (fun r =>
      let ks := (List.range (min pk (p.rows - pk * r)))
      (r, ks.foldl (fun v e => v + elem (pk * r + e) * 2 ^ (b * e)) 0, fun n =>
        ((ks.filter (fun e => decide (b * e < 8 * n + 8 ∧ 8 * n < b * e + b))).map (fun e =>
          (List.range ((b * i % 8 + b + 7) / 8)).map (fun z => (false, (pk * r + e) * p.rowPitch + b * i / 8 + z)))).flatten))
  else
    let row := leNat (dev (i * p.rowPitch) p.rowBytes)
    (List.range p.segments).map (fun r =>
      (r, (row >>> (b * pk * r)) % 2 ^ (b * min pk (p.cols - pk * r)), fun n =>
        let off := b * pk * r / 8 + n
        if off < p.rowBytes then [(false, i * p.rowPitch + off)] else []))

/-- The zeros of the wings (R170). -/
def DmaParam.wings (p : DmaParam) : List DmaByte :=
  let put := fun (r x : Nat) => segWrite p.wide (streamAddr p.ts p.ring p.wide r x) 0 (fun _ => [])
  (if p.zlead then ((List.range 192).map (fun r => ((List.range r).map (fun x => put r x)).flatten)).flatten else [])
    ++ (if p.ztrail then ((List.range 192).map (fun r => ((List.range (191 - r)).map (fun n => put r (p.m0 + p.rows + n + r))).flatten)).flatten else [])

/-- Every byte that a DGET or DMOVE writes; `dev` and `sc` read the source (R170). -/
def DmaParam.bytes (p : DmaParam) (dev sc : Nat → Nat → List Byte) : List DmaByte :=
  if p.mode = 0 then
    ((List.range p.rows).map (fun i => (dev (i * p.rowPitch) p.cols).zipIdx.map (fun (b : Byte × Nat) =>
      { addr := p.ts + i * p.tsPitch + b.2, val := b.1, src := [(false, i * p.rowPitch + b.2)] }))).flatten
  else
    p.wings ++ ((List.range p.opRows).map (fun i =>
      ((p.segs dev i).map (fun g => segWrite p.wide (if p.mode = 1 then streamAddr p.ts p.ring p.wide g.1 (p.m0 + i + g.1) else statAddr p.ts p.wide i g.1) g.2.1 g.2.2)).flatten
        ++ (sc (i * p.scalesPerRow) p.scalesPerRow).zipIdx.map (fun (b : Byte × Nat) =>
          { addr := p.scaleTs + 32 * p.scaleRow i + b.2, val := b.1, src := [(true, i * p.scalesPerRow + b.2)] }))).flatten

/-- The places that the writes of a drain of output rows j0 to j0 + n - 1 reach, as (address, bytes) (R133, R134). -/
def drainAddrs (w : TileWord) (j0 n : Nat) : List (Nat × Nat) :=
  let size := ofmtSize (tf w 119 116)
  let stride := if tf w 26 15 = 0 then 192 * size else 4 * tf w 26 15
  ((List.range n).map (fun i =>
    if tf w 113 113 = 1 then (List.range 192).map (fun c => (skewAddr (tf w 80 56) (if size = 2 then 1 else 2) (j0 + i) c, size))
    else [(tf w 80 56 + (j0 + i) * stride, 192 * size)])).flatten

/-- The places that a running drain, MACCR or MACCW still writes in tile store (R129, R133, R144). -/
def Drain.addrs (d : Drain) : List (Nat × Nat) :=
  match d.left with
  | some ws => ws.map (fun w => (w.1, w.2.length))
  | none => if top d.word = 3 then drainAddrs d.word 0 (tf d.word 98 89) else if top d.word = 6 then [(tf d.word 80 56, 768 * tf d.word 98 89)] else []

/-- The places that the armed drain of a stream pass still writes (R129). -/
def Pass.addrs (p : Pass) : List (Nat × Nat) :=
  match p.armed with
  | some (_, dw) => p.waiting.map (fun w => (w.1, w.2.length)) ++ drainAddrs dw (512 * p.committed) (tf p.word 70 54 - 512 * p.committed)
  | none => []

/-- The places that a launch writes (R159, R160). -/
def VecOp.addrs (v : VecOp) : List (Nat × Nat) :=
  let outs := ([4, 5].filter (fun k => (streamOf v.param k).used)).map (fun k => streamOf v.param k)
  ((List.range (tf v.word 104 88)).map (fun i =>
    ((List.range (tf v.word 119 105)).map (fun j => outs.map (fun o => (if o.skew then skewAddr o.addr o.pack i j else (o.at i j).toNat, o.size)))).flatten ++
      (v.prog.filter isReduce).map (fun w => (((streamOf v.param 6).at i 0).toNat + 4 * (ud w - 18), 4)))).flatten

/-- The places that a DGET or DMOVE writes (R170). -/
def DmaOp.addrs (d : DmaOp) : List (Nat × Nat) :=
  if d.op = 2 then [] else ((dmaParam d.params).bytes (fun _ n => List.replicate n 0#8) (fun _ n => List.replicate n 0#8)).map (fun b => (b.addr, 1))

/-- The bytes of tile store that other instructions in flight write, where R123 does not hold the write, and that instruction id may thus
already meet as they will be; launches keep their own order (R155, R166). -/
def Tile.early (x : Tile) (id : Nat) : List Nat :=
  let spans := ((x.mx.drains.filter (fun d => d.id != id)).map Drain.addrs).flatten
    ++ ((x.mx.passes.filter (fun p => p.id != id)).map Pass.addrs).flatten
    ++ (if x.vec.any (fun v => v.id == id) then [] else ((x.vec.filter (fun v => v.started)).map VecOp.addrs).flatten)
    ++ ((x.dma.filter (fun d => d.started && d.id != id)).map DmaOp.addrs).flatten
  ((spans.map (fun a => (List.range a.2).map (fun k => a.1 + k))).flatten).filter (fun a => !x.guarded a 1)

/-- The instructions in flight in the units of a tile, by number (R155). -/
def Tile.inFlight (x : Tile) : List Nat :=
  x.mx.passes.map (fun p => p.id) ++ x.mx.drains.map (fun d => d.id) ++ ((x.mx.shadow.filter (fun h => !h.loaded)).map (fun h => h.id)).toList
    ++ (x.vec.filter (fun v => v.started)).map (fun v => v.id) ++ (x.dma.filter (fun d => d.started)).map (fun d => d.id)

/-- The races of a tile once n bytes from a are written (R155; log 100). -/
def Tile.raced (x : Tile) (a n : Nat) : List Race :=
  let ids := x.inFlight
  x.races.filter (fun r => r.ids.any (fun i => ids.contains i)) ++
    (if ids.isEmpty || n == 0 then [] else
      (List.range ((a + n - 1) / 4 + 1 - a / 4)).map (fun k => ⟨a / 4 + k, x.store.readN (4 * (a / 4 + k)) 4, ids⟩))

/-- Writes bytes into a tile store; the clusters' images that come from one of the lines are dropped (R164, R173). -/
def Tile.write (x : Tile) (a : Nat) (bs : List Byte) : Tile :=
  { x with
    store := x.store.writeN a bs
    races := x.raced a bs.length
    clusters := x.clusters.map (fun (c : Nat × Cluster) => (c.1, match c.2.image with
      | some (i, n) => if a / lineBytes ≤ (i + n - 1) / lineBytes ∧ i / lineBytes ≤ (a + bs.length - 1) / lineBytes ∧ !bs.isEmpty then { c.2 with image := none } else c.2
      | none => c.2)) }

/-- Writes a list of (address, bytes). -/
def Tile.writeAll (x : Tile) (ws : List (Nat × List Byte)) : Tile := ws.foldl (fun x w => x.write w.1 w.2) x

/-- The words that instruction id may still meet as they were (R155). -/
def Tile.racesOf (x : Tile) (id : Nat) : List (Race × Nat) := (x.races.filter (fun r => r.ids.contains id)).zipIdx

/-- The tile store as instruction id reads it, by choices `coin`: each word written while it ran, as it was or as it is; each word that an
instruction in flight still writes, as it is or with bytes that are free, since a write's bytes are formed at its end (R155; log 100). -/
def Tile.seenBy (x : Tile) (id : Nat) (coin : Nat → Bool) : Tile :=
  let now := (x.racesOf id).foldr (fun r m => if coin r.2 then m.writeN (4 * r.1.word) r.1.old else m) x.store
  { x with store := (x.early id).foldr (fun a m =>
      if coin (2 ^ 31 + a / 4) then m.write a (byte ((List.range 8).foldl (fun v k => 2 * v + b2n (coin (2 ^ 32 + 8 * a + k))) 0)) else m) now }

/-- Instruction id meets no write of another unit that R155 leaves open. -/
def Tile.quiet (x : Tile) (id : Nat) : Bool := (x.racesOf id).isEmpty && (x.early id).isEmpty

/-- Writes of instruction id: a word written by another unit while it ran holds the one value or the other (R155). -/
def Tile.writeBy (x : Tile) (id : Nat) (coin : Nat → Bool) (ws : List (Nat × List Byte)) : Tile :=
  let y := x.writeAll ws
  { y with store := (x.racesOf id).foldl (fun m r => if coin (2 ^ 30 + r.2) then m.writeN (4 * r.1.word) (x.store.readN (4 * r.1.word) 4) else m) y.store }

/-- The free choices of R155 for one use. -/
def State.raceCoin (s : State) (i : Nat) : Bool := bitOf (Config.freeByte (s.fresh * 2 ^ 41 + i)).toNat 0

/-- The state once the choices for a use by instruction id of tile x are drawn: none are where it meets no open write. -/
def State.drew (s : State) (x : Tile) (id : Nat) : State := if x.quiet id then s else s.bump

/-- A tile's store as a unit meets it at once: a prep core, the sequencer, or an instruction at its issue (R150, R155, R172). -/
def State.seenNow (s : State) (t : Nat) : Tile := (s.tile t).seenBy (s.tile t).seq.nextId s.raceCoin

/-- The state after such a read. -/
def State.drewNow (s : State) (t : Nat) : State := s.drew (s.tile t) (s.tile t).seq.nextId

end Sys2Proof.Machine
end

