-- ==== Sys2Proof/Machine/TileOps.lean ====
section
/-!
DEFINITION. What the units of a tile share: the run a tile works for, faults (R98, R101), the instructions that may issue (R146 to R150),
completion and marks (R152), event counters (R151), tile store (R118), and the compared writes of full redundancy (R405).
-/
namespace Sys2Proof.Machine

/-- The tile program of a descriptor's work. -/
def Work.run? : Work → Option ExecRun
  | .exec r => some r
  | .serve r => r.run
  | _ => none

def Work.mapRun (f : ExecRun → ExecRun) : Work → Work
  | .exec r => .exec (f r)
  | .serve r => .serve { r with run := r.run.map f }
  | w => w

/-- The run of a descriptor (context, ring, position). -/
def State.run? (s : State) (o : Nat × Nat × Nat) : Option ExecRun := ((s.ctx o.1).find o.2.1 o.2.2).bind (fun d => d.work.run?)

def State.modRun (s : State) (o : Nat × Nat × Nat) (f : ExecRun → ExecRun) : State :=
  s.modDesc o.1 o.2.1 o.2.2 (fun d => { d with work := d.work.mapRun f })

/-- The run that a tile works for. -/
def State.tileRun (s : State) (t : Nat) : Option ((Nat × Nat × Nat) × ExecRun) :=
  (s.tile t).seq.owner.bind (fun o => (s.run? o).map (fun r => (o, r)))

/-- A run that ends or repeats: its tiles issue nothing more and stop at their safe points (R98, R205). -/
def ExecRun.stopping (r : ExecRun) : Bool := r.ending.isSome || r.overflow.any (fun o => o.wide.isSome)

/-- Tile t is a partner of R405. -/
def ExecRun.isPartner (r : ExecRun) (t : Nat) : Bool := r.partner && decide (48 ≤ t)

/-- Secondary codes of tile program faults (R101). -/
def scAccOrder : Half := 1#16
def scWatchdog : Half := 2#16
def scIllegal : Half := 3#16
def scStoreRange : Half := 4#16
def scDmaRange : Half := 5#16
def scPrepFault : Half := 6#16
def scCheckFail : Half := 7#16
def scPoisonRead : Half := 8#16
def scTileFenced : Half := 9#16
def scHostAccess : Half := 10#16

/-- A tile program faults; the first fault of the EXEC stands. RESULT is the restart address, that of the pass or instruction that
faulted (R98, R104, R105, R143, R171); for an instruction of a CALL block and for PREP_FAULT the spec gives none: then it is
free (log 28). -/
def State.tileFault (s : State) (t : Nat) (st : Byte) (code : Half) (at? : Option Nat) : State :=
  match s.tileRun t with
  | none => s
  | some (o, _) =>
    let known := at?.bind (fun a => if a < 2 ^ 32 then some (dword a) else none)
    let e : Ending := { status := st, secondary := code, unit := half t, result := known.getD s.free }
    (if known.isSome then s else s.bump).modRun o (fun r => r.endWithFirst e)

/-- The status that R101 gives a code. -/
def statusOf (code : Half) : Byte :=
  if code = scAccOrder then stState else if code = scWatchdog then stTimeout else if code = scStoreRange ∨ code = scDmaRange then stBounds
  else if code = scCheckFail then stCheck else if code = scPoisonRead then stPoison else if code = scTileFenced then stFenced
  else if code = scHostAccess then stAuth else stFormat

/-- A fault of an instruction. Where it ends its EXEC, what the tile issued before still runs to its end, so that the restart address finds it
done (R98, R131, R143; log 28). -/
def State.fault (s : State) (t : Nat) (code : Half) (at? : Option Nat) : State :=
  let s1 := s.tileFault t (statusOf code) code at?
  if (s.tileRun t).any (fun x => x.2.ending.isNone) then s1.modTile t (fun x => { x with seq := { x.seq with finish := true } }) else s1

/-- Classes and operations of R146. -/
def opDefined (cls op : Nat) : Bool :=
  match cls with
  | 1 => decide (1 ≤ op ∧ op ≤ 7)
  | 2 => decide (1 ≤ op ∧ op ≤ 2)
  | 3 => decide (1 ≤ op ∧ op ≤ 3)
  | 4 => decide (1 ≤ op ∧ op ≤ 3)
  | 5 => op == 1
  | 6 => decide (1 ≤ op ∧ op ≤ 3)
  | _ => false

/-- Accumulator tiles that a matrix instruction names (R130). -/
def accNames (w : TileWord) : List Nat :=
  if tclass w ≠ 1 then [] else
    match top w with
    | 2 => [tf w 111 108]
    | 3 => tf w 111 108 :: (if tf w 10 9 = 0 then [] else [tf w 14 11]) ++ (if tf w 4 3 = 0 then [] else [tf w 8 5])
    | 4 => bitList (tf w 111 96) 16
    | 6 => [tf w 111 108]
    | 7 => [tf w 111 108]
    | _ => []

/-- MLOAD and MPASS, which keep their order (R147). -/
def keepsOrder (w : TileWord) : Bool := tclass w == 1 && (top w == 1 || top w == 2)

/-- What the sequencer finds at a place of its issue window. -/
inductive Found where
  | none
  | insn (addr : Nat) (w : TileWord)
  | past
  | bad (st : Byte)
  | wait

/-- The instruction at the sequencer's PC: of the CALL block in tile store, or of the program at CODE (R149, R150). -/
def State.atPc (s : State) (t : Nat) (o : Nat × Nat × Nat) (r : ExecRun) : Found :=
  let x := s.tile t
  match x.seq.call with
  | some (a, _, i) => .insn (2 ^ 32 + a + 16 * i) (BitVec.ofNat 128 ((s.seenNow t).store.readLE (a + 16 * i) 16))
  | none =>
    if r.codeBytes ≤ x.seq.pc then .past
    else if s.refWaits o.1 r.code.toNat then .wait
    else
      let g := s.readHeld o.1 r.code.toNat x.seq.pc 16
      match g.stop with
      | some st => .bad st
      | none => .insn x.seq.pc (BitVec.ofNat 128 (leNat g.data))

/-- The state after a fetch of the instruction at the PC that failed (R247). -/
def State.fetchReach (s : State) (t : Nat) : State :=
  match s.tileRun t with
  | some (o, r) => s.reachHeld o.1 r.code.toNat (s.tile t).seq.pc 16
  | none => s

/-- Whether the sequencer issues at all: a program runs, nothing stops it, the tile is awake (R66, R98, R205). -/
def State.issues (s : State) (t : Nat) : Bool :=
  match s.tileRun t with
  | some (_, r) => !r.stopping && r.running.toNat.testBit t && (s.tile t).sleep == .running && (s.tile t).slice != .running
  | none => false

/-- A run ends because tile t raised ACC_ORDER: its prep dispatches still complete too (R104, R131). -/
def ExecRun.completes (r : ExecRun) (t : Nat) : Bool := r.ending.any (fun e => e.secondary == scAccOrder && e.unit == half t)

/-- A tile works for a run, awake and not under a slice (R66, R156). -/
def State.works (s : State) (t : Nat) : Bool := (s.tileRun t).isSome && (s.tile t).sleep == .running && (s.tile t).slice != .running

/-- Whether the units of a tile start queued instructions: nothing stops its run, or they were issued before the fault of this tile that
does, and no YIELD or slice holds it (R98, R104, R143, R156, R205). -/
def State.starts (s : State) (t : Nat) : Bool :=
  match s.tileRun t with
  | some (_, r) => (!r.stopping || (s.tile t).seq.finish) && !(s.tile t).seq.yielded && (s.tile t).sleep == .running && (s.tile t).slice != .running
  | none => false

/-- Place k of the issue window: the instructions that R130 holds, then the one at the PC (R147). -/
def State.window (s : State) (t k : Nat) : Found :=
  let q := (s.tile t).seq
  if !s.issues t || q.yielded then .none else
    match q.held[k]? with
    | some (a, w) => .insn a w
    | none =>
      if k ≠ q.held.length ∨ q.wait = 3 ∨ q.ended then .none else
        match s.tileRun t with
        | some (o, r) => s.atPc t o r
        | none => .none

/-- An instruction may not pass those held before it: it names one of their accumulator tiles, or both keep their order (R130, R147). -/
def passes (held : List (Nat × TileWord)) (w : TileWord) : Bool :=
  !held.any (fun h => (keepsOrder h.2 && keepsOrder w) || (accNames h.2).any (fun a => (accNames w).contains a))

/-- What the execution of an instruction at its issue comes to: it does not issue yet, for the reason WAIT gives; R130 holds it; it
faults; or it issues. -/
inductive Issued where
  | stay (wait : Nat)
  | hold
  | fault (code : Half)
  | go (s : State)

/-- The sequencer goes on past the instruction at its PC (R149, R150). -/
def Seq.next (q : Seq) : Seq :=
  match q.call with
  | some (a, n, i) => { q with call := if i + 1 < n then some (a, n, i + 1) else none, wait := 0 }
  | none => { q with pc := q.pc + 16, wait := 0 }

def State.modSeq (s : State) (t : Nat) (f : Seq → Seq) : State := s.modTile t (fun x => { x with seq := f x.seq })
def State.modMx (s : State) (t : Nat) (f : Matrix → Matrix) : State := s.modTile t (fun x => { x with mx := f x.mx })

/-- The instruction at place k leaves the window. -/
def State.pass (s : State) (t k : Nat) : State :=
  s.modSeq t (fun q => if k < q.held.length then { q with held := q.held.eraseIdx k } else q.next)

/-- The code of a failed read of the program or of an operand; beyond its object's extent it is DMA_RANGE (log 41). -/
def accessCode (st : Byte) : Half := if st = stPoison then scPoisonRead else if st = stBounds then scDmaRange else scHostAccess

/-- Counts n occurrences of an event in every counter of a tile that selects it (R431). -/
def State.countTile (s : State) (t ev n : Nat) : State :=
  (List.range 16).foldl (fun (s : State) k =>
    let sel := s.reg (rPmcSel t k)
    if n = 0 ∨ !bitOf sel 31 ∨ fld sel 0 8 ≠ ev then s else
      let v := ((s.tile t).pmc.get 0#64 k).toNat + n
      s.modTile t (fun x => { x with
        pmc := x.pmc.set k (dword (v % 2 ^ 48))
        pmcOvf := if 2 ^ 48 ≤ v then x.pmcOvf ||| BitVec.ofNat 16 (2 ^ k) else x.pmcOvf })) s

/-- A range of unified addresses has a block in the slow tier. -/
def State.anySlow (s : State) (r : Nat × Nat) : Bool :=
  r.2 != 0 && (List.range ((r.1 + r.2 - 1) / blockBytes + 1 - r.1 / blockBytes)).any (fun k => (s.slowFrameAt (max r.1 ((r.1 / blockBytes + k) * blockBytes))).isSome)

/-- A tile's read of ranges of unified addresses counts as slow-tier reads where one lies in the slow tier: as many as the junction caches do
not hold, which is free (R218, R431; log 51). -/
def State.countSlow (s : State) (t : Nat) (rs : List (Nat × Nat)) : State :=
  if rs.any s.anySlow then s.bump.countTile t 0x18 (s.free.toNat % 2 ^ 32) else s

/-- The unified addresses of n bytes at a target, if it is one of device memory. -/
def Target.devRange (d : Target) (n : Nat) : List (Nat × Nat) :=
  match d.space with
  | .dev _ => [(d.addr, n)]
  | _ => []

/-- The unified addresses of the instruction at the PC. -/
def State.fetchRange (s : State) (t : Nat) : List (Nat × Nat) :=
  match s.tileRun t with
  | some (o, r) => ((s.resolveHeld o.1 r.code.toNat).plus (s.tile t).seq.pc).devRange 16
  | none => []

/-- The sequencer has taken the instruction at place k, read in state s: it counts as issued, and its fetch from the slow tier as a read
(R431), and what it met of a CALL block is drawn (R150, R155). -/
def State.took (s' s : State) (t k : Nat) : State :=
  let s1 := s'.countTile t 2 1
  if k ≠ (s.tile t).seq.held.length then s1
  else if (s.tile t).seq.call.isSome then s1.drew (s.tile t) (s.tile t).seq.nextId
  else s1.countSlow t (s.fetchRange t)

/-- TAG_EN: one in 2^TAG_N of the matrix and vector instructions that issue is tagged; which ones is free (R433; log 51). -/
def State.addTag (s' s : State) (t a : Nat) (w : TileWord) : State :=
  let r := s.reg (rPmcTag t)
  if !bitOf r 31 || (tclass w != 1 && tclass w != 2) then s' else
    let n := s.tile t |>.seq.nextId
    if s'.free.toNat % 2 ^ clampNat 4 20 (fld r 24 5) ≠ 0 then s'.bump
    else s'.bump.modTile t (fun x => { x with tags := x.tags ++ [⟨if x.seq.nextId = n then none else some n, a, w, s.time⟩] })

/-- Issues the instruction at place k if it is of the given class and operation: `f` is given its address and word (R147). -/
def State.issue (s : State) (t k cls op : Nat) (f : State → Nat → TileWord → Issued) : State :=
  match s.window t k with
  | .insn a w =>
    if tclass w = cls ∧ top w = op then
      match (if passes ((s.tile t).seq.held.take k) w then f s a w else .stay 2) with
      | .stay n => if k = (s.tile t).seq.held.length then s.modSeq t (fun q => { q with wait := n }) else s
      | .hold => if k = (s.tile t).seq.held.length then s.modSeq t (fun q => { q.next with held := q.held ++ [(a, w)], wait := 0 }) else s
      | .fault c => s.fault t c (some a)
      | .go s' => ((s'.took s t k).addTag s t a w).pass t k
    else s
  | .bad st => (s.fetchReach t).fault t (accessCode st) (some (s.tile t).seq.pc)
  | _ => s

/-- Gives an issued instruction its number and marks its unit busy with it (R152). -/
def State.number (s : State) (t unit : Nat) : State × Nat :=
  let n := (s.tile t).seq.nextId
  (s.modSeq t (fun q => { q with nextId := n + 1, busy := q.busy ++ [(n, unit)] }), n)

/-- An issued instruction completes (R152). -/
def State.complete1 (s : State) (t id : Nat) : State := s.modSeq t (fun q => { q with busy := q.busy.filter (fun b => b.1 != id) })

/-- Adds n to an event counter, saturating at 65,535 with EV_SAT (R151). -/
def Seq.addEvent (q : Seq) (c n : Nat) : Seq :=
  let v := (q.events.get 0#16 c).toNat + n
  { q with events := q.events.set c (half (min v 65535)), evSat := q.evSat || decide (65535 < v) }

/-- A context's AK6 mode (R213). -/
def State.ak6 (s : State) (c : Nat) : Bool := bitOf (s.reg (rNumCtl c)) 1

/-- The context and AK6 mode of a tile's run. -/
def State.tileAk6 (s : State) (t : Nat) : Bool := (s.tileRun t).any (fun x => s.ak6 x.1.1)

/-- A plan entry of the overflow plan (R203, R204): LAYER, FMT, and the wider program's object, length and format if there is one. -/
structure OvfEntry where
  layer : Nat
  fmt : Nat
  wide : Option (Nat × Nat × Nat)

/-- The next wider layer format (R203). -/
def nextWider (f : Nat) : Option Nat :=
  match f with
  | 5 | 6 | 7 => some 2
  | 2 | 3 | 4 => some 0
  | 1 => some 0
  | 0 => some 8
  | _ => none

/-- One entry of the overflow plan, if it is not treated as absent (R203, R204). -/
def ovfEntry (r : List Byte) : Option OvfEntry :=
  let f := recNat r 10 1
  if recNat r 0 4 / 2 ^ 20 ≠ 0 ∨ recNat r 4 4 / 2 ^ 20 ≠ 0 ∨ 9 < f then none else
    match nextWider f with
    | none => some ⟨recNat r 8 2, f, none⟩
    | some g => if recNat r 11 1 = g then some ⟨recNat r 8 2, f, some (recNat r 4 4, recNat r 12 4, g)⟩ else none

/-- The entry that matches a program at offset 0 of an object (R204). -/
def State.ovfMatch (s : State) (c : Nat) (code : DWord) : Option OvfEntry :=
  let ref := s.reg (rOvfPlan c)
  let n := min (fld (s.reg (rOvfCfg c)) 0 13) 4096
  if refOff code.toNat ≠ 0 ∨ fld code.toNat 60 4 ≠ 0 then none else
    (List.range n).findSome? (fun i => match s.readRef c ref (16 * i) 16 with
      | some r => if recNat r 0 4 % 2 ^ 20 = refId code.toNat then ovfEntry r else none
      | none => none)

/-- The state after the reads of the overflow plan (R247). -/
def State.ovfReach (s : State) (c : Nat) : State := s.reachTarget (s.resolve c (s.reg (rOvfPlan c))) (16 * min (fld (s.reg (rOvfCfg c)) 0 13) 4096)

/-- A drain reports overflowed elements: the first report of a run decides whether it repeats; a wider program without an entry of its own is
still the EXEC of the entry that started it (R133, R205, R207, R210). -/
def State.reportOverflow (s : State) (t count : Nat) (nonfinite saturated : Bool) : State :=
  match s.tileRun t with
  | none => s
  | some (o, r) =>
    if count = 0 then s else
      let e := s.ovfMatch o.1 r.named
      let s := s.ovfReach o.1
      let x : Overflow :=
        { count := count, nonfinite := nonfinite, saturated := saturated, tile := t
          entry := (e.map (fun e => (e.layer, e.fmt))).or ((r.first.bind (fun f => f.entry)).map (fun q => (q.1, r.fmt)))
          wide := if bitOf (s.reg (rNumCtl o.1)) 3 ∧ r.repeats < 3 then e.bind (fun e => e.wide) else none }
      s.modRun o (fun r => { r with
        ovfCount := if r.repeats = 0 then satAdd 0xFFFFFFFF r.ovfCount count else r.ovfCount
        fmt := if r.repeats = 0 then e.elim 255 (fun e => e.fmt) else r.fmt
        first := if r.first.isSome then r.first else some x
        overflow := if r.overflow.isSome then r.overflow else some x })

/-- A difference between the two copies, found by a write of tile t, ends both with CHECK, SECONDARY 0 and UNIT the primary tile, whether or
not the program has ended on that (R405). -/
def State.mismatch (s : State) (t : Nat) : State :=
  match s.tileRun t with
  | none => s
  | some (o, _) => s.bump.modRun o (fun r => r.endWithFirst { status := stCheck, unit := half (t % 48), result := s.free })

/-- A device write of a tile in full redundancy (R405): it is compared with the same unit's next write of the other copy, or kept
until that comes. The other tile and unit find the writes of one unit in their order. -/
def State.compareWrite (s : State) (t unit addr : Nat) (bs : List Byte) : State :=
  let u := if t < 48 then t + 48 else t - 48
  match (s.tile u).writes.find? (fun w => w.1 == unit) with
  | some w =>
    let s1 := s.modTile u (fun x => { x with writes := x.writes.erase w })
    if w = (unit, addr, bs) then s1 else s1.mismatch t
  | none => s.modTile t (fun x => { x with writes := x.writes ++ [(unit, addr, bs)] })

/-- A device write by tile t: applied, and with REDUNDANT compared; a partner's is only compared (R405). -/
def State.tileWrite (s : State) (t unit addr : Nat) (bs : List Byte) (apply : State → State) : State :=
  match s.tileRun t with
  | some (_, r) => if r.partner then (if r.isPartner t then s else apply s).compareWrite t unit addr bs else apply s
  | none => apply s

end Sys2Proof.Machine
end

