-- ==== Sys2Proof/Machine/Matrix.lean ====
section
/-!
DEFINITION. The matrix array (R114 to R131, R136 to R139, R143): loading a stationary set, passes, their sums, checks and commit.
-/
namespace Sys2Proof.Machine

/-- Streamed and stationary formats that pair (R115): of the FP8 formats, E4M3 with E5M2 alone (log 99). -/
def pairOk (a b : Nat) : Bool :=
  (a == b && (decide (a < 2) || a == 4)) || (a == 2 && b == 3) || (a == 3 && b == 2) || (isMx a && isMx b)

/-- How an instruction's fields stand (R145): broken, a zero count, or sound. -/
inductive Legal where
  | bad (code : Half)
  | zero
  | ok

/-- ILLEGAL comes before a zero count, and that before STORE_RANGE (R145; log 30). -/
def legal (illegal zero range : Bool) : Legal := if illegal then .bad scIllegal else if zero then .zero else if range then .bad scStoreRange else .ok

/-- Matrix queue entries in use (R146, R147): instructions that have not started, the armed drain of a stream pass until the pass's
first block is drained among them. -/
def Tile.mxEntries (x : Tile) : Nat :=
  x.mx.queue.length + (x.mx.queue.filter (fun q => q.armed.isSome)).length + (x.mx.passes.filter (fun p => p.armed.isSome && p.committed == 0)).length
    + x.seq.armed.toList.length
def Tile.mxRoom (x : Tile) : Bool := decide (x.mxEntries < 8)

/-- State of accumulator tile a: 0 Idle, 1 Open, 2 Closed, 3 Drained (R130). -/
def Matrix.state (m : Matrix) (a : Nat) : Nat := fld m.score.toNat (2 * a) 2
def Matrix.setState (m : Matrix) (a v : Nat) : Matrix := { m with score := word (setFld m.score.toNat (2 * a) 2 v) }

/-- The pass that closes the chain of accumulator tile a, or one of its chain, is issued and not committed (R130). -/
def Matrix.passOn (m : Matrix) (a : Nat) : Bool :=
  m.passes.any (fun p => p.armed.isNone && tf p.word 111 108 == a) || m.queue.any (fun q => top q.word == 2 && q.armed.isNone && tf q.word 111 108 == a)

/-- A pass is issued and not committed. -/
def Matrix.anyPass (m : Matrix) : Bool := !m.passes.isEmpty || m.queue.any (fun q => top q.word == 2)

/-- A drain, MACCR or MACCW that names accumulator tile a, or a stream pass whose armed drain does, was issued before instruction `id`, if
one is given, and is not complete. -/
def Matrix.drainBefore (m : Matrix) (a : Nat) (id : Option Nat) : Bool :=
  let before := fun (n : Nat) => id.all (fun i => decide (n < i))
  let names := fun (w : TileWord) => (accNames w).contains a
  m.drains.any (fun d => before d.id && names d.word)
    || m.queue.any (fun q => before q.id && ((top q.word != 2 && names q.word) || q.armed.any (fun w => names w.2)))
    || m.passes.any (fun p => before p.id && p.armed.any (fun w => names w.2))
def Matrix.drainOn (m : Matrix) (a : Nat) : Bool := m.drainBefore a none

/-- Puts an issued matrix instruction into the queue. -/
def State.enqueue (s : State) (t unit a : Nat) (w : TileWord) (before : Word) (armed : Option (Nat × TileWord)) : State :=
  let (s1, id) := s.number t unit
  s1.modMx t (fun m => { m with queue := m.queue ++ [⟨id, w, a, before, armed⟩] })

/-- The first array instruction of the queue, MLOAD or MPASS (R148). -/
def Matrix.arrayHead (m : Matrix) : Option MxOp := m.queue.find? (fun q => keepsOrder q.word)

/-- The first queued MLOAD starts its shadow load once the one before has swapped, whatever passes are queued before it (R124, R147). -/
def Matrix.startLoad (m : Matrix) : Matrix :=
  match m.queue.find? (fun q => top q.word == 1) with
  | some q => if m.shadow.isNone then { m with queue := m.queue.erase q, shadow := some { id := q.id, word := q.word } } else m
  | none => m

/-- The stationary format that a pass issued now will meet: that of the last MLOAD issued (R115). -/
def Matrix.fmtAhead (m : Matrix) : Nat :=
  match (m.queue.filter (fun q => top q.word == 1)).getLast?, m.shadow with
  | some q, _ => tf q.word 119 116
  | none, some h => tf h.word 119 116
  | none, none => m.active.fmt

/-- The fields of an MLOAD (R145, R215). -/
def mloadLegal (ak : Bool) (w : TileWord) : Legal :=
  let f := tf w 119 116
  legal (decide (8 ≤ f) || (ak && isMx f) || tf w 114 112 != 0 || decide (192 < tf w 111 104) || decide (192 < tf w 103 96)
      || tf w 95 71 % lineBytes != 0 || tf w 70 46 % 32 != 0 || (!isMx f && tf w 70 46 != 0) || tf w 45 0 != 0)
    (tf w 111 104 == 0 || tf w 103 96 == 0)
    (!inStore (tf w 95 71) (lineBytes * setLines f (tf w 103 96)) || (isMx f && !inStore (tf w 70 46) (32 * tf w 111 104 - 8)))

/-- MLOAD at its issue (R124, R147). -/
def issueMload (t : Nat) (s : State) (a : Nat) (w : TileWord) : Issued :=
  match mloadLegal (s.tileAk6 t) w with
  | .bad c => .fault c
  | .zero => .go s
  | .ok => if (s.tile t).mxRoom then .go ((s.enqueue t 0 a w (s.tile t).mx.score none).modMx t Matrix.startLoad) else .stay 1

/-- MLOAD (R124). -/
def execMload (t : TileId) (k : Nat) (s : State) : Host.Outcome State Fault Refusal := .next (s.issue t k 1 1 (issueMload t))

/-- A subnormal element of a format counts as zero in AK6 mode (R213). -/
def akElem (ak : Bool) (f code : Nat) : Num :=
  match elemNum f code with
  | .fin s m e => if ak ∧ f ≠ 4 ∧ m < 2 ^ (fmtOfCode f).man then .fin s 0 e else .fin s m e
  | x => x

/-- The elements of a row's segments, with their block scales (R183, R184). -/
def elemsOf (ak : Bool) (f : Nat) (segs : List Nat) (scale : Nat → Nat) : List (Num × Nat) :=
  let p := packOf f
  (segs.zipIdx.map (fun x => (unpackBits (elemBits f) x.1 p).map (fun c => (akElem ak f c, if isMx f then scale (x.2 / 8) else 127)))).flatten

/-- An element with its block scale, as FP32 (R115, R184). -/
def elemF32 (mx : Bool) (x : Num × Nat) : Word :=
  if !mx then f32Of x.1 else if x.2 = 255 then f32Of .nan else match x.1 with
    | .fin s m e => f32Of (.fin s m (e + x.2 - 127))
    | y => f32Of y

/-- The elements of stationary row c of a set (R114). -/
def StatSet.row (q : StatSet) (ak : Bool) (c : Nat) : List (Num × Nat) :=
  elemsOf ak q.fmt ((List.range 192).map (fun r => (q.segs.get 0#32 (192 * c + r)).toNat)) (fun b => (q.scales.get 0#8 (32 * c + b)).toNat)

/-- Sums of rows element by element, in order, in FP32. -/
def sumRows (n : Nat) (rows : List (List Word)) : List Word := rows.foldl (fun acc r => List.zipWith fadd acc r) (List.replicate n 0#32)

/-- The nonzero words of a list, by position. -/
def sparse (l : List Word) : Tab Word := (l.zipIdx.filter (fun (v : Word × Nat) => v.1 != 0#32)).map (fun v => (v.2, v.1))

/-- A set with its checksum column: for every K element the FP32 sum of the stationary rows in ascending order, and of their magnitudes
(R114, R120; log 101). -/
def StatSet.withSums (q : StatSet) (ak : Bool) : StatSet :=
  let n := 192 * packOf q.fmt
  let rows := (List.range q.ncols).map (fun c => (q.row ak c).map (elemF32 (isMx q.fmt)))
  { q with sigma := sparse (sumRows n rows), sigmaAbs := sparse (sumRows n (rows.map (fun r => r.map fabs))) }

/-- The stationary set that an MLOAD names, read from tile store (R120, R121). Scale bytes of blocks at and beyond KSEG are read and applied too
(R184; log 126). -/
def Tile.readSet (x : Tile) (ak : Bool) (w : TileWord) : StatSet :=
  let f := tf w 119 116
  let nc := tf w 111 104
  let ks := tf w 103 96
  let src := tf w 95 71
  let sc := tf w 70 46
  let seg := fun (c r : Nat) => if wideSeg f then x.store.readLE (src + lineBytes * r + 4 * c) 3
    else x.store.readLE (src + lineBytes * (r / 2) + 4 * c + 2 * (r % 2)) 2
  let q : StatSet :=
  { fmt := f
    ncols := nc
    kseg := ks
    segs := ((List.range nc).map (fun c => (List.range ks).filterMap (fun r => if seg c r = 0 then none else some (192 * c + r, word (seg c r))))).flatten
    scales := if isMx f then ((List.range nc).map (fun c => (List.range 24).map (fun b => (32 * c + b, x.store.read (sc + 32 * c + b))))).flatten else []
    lines := mloadLines w }
  q.withSums ak

/-- SHADOW_LOAD_DONE (R124, R152). -/
def State.shadowDone (s : State) (t : Nat) : State :=
  let x := s.tile t
  match x.mx.shadow with
  | some h =>
    if h.loaded || x.slice == .running then s
    else ((s.modMx t (fun m => { m with shadow := some { h with loaded := true, set := (x.seenBy h.id s.raceCoin).readSet (s.tileAk6 t) h.word } })).complete1 t h.id).drew x h.id
  | none => s

/-- SHADOW_LOAD_DONE (R124). -/
def execShadowLoadDone (t : TileId) (s : State) : Host.Outcome State Fault Refusal := .next (s.shadowDone t)

/-- The swap front may enter: every pass issued before the MLOAD has read its input 0, and with WAVE it goes in behind the pass in flight,
else with the array empty (R124). -/
def Matrix.maySwap (m : Matrix) (h : Shadow) : Bool :=
  h.loaded && !m.queue.any (fun q => top q.word == 2 && decide (q.id < h.id)) && (tf h.word 115 115 == 1 || m.passes.isEmpty)

/-- SWAP_FRONT (R124): the shadow set becomes active, and a waiting MLOAD starts unless a YIELD or a slice keeps it queued (R156). -/
def State.swapFront (s : State) (t : Nat) : State :=
  let x := s.tile t
  match x.mx.shadow with
  | some h =>
    if x.mx.maySwap h && x.slice != .running then
      s.modMx t (fun m => let m1 : Matrix := { m with active := h.set, shadow := none }; if s.starts t then m1.startLoad else m1)
    else s
  | none => s

/-- SWAP_FRONT (R124). -/
def execSwapFront (t : TileId) (s : State) : Host.Outcome State Fault Refusal := .next (s.swapFront t)

/-- The store range that n drained rows write (R134): from DST, this many bytes. -/
def drainSpan (w : TileWord) (n : Nat) : Nat :=
  let size := ofmtSize (tf w 119 116)
  if tf w 113 113 = 1 then lineBytes * (ceilDiv (n + (if size = 2 then 191 else 95)) 2)
  else (n - 1) * (if tf w 26 15 = 0 then 192 * size else 4 * tf w 26 15) + 192 * size

/-- The fields of an MPASS (R126, R129, R145, R215); `fmt` is the stationary format it will meet. The range of a ring operand is that of its
RING lines, reached or not (R122; log 109). -/
def mpassLegal (ak : Bool) (fmt : Nat) (armed : Option (Nat × TileWord)) (w : TileWord) : Legal :=
  let f := tf w 119 116
  let rows := tf w 70 54
  let ring := tf w 53 39
  let stream := tf w 113 113 == 1
  let span := if ring ≠ 0 then ring else if wideSeg f then rows + 191 else ceilDiv (rows + 191) 2
  let groups := if ring = 0 then rows else min rows (if wideSeg f then ring else 2 * ring)
  legal (decide (8 ≤ f) || (ak && isMx f) || !pairOk f fmt || tf w 98 96 != 0 || tf w 95 71 % lineBytes != 0 || decide (65536 < rows)
      || (stream && (tf w 115 114 != 3 || tf w 107 99 != 0)) || (!stream && decide (512 < tf w 107 99 + rows))
      || (ring != 0 && decide (ring < (if wideSeg f then 1536 else 768))) || tf w 38 32 != 0 || tf w 31 7 % 32 != 0
      || (!isMx f && tf w 31 7 != 0) || tf w 6 0 != 0)
    (rows == 0)
    (!inStore (tf w 95 71) (lineBytes * span) || (isMx f && !inStore (tf w 31 7) (32 * groups - 8))
      || (stream && armed.any (fun d => !inStore (tf d.2 80 56) (drainSpan d.2 rows))))

/-- MPASS at its issue: the armed drain, the scoreboard, then the wait for drains of its tile (R129, R130, R131). -/
def issueMpass (t : Nat) (s : State) (a : Nat) (w : TileWord) : Issued :=
  let x := s.tile t
  let m := x.mx
  let acc := tf w 111 108
  let stream := tf w 113 113 == 1
  let first := tf w 115 115 == 1
  match mpassLegal (s.tileAk6 t) m.fmtAhead x.seq.armed w with
  | .bad c => .fault c
  | .zero => .go s
  | .ok =>
    let armedHere := x.seq.armed.any (fun d => tf d.2 111 108 == acc)
    if x.seq.armed.isSome != stream || (stream && !armedHere) then .fault scAccOrder
    else if first == (m.state acc == 1) then .fault scAccOrder
    else if first && m.drainOn acc then .hold
    else if !x.mxRoom then .stay 1
    else
      let m' := if stream then m else m.setState acc (if tf w 114 114 = 1 then 2 else 1)
      let s1 := (s.modMx t (fun _ => m')).modSeq t (fun q => { q with armed := none })
      .go (s1.enqueue t 0 a w m.score (if stream then x.seq.armed else none))

/-- MPASS (R126). -/
def execMpass (t : TileId) (k : Nat) (s : State) : Host.Outcome State Fault Refusal := .next (s.issue t k 1 2 (issueMpass t))

/-- A statistics drain (R132). -/
def isStats (w : TileWord) : Bool := top w == 3 && tf w 114 114 == 1

/-- A queued pass may read its input 0: it is the next array instruction, the MLOADs before it have swapped, no vote holds passes, and
a stream pass finds the statistics channels free and no earlier drain of its tile (R124, R129, R140, R148). -/
def Matrix.mayStart (m : Matrix) (q : MxOp) : Bool :=
  top q.word == 2 && m.shadow.all (fun h => decide (q.id < h.id)) && m.vote.isNone
    && (q.armed.isNone || (!m.drains.any (fun d => isStats d.word) && !m.drainBefore (tf q.word 111 108) (some q.id)))

/-- A tile that may run a vote's second run: powered and unfenced (R140). -/
def State.canVote (s : State) (u : Nat) : Bool :=
  !s.tileFenced u && !s.dieRailOff (u / 12) && ((s.tile u).sleep == .running || (s.tile u).sleep == .gated)

/-- The neighbour tile of R140. -/
def State.neighbour (s : State) (t : Nat) : Option Nat :=
  if s.canVote (t ^^^ 1) then some (t ^^^ 1) else ((List.range 12).map (fun k => t / 12 * 12 + k)).find? (fun u => u != t && s.canVote u)

/-- The tile serves as the neighbour of a vote, and its array starts no pass until that ends (R140). -/
def State.serving (s : State) (u : Nat) : Bool :=
  (List.range 12).any (fun k => (s.tile (u / 12 * 12 + k)).mx.vote.isSome && s.neighbour (u / 12 * 12 + k) == some u)

/-- PASS_INPUT_START: the pass takes the active set and TILE_MX_TOL (R128, R137). -/
def State.passStart (s : State) (t : Nat) : State :=
  match (s.tile t).mx.arrayHead with
  | some q =>
    if s.starts t && (s.tile t).mx.mayStart q && !s.serving t then
      s.modMx t (fun m => Matrix.startLoad { m with
        queue := m.queue.erase q
        passes := m.passes ++ [{ id := q.id, word := q.word, pc := q.pc, set := m.active, armed := q.armed, tol := s.reg (rMxTol t), scoreBefore := q.before }] })
    else s
  | none => s

/-- PASS_INPUT_START (R128). -/
def execPassInputStart (t : TileId) (s : State) : Host.Outcome State Fault Refusal := .next (s.passStart t)

/-- One product: exact, or for MX formats scaled and rounded once (R192). -/
def product (mx : Bool) (a b : Num × Nat) : Num :=
  let p := numMul a.1 b.1
  if !mx then p
  else if a.2 = 255 ∨ b.2 = 255 then .nan
  else match p with
    | .fin s m e => numOf (f32Of (.fin s m (e + a.2 + b.2 - 254)))
    | x => x

/-- FP32 by truncation (R213). -/
def f32Trunc (x : Num) : Word :=
  match x with
  | .fin s m e => if m = 0 then 0#32 else packF .zero s m e
  | y => f32Of y

/-- A sum formed in the array is never −0 (R192; log 108). -/
def posZero (w : Word) : Word := if isZero w then 0#32 else w

/-- Groups of 64 products summed exactly, truncated, and added in order, truncated (R213). -/
def akSum : Nat → List Num → Word → Word
  | 0, _, acc => acc
  | n + 1, ps, acc =>
    if ps.isEmpty then acc else
      let g := posZero (flushSub true (f32Trunc ((ps.take 64).foldl numAdd (.fin false 0 0))))
      akSum n (ps.drop 64) (posZero (flushSub true (f32Trunc (numAdd (numOf acc) (numOf g)))))

/-- The sum of an output element of a pass (R117, R192, R213). -/
def passSum (ak mx : Bool) (a b : List (Num × Nat)) : Word :=
  let ps := List.zipWith (product mx) a b
  if ak then akSum (ps.length / 64 + 1) ps 0#32 else ps.foldl (fun acc p => posZero (f32Of (numAdd (numOf acc) p))) 0#32

/-- Segment r of streamed row m (R119, R122). -/
def Tile.streamSeg (x : Tile) (w : TileWord) (m r : Nat) : Nat :=
  let base := tf w 95 71
  let ring := tf w 53 39
  let k := m + r
  let wrap := fun (l : Nat) => if ring = 0 then l else l % ring
  if wideSeg (tf w 119 116) then x.store.readLE (base + lineBytes * wrap k + 4 * r) 3
  else x.store.readLE (base + lineBytes * wrap (k / 2) + 4 * r + 2 * (k % 2)) 2

/-- The scales of streamed row m lie from this address (R121, R122). -/
def streamScale (w : TileWord) (m : Nat) : Nat :=
  let ring := tf w 53 39
  tf w 31 7 + 32 * (if ring = 0 then m else if wideSeg (tf w 119 116) then m % ring else m % (2 * ring))

/-- The elements of streamed rows lo to lo + n - 1 (R119, R121). -/
def Tile.streamRows (x : Tile) (ak : Bool) (w : TileWord) (lo n : Nat) : List (List (Num × Nat)) :=
  (List.range n).map (fun i => elemsOf ak (tf w 119 116) ((List.range 192).map (fun r => x.streamSeg w (lo + i) r))
    (fun b => (x.store.read (streamScale w (lo + i) + b)).toNat))

/-- The products of rows lo to lo + n - 1 of a pass, 192 columns each (R117). -/
def Tile.blockSums (x : Tile) (ak : Bool) (p : Pass) (lo n : Nat) : List (List Word) :=
  let mx := isMx (tf p.word 119 116)
  let cols := (List.range 192).map (fun c => p.set.row ak c)
  (x.streamRows ak p.word lo n).map (fun row => cols.map (fun c => passSum ak mx row c))

/-- Tolerance fields of TILE_MX_TOL (R137): fraction and exponent for rows or columns, absolute exponent. -/
def tolOf (tol : Nat) (col : Bool) : Nat × Nat × Nat :=
  (if col then fld tol 20 4 else fld tol 16 4, clampNat 8 24 (if col then fld tol 8 8 else fld tol 0 8), clampNat 64 126 (fld tol 24 8))

/-- a < b for magnitudes of finite values. -/
def magLt (a b : Num) : Bool :=
  match a, b with
  | .fin _ m e, .fin _ n f => decide (scaleTo m e (min e f) < scaleTo n f (min e f))
  | _, _ => false

/-- A check fails (R137). -/
def checkFails (k : CheckSum) (tol : Nat) (col : Bool) : Bool :=
  let (frac, exp, absE) := tolOf tol col
  let d := numAdd (numOf k.actual) (numNeg (numOf k.expected))
  let bound := match numOf k.magnitude with
    | .fin _ m e => numAdd (.fin false (m * (16 + frac)) (e - 4 - (exp : Int))) (.fin false 1 (-(absE : Int)))
    | x => x
  magLt bound d

/-- A check is skipped (R139). -/
def checkSkipped (k : CheckSum) : Bool := !(isFinite k.actual && isFinite k.expected && isFinite k.magnitude)

def Matrix.modPass (m : Matrix) (id : Nat) (f : Pass → Pass) : Matrix := { m with passes := m.passes.map (fun p => if p.id = id then f p else p) }

/-- An FP32 sum of products, in ascending order (R136; log 101). -/
def dotF32 (a b : List Word) : Word := (List.zipWith fmul a b).foldl fadd 0#32

/-- The sums of one check: those of a fault of the checksum path, or those formed (R136). -/
def checkOf (faults : List (Nat × CheckSum)) (i : Nat) (formed : CheckSum) : CheckSum := ((faults.find? (fun f => f.1 == i)).map (fun f => f.2)).getD formed

/-- The checksum row over the streamed rows of a block: ā and ā_abs by K element (R114, R136). -/
def checkRow (n : Nat) (rows : List (List Word)) : List Word × List Word := (sumRows n rows, sumRows n (rows.map (fun r => r.map fabs)))

/-- The row checks of a block: streamed rows `rows` as FP32, the product formed of them, the checksum column of the set (R136). -/
def rowChecks (set : StatSet) (rows sums : List (List Word)) (faults : List (Nat × CheckSum)) : List CheckSum :=
  let n := 192 * packOf set.fmt
  let sig := (List.range n).map (fun k => set.sigma.get 0#32 k)
  let abs := (List.range n).map (fun k => set.sigmaAbs.get 0#32 k)
  rows.zipIdx.map (fun r => checkOf faults r.2
    { actual := (sums.getD r.2 []).foldl fadd 0#32, expected := dotF32 r.1 sig, magnitude := dotF32 (r.1.map fabs) abs })

/-- The column checks of a block, with its checksum row (R136). -/
def colChecks (ak : Bool) (set : StatSet) (bar : List Word × List Word) (sums : List (List Word)) (faults : List (Nat × CheckSum)) : List CheckSum :=
  (List.range 192).map (fun c => checkOf faults c (
    let col := (set.row ak c).map (elemF32 (isMx set.fmt))
    { actual := sums.foldl (fun acc r => fadd acc (r.getD c 0#32)) 0#32, expected := dotF32 bar.1 col, magnitude := dotF32 bar.2 (col.map fabs) }))

/-- One run of a block (R136, R140): the product, the row checks, the column checks, the checksum row. -/
structure BlockRun where
  product : List (List Word)
  rows : List CheckSum
  cols : List CheckSum
  bar : List Word × List Word

/-- Runs block b of a pass on the operands that tile x holds, with the faults observed (R117, R136). -/
def Tile.runBlock (x : Tile) (ak : Bool) (p : Pass) (b : Nat) (obs : CheckObs) : BlockRun :=
  let n := blockRows p.word b
  let rows := (x.streamRows ak p.word (512 * b) n).map (fun r => r.map (elemF32 (isMx (tf p.word 119 116))))
  let sums := obs.faulty.getD (x.blockSums ak p (512 * b) n)
  let bar := checkRow (192 * packOf p.set.fmt) rows
  { product := sums, rows := rowChecks p.set rows sums obs.rows, cols := colChecks ak p.set bar sums obs.cols, bar := bar }

/-- A check of a run fails at the tolerances of a pass (R137, R139). -/
def BlockRun.fails (r : BlockRun) (tol : Nat) : Bool :=
  r.rows.any (fun k => !checkSkipped k && checkFails k tol false) || r.cols.any (fun k => !checkSkipped k && checkFails k tol true)

/-- The checks of a run that R139 skips. -/
def BlockRun.skipped (r : BlockRun) : Nat := ((r.rows ++ r.cols).filter checkSkipped).length

/-- BLOCK_CHECK_DONE: the next block of the oldest pass that has one is formed and checked; a failed check starts a vote
(R136 to R140). -/
def State.blockCheck (s : State) (t : Nat) (obs : CheckObs) : State :=
  let x := s.tile t
  if x.mx.vote.isSome then s else
    match x.mx.passes.find? (fun p => decide (p.checked < passBlocks p.word)) with
    | none => s
    | some p =>
      let r := (x.seenBy p.id s.raceCoin).runBlock (s.tileAk6 t) p p.checked obs
      ((((s.countTile t 3 (blockRows p.word p.checked)).countTile t 4 1).countTile t 0x12 r.skipped).modMx t (fun m =>
        let m1 := { m with blocks := m.blocks + 1#64, skipped := satAdd 65535 m.skipped r.skipped, bar := r.bar.1, barAbs := r.bar.2 }
        if r.fails p.tol then { m1 with mismatch := satAdd 65535 m.mismatch 1, vote := some ⟨p.id, p.checked, r.product⟩ }
        else m1.modPass p.id (fun p => { p with checked := p.checked + 1, sums := p.sums ++ [r.product] }))).drew x p.id

/-- BLOCK_CHECK_DONE (R136). -/
def execBlockCheckDone (t : TileId) (obs : CheckObs) (s : State) : Host.Outcome State Fault Refusal := .next (s.blockCheck t obs)

def accIndex (a copy row col : Nat) : Nat := ((2 * a + copy) * 512 + row) * 192 + col

/-- The committed copy of a row (R125). -/
def Matrix.copyOf (m : Matrix) (a row : Nat) : Nat := b2n (m.sel.get false (512 * a + row))
def Matrix.committed (m : Matrix) (a row col : Nat) : Word := m.acc.get 0#32 (accIndex a (m.copyOf a row) row col)

/-- Writes a row into the copy that is not committed and flips the selector (R126). -/
def Matrix.commitRow (m : Matrix) (a row : Nat) (vs : List Word) : Matrix :=
  let k := 1 - m.copyOf a row
  { m with
    acc := vs.zipIdx.foldl (fun (t : Tab Word) v => t.set (accIndex a k row v.2) v.1) m.acc
    sel := m.sel.set (512 * a + row) (k == 1) }

/-- What a pass writes for one row: its sums added to zero or to the committed copy, or subtracted (R126, R192, R213). -/
def Matrix.accumulate (m : Matrix) (ak : Bool) (w : TileWord) (row : Nat) (sums : List Word) : List Word :=
  let a := tf w 111 108
  sums.zipIdx.map (fun v =>
    let base := if tf w 115 115 = 1 then 0#32 else m.committed a row v.2
    posZero (flushSub ak (if tf w 112 112 = 1 then fsub base v.1 else fadd base v.1)))

/-- PASS_COMMIT: the oldest pass, if it is no stream pass and all its checks have passed (R126). -/
def State.passCommit (s : State) (t : Nat) : State :=
  match (s.tile t).mx.passes with
  | [] => s
  | p :: rest =>
    if p.armed.isSome ∨ p.checked < passBlocks p.word then s else
      let w := p.word
      let ak := s.tileAk6 t
      let rows := (p.sums.flatten).zipIdx
      (s.modMx t (fun m => rows.foldl (fun (m : Matrix) r =>
        m.commitRow (tf w 111 108) (tf w 107 99 + r.2) (m.accumulate ak w (tf w 107 99 + r.2) r.1)) { m with passes := rest })).complete1 t p.id

/-- PASS_COMMIT (R126). -/
def execPassCommit (t : TileId) (s : State) : Host.Outcome State Fault Refusal := .next (s.passCommit t)

/-- The oldest pass, and the scoreboard before the oldest pass or queued matrix instruction, that number n and later ones are (R143). -/
def Matrix.firstFrom (m : Matrix) (n : Nat) : Option Pass := m.passes.find? (fun p => decide (n ≤ p.id))
def Matrix.scoreFrom (m : Matrix) (n : Nat) : Word :=
  match m.firstFrom n, m.queue.find? (fun q => decide (n ≤ q.id)) with
  | some p, some q => if p.id < q.id then p.scoreBefore else q.before
  | some p, none => p.scoreBefore
  | none, some q => q.before
  | none, none => m.score

/-- Passes and queued matrix instructions from number n on are discarded: nothing of them commits, the active set is that of the first
discarded pass, a shadow set of theirs is discarded, and the scoreboard is as before the first issued (R127, R143). -/
def Matrix.dropFrom (m : Matrix) (n : Nat) : Matrix :=
  { m with
    passes := m.passes.filter (fun p => decide (p.id < n))
    queue := m.queue.filter (fun q => decide (q.id < n))
    active := (m.firstFrom n).elim m.active (fun p => p.set)
    shadow := m.shadow.filter (fun h => decide (h.id < n))
    vote := m.vote.filter (fun v => decide (v.pass < n))
    score := m.scoreFrom n }

/-- The instructions of a tile from number n on that have not started, and its passes from there on, are discarded (R98, R143). -/
def Tile.dropFrom (x : Tile) (n : Nat) : Tile :=
  let gone := (x.mx.passes.map (fun p => p.id) ++ x.mx.queue.map (fun q => q.id) ++ (x.vec.filter (fun v => !v.started)).map (fun v => v.id)
    ++ (x.dma.filter (fun d => !d.started)).map (fun d => d.id) ++ x.prep.map (fun p => p.id)).filter (fun i => decide (n ≤ i))
  { x with
    mx := x.mx.dropFrom n
    vec := x.vec.filter (fun v => v.started || decide (v.id < n))
    dma := x.dma.filter (fun d => d.started || decide (d.id < n))
    prep := x.prep.filter (fun p => decide (p.id < n))
    tags := x.tags.filter (fun g => !g.id.any gone.contains)
    seq := { x.seq with busy := x.seq.busy.filter (fun b => !gone.contains b.1) } }

/-- A fault of a pass discards it and every later one, and with them what was issued after it and has not started (R127, R143). -/
def State.discardFrom (s : State) (t : Nat) (p : Pass) : State := s.modTile t (fun x => x.dropFrom p.id)

/-- A fault of an instruction that has issued as number `id`: what was issued after it and has not started, and the passes among it, are
discarded; what was issued before it runs to its end (R98, R143; log 28). -/
def State.faultOf (s : State) (t id : Nat) (code : Half) (at? : Option Nat) : State := (s.modTile t (fun x => x.dropFrom id)).fault t code at?

end Sys2Proof.Machine
end

