-- ==== Sys2Proof/Machine/Drain.lean ====
section
/-!
DEFINITION. The drain (R129, R132 to R135, R213), MCLEAR, MSTAT and the debug accesses to accumulators (R130, R144).
-/
namespace Sys2Proof.Machine

/-- The fields of an MDRAIN (R133, R134, R145, R190, R215). -/
def mdrainLegal (ak : Bool) (w : TileWord) : Legal :=
  let arm := tf w 115 115 == 1
  let skew := tf w 113 113 == 1
  let f := tf w 119 116
  let n := tf w 98 89
  let epi := tf w 55 31
  legal (decide (5 < f) || (arm && tf w 114 114 == 1) || (tf w 112 112 == 1 && (f == 0 || ak)) || (!arm && decide (512 < tf w 107 99 + n))
      || (!arm && decide (512 < n)) || decide (6 < tf w 88 84) || tf w 81 81 != 0 || tf w 80 56 % (if skew then lineBytes else 4) != 0
      || (skew && f == 0) || epi % 16 != 0 || tf w 30 29 == 3 || decide (2 ≤ tf w 28 27) || tf w 26 15 == 4095 || tf w 10 9 == 3
      || tf w 4 3 == 3 || tf w 2 0 != 0)
    (!arm && n == 0)
    ((if arm then decide (storeBytes ≤ tf w 80 56) else !inStore (tf w 80 56) (drainSpan w n)) || decide (storeBytes ≤ epi)
      || (tf w 30 29 == 1 && !inStore epi 4) || (tf w 30 29 == 2 && !inStore epi 768) || (tf w 28 27 == 1 && !inStore epi 1536)
      || (tf w 112 112 == 1 && !inStore epi 1552))

/-- MDRAIN at its issue (R129 to R131). -/
def issueMdrain (t : Nat) (s : State) (a : Nat) (w : TileWord) : Issued :=
  let x := s.tile t
  let m := x.mx
  let acc := tf w 111 108
  let arm := tf w 115 115 == 1
  let st := m.state acc
  let others := (accNames w).drop 1
  match mdrainLegal (s.tileAk6 t) w with
  | .bad c => .fault c
  | .zero => .go s
  | .ok =>
    if x.seq.armed.isSome then .fault scAccOrder
    else if (if arm then st == 1 else decide (st < 2)) || others.any (fun b => decide (m.state b < 2)) then .fault scAccOrder
    else if (if arm then m.drainOn acc else st == 2 && m.passOn acc) || others.any (fun b => m.state b == 2 && m.passOn b) then .hold
    else if !x.mxRoom then .stay 1
    else if arm then
      let (s1, id) := s.number t 1
      .go (s1.modSeq t (fun q => { q with armed := some (id, w) }))
    else .go ((s.modMx t (fun m => m.setState acc 3)).enqueue t 1 a w m.score none)

/-- MDRAIN (R132). -/
def execMdrain (t : TileId) (k : Nat) (s : State) : Host.Outcome State Fault Refusal := .next (s.issue t k 1 3 (issueMdrain t))

/-- One value combined with a further tile: + or − its committed value, or unused (R133). -/
def combine (coef : Nat) (v b : Word) : Word := if coef = 1 then fadd v b else if coef = 2 then fsub v b else v

/-- The values of one drained row after activation (R133): committed row `row`. -/
def Tile.drainRow (x : Tile) (w : TileWord) (row : Nat) : List Word :=
  let m := x.mx
  let epi := tf w 55 31
  let f32 := fun (a : Nat) => word (x.store.readLE a 4)
  (List.range 192).map (fun n =>
    let v := combine (tf w 4 3) (combine (tf w 10 9) (m.committed (tf w 111 108) row n) (m.committed (tf w 14 11) row n)) (m.committed (tf w 8 5) row n)
    let v := match tf w 30 29 with
      | 1 => fmul v (f32 epi)
      | 2 => fmul v (f32 (epi + 4 * n))
      | _ => v
    let v := if tf w 28 27 = 1 then fadd v (f32 (epi + 768 + 4 * n)) else v
    activation (tf w 88 84) v)

/-- Conversion to an output format of a drain or output stream: 0 FP32, 1 BF16, 2 FP16, 3 E4M3, 4 E5M2, 5 INT8 (R133, R186, R213). -/
def convOut (f : Nat) (rnd : Rnd) (ak : Bool) (v : Word) : Conv :=
  match f with
  | 0 => if ak && isNan v then { code := 0x7FC00000 + b2n (signOf v) * 2 ^ 31, nonfin := true } else convF32 v
  | 1 => convFmt fmtBf16 rnd ak v
  | 2 => convFmt fmtFp16 rnd ak v
  | 3 => convFmt fmtE4m3 rnd ak v
  | 4 => convFmt fmtE5m2 rnd ak v
  | _ => convF32Int8 rnd v

/-- Rounding of element (column n, output row j) of a drain (R133, R191). -/
def Tile.drainRnd (x : Tile) (w : TileWord) (n j : Nat) : Rnd :=
  if tf w 112 112 = 0 then .nearest else
    let k := tf w 55 31 + 1536
    .stochastic (philox (x.store.readLE k 4) (x.store.readLE (k + 4) 4) (n, j, x.store.readLE (k + 8) 4, x.store.readLE (k + 12) 4)).1

/-- What a drain leaves: the bytes it writes, its overflowed elements, and its statistics record. -/
structure Drained where
  writes : List (Nat × List Byte) := []
  count : Nat := 0
  nonfin : Bool := false
  sat : Bool := false

/-- Drains rows row0 … of the accumulator as output rows j0 … (R133, R134). -/
def Tile.drainRows (x : Tile) (ak : Bool) (w : TileWord) (row0 j0 n : Nat) : Drained × List Word :=
  let f := tf w 119 116
  let size := ofmtSize f
  let dst := tf w 80 56
  let stride := if tf w 26 15 = 0 then 192 * size else 4 * tf w 26 15
  let rows := (List.range n).map (fun i => (i, x.drainRow w (row0 + i)))
  let convs := rows.map (fun r => (j0 + r.1, r.2.zipIdx.map (fun v => (v.2, convOut f (x.drainRnd w v.2 (j0 + r.1)) ak v.1))))
  let all := (convs.map (fun r => r.2.map (fun c => c.2))).flatten
  let bad := all.filter (fun c => c.sat || c.nonfin)
  ({ writes := (convs.map (fun r =>
        if tf w 113 113 = 1 then r.2.map (fun c => (skewAddr dst (if size = 2 then 1 else 2) r.1 c.1, leBytes size c.2.code))
        else [(dst + r.1 * stride, (r.2.map (fun c => leBytes size c.2.code)).flatten)])).flatten
     count := bad.length
     nonfin := bad.any (fun c => c.nonfin)
     sat := bad.any (fun c => c.sat) }, (rows.map (fun r => r.2)).flatten)

/-- One value into a statistics record (R135). -/
def StatRec.take (r : StatRec) (x : Word) : StatRec :=
  if !isFinite x then { r with nonfinite := r.nonfinite + 1#32 } else
    let count := r.count + 1#32
    let delta := fsub x r.mean
    let mean := fadd r.mean (fdiv delta (f32OfInt (count.toNat : Int)))
    { r with
      count := count
      sum := fadd r.sum x
      sumSq := fadd r.sumSq (fmul x x)
      mean := mean
      m2 := fadd r.m2 (fmul delta (fsub x mean))
      maxAbs := fmax r.maxAbs (fabs x) }

/-- The 32 bytes of a statistics record (R135). -/
def StatRec.bytes (r : StatRec) : List Byte :=
  leBytes 4 r.count.toNat ++ leBytes 4 r.nonfinite.toNat ++ leBytes 4 r.sum.toNat ++ leBytes 4 r.sumSq.toNat ++ leBytes 4 r.mean.toNat
    ++ leBytes 4 r.m2.toNat ++ leBytes 4 r.maxAbs.toNat ++ leBytes 4 0

/-- A queued MSTAT may write its record: every earlier drain into it has finished (R135). -/
def Matrix.statReady (m : Matrix) (before : List MxOp) (q : MxOp) : Bool :=
  let rec_ := tf q.word 111 110
  top q.word == 5 && !m.drains.any (fun d => isStats d.word && tf d.word 83 82 == rec_)
    && !before.any (fun b => (isStats b.word && tf b.word 83 82 == rec_) || (top b.word == 5 && tf b.word 111 110 == rec_))

/-- The first element of a queue that satisfies p with the elements before it. -/
def firstWith (p : List α → α → Bool) : List α → List α → Option α
  | _, [] => none
  | before, q :: qs => if p before q then some q else firstWith p (before ++ [q]) qs

/-- Every queued MSTAT that may writes its record, in order (R135). The fuel is the queue's length. -/
def State.statPump : Nat → State → Nat → State
  | 0, s, _ => s
  | n + 1, s, t =>
    match firstWith (s.tile t).mx.statReady [] (s.tile t).mx.queue with
    | none => s
    | some q =>
      let i := tf q.word 111 110
      let r := (s.tile t).mx.stats.get {} i
      let s1 := s.modTile t (fun x => x.write (tf q.word 95 71) r.bytes)
      State.statPump n ((s1.modMx t (fun m => { m with
        queue := m.queue.erase q
        stats := if tf q.word 109 109 = 1 then m.stats.set i {} else m.stats })).complete1 t q.id) t

/-- MSTATs are taken up unless a YIELD, a slice or the program's end keeps them queued (R135, R156). -/
def State.pumpStats (s : State) (t : Nat) : State := if s.starts t then State.statPump 8 s t else s

/-- A queued drain, MACCR or MACCW may start (R129, R132). -/
def Matrix.drainMay (m : Matrix) (before : List MxOp) (q : MxOp) : Bool :=
  let debug := fun (w : TileWord) => top w == 6 || top w == 7
  let free := !m.passes.any (fun p => p.armed.isSome && decide (p.id < q.id)) && !before.any (fun b => b.armed.isSome)
  let drainish := fun (w : TileWord) => top w == 3 || top w == 5 || debug w
  if debug q.word then free && m.drains.isEmpty && !before.any (fun b => drainish b.word)
  else top q.word == 3 && free && !m.drains.any (fun d => debug d.word || isStats d.word == isStats q.word)
    && !before.any (fun b => debug b.word || (top b.word == 3 && isStats b.word == isStats q.word)
      || (isStats q.word && top b.word == 5 && tf b.word 111 110 == tf q.word 83 82))
    && !(isStats q.word && m.drains.any (fun d => d.all))

/-- A drain that a stream pass in flight waits for starts even where queued instructions no longer do, since the pass runs to its commit
(R132, R143; log 103). -/
def State.drainsOut (s : State) (t : Nat) (q : MxOp) : Bool := s.works t && (s.tile t).mx.passes.any (fun p => p.armed.isSome && decide (q.id < p.id))

/-- DRAIN_START: the first that may; a sum drain's channels are fixed (R132). -/
def State.drainStart (s : State) (t : Nat) : State :=
  let m := (s.tile t).mx
  match (firstWith m.drainMay [] m.queue).filter (fun q => s.starts t || s.drainsOut t q) with
  | none => s
  | some q => s.modMx t (fun m =>
      let m1 : Matrix := { m with queue := m.queue.erase q, drains := m.drains ++ [⟨q.id, q.word, !isStats q.word && m.drains.isEmpty, none⟩] }
      if s.starts t then m1.startLoad else m1)

/-- DRAIN_START (R132). -/
def execDrainStart (t : TileId) (s : State) : Host.Outcome State Fault Refusal := .next (s.drainStart t)

/-- A write list reaches a protected line (R123). -/
def Tile.guardedAny (x : Tile) (ws : List (Nat × List Byte)) : Bool := ws.any (fun w => x.guarded w.1 w.2.length)

/-- Ends a running drain, MACCR or MACCW. -/
def State.drainEnd (s : State) (t id : Nat) : State := ((s.modMx t (fun m => { m with drains := m.drains.filter (fun d => d.id != id) })).complete1 t id).pumpStats t

/-- DRAIN_COMPLETE of an MDRAIN: writes its rows, takes its statistics, reports its overflow; a write into a protected line waits
(R123, R133 to R135). With AK6 the rows of a drain with STATS are converted as those of any drain (R213; log 127). -/
def State.drainDone (s : State) (t : Nat) (d : Drain) : State :=
  let x := s.tile t
  let w := d.word
  let (r, vs) := (x.seenBy d.id s.raceCoin).drainRows (s.tileAk6 t) w (tf w 107 99) 0 (tf w 98 89)
  if x.guardedAny r.writes then s else
    let s1 := (s.modTile t (fun x => x.writeBy d.id s.raceCoin r.writes)).drew x d.id
    let s2 := if isStats w then s1.modMx t (fun m => { m with stats := m.stats.mod {} (tf w 83 82) (fun q => vs.foldl StatRec.take q) }) else s1
    (((s2.countTile t 8 (tf w 98 89)).countTile t 0xB r.count).reportOverflow t r.count r.nonfin r.sat).drainEnd t d.id

/-- DRAIN_COMPLETE of an armed drain whose stream pass has committed: it writes what waited for protected lines (R123, R129). -/
def State.armedDone (s : State) (t : Nat) (d : Drain) (ws : List (Nat × List Byte)) : State :=
  if (s.tile t).guardedAny ws then s else ((s.modTile t (fun x => x.writeBy d.id s.raceCoin ws)).drew (s.tile t) d.id).drainEnd t d.id

/-- MACCR and MACCW (R144). -/
def State.debugDone (s : State) (t : Nat) (d : Drain) : State :=
  let x := s.tile t
  let w := d.word
  let a := tf w 111 108
  let addr := tf w 80 56
  let rows := List.range (tf w 98 89)
  if top w = 6 then
    let ws := rows.map (fun i => (addr + 768 * i, ((List.range 192).map (fun n => leBytes 4 (x.mx.committed a (tf w 107 99 + i) n).toNat)).flatten))
    if x.guardedAny ws then s else ((s.modTile t (fun x => x.writeBy d.id s.raceCoin ws)).drew x d.id).drainEnd t d.id
  else
    let y := x.seenBy d.id s.raceCoin
    ((s.modMx t (fun m => { m with acc := rows.foldl (fun (tb : Tab Word) i =>
      (List.range 192).foldl (fun (tb : Tab Word) n =>
        tb.set (accIndex a (m.copyOf a (tf w 107 99 + i)) (tf w 107 99 + i) n) (word (y.store.readLE (addr + 768 * i + 4 * n) 4))) tb) m.acc })).drew x d.id).drainEnd t d.id

/-- A running drain's writes wait for protected lines (R123). -/
def Tile.drainBlocked (x : Tile) (d : Drain) : Bool := d.addrs.any (fun a => x.guarded a.1 a.2)

/-- DRAIN_COMPLETE: of the statistics drain, or of the sum drain, MACCR or MACCW that runs, the oldest whose writes wait for nothing
(R123, R132, R133). -/
def State.drainComplete (s : State) (t : Nat) (stats : Bool) : State :=
  match (s.tile t).mx.drains.find? (fun d => isStats d.word == stats && !(s.tile t).drainBlocked d) with
  | none => s
  | some d =>
    (match d.left with
    | some ws => s.armedDone t d ws
    | none => if top d.word = 3 then s.drainDone t d else s.debugDone t d)

/-- DRAIN_COMPLETE (R133). -/
def execDrainComplete (t : TileId) (stats : Bool) (s : State) : Host.Outcome State Fault Refusal := .next (s.drainComplete t stats)

/-- The writes of a list that reach no protected line, up to the first that does, and those that wait (R123). -/
def Tile.splitWrites (x : Tile) (ws : List (Nat × List Byte)) : List (Nat × List Byte) × List (Nat × List Byte) :=
  ws.span (fun w => !x.guarded w.1 w.2.length)

/-- A drain issued before instruction `id` still comes before it: one that runs and does not wait for protected lines, or one that may start.
One whose writes wait for the lines of this very pass is not waited for (R123, R132). -/
def Tile.drainsAhead (x : Tile) (id : Nat) : Bool :=
  x.mx.drains.any (fun d => !x.drainBlocked d) || (firstWith x.mx.drainMay [] x.mx.queue).any (fun q => decide (q.id < id))

/-- STREAM_BLOCK_COMMIT: the next block of the oldest pass commits into copy b mod 2 and the armed drain drains it; with the final
block the pass ends and its tile is Drained (R129, R130). Output that reaches a protected line waits without holding the pass; what still
waits at the pass's end is the drain's to finish (R123). -/
def State.streamCommit (s : State) (t : Nat) : State :=
  let x := s.tile t
  match x.mx.passes with
  | [] => s
  | p :: rest =>
    match p.armed, p.sums with
    | some (id, dw), sums :: more =>
      let b := p.committed
      let a := tf p.word 111 108
      let ak := s.tileAk6 t
      if x.drainsAhead p.id then s
      else
        let m1 := sums.zipIdx.foldl (fun (m : Matrix) r =>
          { m with
            acc := (m.accumulate ak p.word r.2 r.1).zipIdx.foldl (fun (tb : Tab Word) v => tb.set (accIndex a (b % 2) r.2 v.2) v.1) m.acc
            sel := m.sel.set (512 * a + r.2) (b % 2 == 1) }) x.mx
        let (r, _) := Tile.drainRows { x.seenBy p.id s.raceCoin with mx := m1 } ak dw 0 (512 * b) (blockRows p.word b)
        let last := b + 1 == passBlocks p.word
        let m2 := if last then Matrix.setState { m1 with passes := rest } a 3
          else { m1 with passes := { p with sums := more, committed := b + 1 } :: rest }
        let (now, later) := Tile.splitWrites { x with mx := m2 } (p.waiting ++ r.writes)
        let m3 : Matrix := if !last then { m2 with passes := { p with sums := more, committed := b + 1, waiting := later } :: rest }
          else if later.isEmpty then m2 else { m2 with drains := m2.drains ++ [⟨id, dw, true, some later⟩] }
        let s0 := ((s.modTile t (fun x => Tile.writeBy { x with mx := m3 } p.id s.raceCoin now)).drew x p.id).countTile t 8 (blockRows p.word b)
        let s1 := (s0.countTile t 0xB r.count).reportOverflow t r.count r.nonfin r.sat
        if !last then s1 else if later.isEmpty then (s1.complete1 t p.id).complete1 t id else s1.complete1 t p.id
    | _, _ => s

/-- STREAM_BLOCK_COMMIT (R129). -/
def execStreamBlockCommit (t : TileId) (s : State) : Host.Outcome State Fault Refusal := .next (s.streamCommit t)

/-- The fields of an MCLEAR (R145). -/
def mclearLegal (w : TileWord) : Legal := legal (tf w 119 112 != 0 || tf w 95 0 != 0) (tf w 111 96 == 0) false

/-- MCLEAR at its issue: its tiles become Idle and zero (R130). -/
def issueMclear (t : Nat) (s : State) (_ : Nat) (w : TileWord) : Issued :=
  let m := (s.tile t).mx
  let ts := accNames w
  match mclearLegal w with
  | .bad c => .fault c
  | .zero => .go s
  | .ok =>
    if ts.any (fun a => m.state a == 1) then .fault scAccOrder
    else if ts.any (fun a => decide (2 ≤ m.state a) && (m.passOn a || m.drainOn a)) then .hold
    else if !(s.tile t).mxRoom then .stay 1
    else .go (s.modMx t (fun m => { ts.foldl (fun (m : Matrix) a => m.setState a 0) m with
      acc := m.acc.filter (fun (e : Nat × Word) => !ts.contains (e.1 / 196608)) }))

/-- MCLEAR (R130). -/
def execMclear (t : TileId) (k : Nat) (s : State) : Host.Outcome State Fault Refusal := .next (s.issue t k 1 4 (issueMclear t))

/-- The fields of an MSTAT (R145). -/
def mstatLegal (w : TileWord) : Legal :=
  legal (tf w 119 112 != 0 || tf w 108 96 != 0 || tf w 95 71 % 32 != 0 || tf w 70 0 != 0) false (!inStore (tf w 95 71) 32)

/-- MSTAT at its issue (R135). -/
def issueMstat (t : Nat) (s : State) (a : Nat) (w : TileWord) : Issued :=
  match mstatLegal w with
  | .bad c => .fault c
  | _ => if (s.tile t).mxRoom then .go ((s.enqueue t 1 a w (s.tile t).mx.score none).pumpStats t) else .stay 1

/-- MSTAT (R135). -/
def execMstat (t : TileId) (k : Nat) (s : State) : Host.Outcome State Fault Refusal := .next (s.issue t k 1 5 (issueMstat t))

/-- The fields of a MACCR or MACCW; they are legal only with DEBUG (R144, R145). -/
def debugLegal (debug : Bool) (w : TileWord) : Legal :=
  legal (!debug || tf w 119 112 != 0 || tf w 88 81 != 0 || tf w 55 0 != 0 || tf w 80 56 % 4 != 0 || decide (512 < tf w 98 89)
      || decide (512 < tf w 107 99 + tf w 98 89)) (tf w 98 89 == 0) (!inStore (tf w 80 56) (768 * tf w 98 89))

/-- The run of a tile has DEBUG set (R98). -/
def State.debugRun (s : State) (t : Nat) : Bool := (s.tileRun t).any (fun x => x.2.debug)

/-- MACCR at its issue (R130, R144). -/
def issueMaccr (t : Nat) (s : State) (a : Nat) (w : TileWord) : Issued :=
  let m := (s.tile t).mx
  let acc := tf w 111 108
  match debugLegal (s.debugRun t) w with
  | .bad c => .fault c
  | .zero => .go s
  | .ok =>
    if (m.state acc == 1 && m.anyPass) || (m.state acc == 2 && m.passOn acc) then .hold
    else if !(s.tile t).mxRoom then .stay 1
    else .go (s.enqueue t 1 a w m.score none)

/-- MACCR (R144). -/
def execMaccr (t : TileId) (k : Nat) (s : State) : Host.Outcome State Fault Refusal := .next (s.issue t k 1 6 (issueMaccr t))

/-- MACCW at its issue (R130, R144). -/
def issueMaccw (t : Nat) (s : State) (a : Nat) (w : TileWord) : Issued :=
  let m := (s.tile t).mx
  let acc := tf w 111 108
  match debugLegal (s.debugRun t) w with
  | .bad c => .fault c
  | .zero => .go s
  | .ok =>
    if m.state acc = 1 then .fault scAccOrder
    else if !(s.tile t).mxRoom then .stay 1
    else .go ((s.modMx t (fun m => m.setState acc 2)).enqueue t 1 a w m.score none)

/-- MACCW (R144). -/
def execMaccw (t : TileId) (k : Nat) (s : State) : Host.Outcome State Fault Refusal := .next (s.issue t k 1 7 (issueMaccw t))

end Sys2Proof.Machine
end

