-- ==== Sys2Proof/Machine/Vector.lean ====
section
/-!
DEFINITION. The vector engine (R158 to R168, R193, R213): launches, their programs, streams and reductions, and the norm tap.
-/
namespace Sys2Proof.Machine

/-- Lowest first byte and the end of the highest element over rows × elems (R166); `width` is the element width. -/
def Stream.span (x : Stream) (rows elems width : Nat) : Int × Int :=
  if x.skew then (x.addr, (x.addr : Int) + lineBytes * ((rows - 1 + (elems - 1) / max x.pack 1) / 2 + 1 : Nat))
  else
    let c := [x.at 0 0, x.at (rows - 1) 0, x.at 0 (elems - 1), x.at (rows - 1) (elems - 1)]
    (c.foldl min (x.at 0 0), c.foldl max (x.at 0 0) + (width : Int))

def spansMeet (a b : Int × Int) : Bool := decide (a.1 < b.2) && decide (b.1 < a.2)

/-- The fields of a VLAUNCH (R145, R158). -/
def vlaunchLegal (w : TileWord) : Legal :=
  legal (decide (16384 < tf w 119 105) || decide (65536 < tf w 104 88) || tf w 87 63 % 16 != 0 || tf w 62 38 % 64 != 0 || tf w 37 0 != 0)
    (tf w 119 105 == 0 || tf w 104 88 == 0) (!inStore (tf w 87 63) 20 || !inStore (tf w 62 38) 192)

/-- Entries of the vector queue: instructions that have not started (R146, R147). -/
def Tile.vecRoom (x : Tile) : Bool := decide ((x.vec.filter (fun v => !v.started)).length < 8)

/-- VLAUNCH at its issue. -/
def issueVlaunch (t : Nat) (s : State) (a : Nat) (w : TileWord) : Issued :=
  match vlaunchLegal w with
  | .bad c => .fault c
  | .zero => .go s
  | .ok =>
    if !(s.tile t).vecRoom then .stay 1 else
      let (s1, id) := s.number t 2
      .go (s1.modTile t (fun x => { x with vec := x.vec ++ [{ id := id, word := w, pc := a }] }))

/-- VLAUNCH (R158). -/
def execVlaunch (t : TileId) (k : Nat) (s : State) : Host.Outcome State Fault Refusal := .next (s.issue t k 2 1 (issueVlaunch t))

def ua (w : Word) : Nat := fld w.toNat 16 5
def ub (w : Word) : Nat := fld w.toNat 11 5
def uc (w : Word) : Nat := fld w.toNat 6 5
def uaux (w : Word) : Nat := fld w.toNat 0 6

/-- How many sources a micro-operation reads; none if it is not defined (R162). -/
def uArity (op : Nat) : Option Nat :=
  if op = 0x04 ∨ op = 0x14 then some 3
  else if (0x01 ≤ op ∧ op ≤ 0x03) ∨ (0x05 ≤ op ∧ op ≤ 0x07) ∨ (0x11 ≤ op ∧ op ≤ 0x13) ∨ (0x15 ≤ op ∧ op ≤ 0x1B) then some 2
  else if (0x08 ≤ op ∧ op ≤ 0x10) ∨ (0x1C ≤ op ∧ op ≤ 0x24) then some 1
  else none

/-- The sources a micro-operation reads. -/
def uSources (w : Word) : List Nat :=
  match uArity (uop w) with
  | some 3 => [ua w, ub w, uc w]
  | some 2 => [ua w, ub w]
  | _ => [ua w]

def isTap (w : Word) : Bool := uop w == 0x24

/-- One micro-operation is well formed by itself (R162, R163). -/
def uopOk (w : Word) : Bool :=
  match uArity (uop w) with
  | none => false
  | some n =>
    (decide (3 ≤ n) || uc w == 0) && (decide (2 ≤ n) || ub w == 0)
      && (if uop w = 0x1C ∨ uop w = 0x1D then decide (uaux w < 32) else uaux w == 0)
      && (if isReduce w then decide (18 ≤ ud w ∧ ud w ≤ 19) else if isTap w then decide (ud w < 8) else decide (ud w < 18))

/-- No t-register or output register is read before it is written (R163). -/
def readsWritten : List Word → List Nat → Bool
  | [], _ => true
  | w :: ws, done =>
    (uSources w).all (fun r => if r < 16 then done.contains r else if 30 ≤ r then done.contains (r - 14) else true)
      && readsWritten ws (if isReduce w || isTap w then done else ud w :: done)

/-- How often register or reduction d is a destination. -/
def destCount (prog : List Word) (red : Bool) (d : Nat) : Nat := (prog.filter (fun w => !isTap w && isReduce w == red && ud w == d)).length

/-- The header of a program block is not sound: NOPS or a reserved byte (R163). -/
def headerIllegal (hdr : List Byte) : Bool := recNat hdr 0 1 == 0 || decide (64 < recNat hdr 0 1) || (hdr.drop 1).any (fun b => b != 0#8)

/-- A launch's program breaks a rule of R163, R160, R161, R166, R190 or R215, or taps a slot of another name (R167). That an input and an
output overlap is judged by the bytes between the lowest and the highest element of each (R166; log 104). -/
def launchIllegal (ak : Bool) (taps : Tab TapSlot) (hdr param : List Byte) (prog : List Word) (rows elems : Nat) : Bool :=
  let st := streamOf param
  let ins := [0, 1, 2, 3]
  let outs := [4, 5]
  let red := st 6
  let tapId := fun (n : Nat) => recNat param (144 + 2 * n) 2
  let badStream := fun (i : Nat) =>
    let x := st i
    let e := (param.drop (16 * i)).take 16
    decide (2 ^ 25 ≤ x.addr) || !(decide (x.fmt ≤ 6) || x.fmt == 15) || decide (4 ≤ x.flags) || recNat e 12 4 != 0
      || (x.rnd && (decide (i < 4) || i == 6 || x.fmt == 0 || decide (6 ≤ x.fmt) || ak)) || (x.skew && (decide (i < 4) || i == 6))
      || (x.skew && (x.pack == 0 || x.addr % lineBytes != 0 || decide (192 * x.pack < elems) || x.stride != 0 || x.rowStride != 0))
  let used := fun (i : Nat) => (st i).used
  let aligned := fun (i : Nat) => let x := st i
    x.skew || (x.addr % x.size == 0 && (rows == 1 || x.rowStride % (x.size : Int) == 0))
  let redWide := if destCount prog true 19 = 0 then 4 else 8
  let outSpans := (outs.filter used).map (fun i => (i, (st i).span rows elems (st i).size)) ++ (if red.used then [(6, red.span rows 1 redWide)] else [])
  let same := fun (i o : Nat) => o != 6 && (st i).addr == (st o).addr && (st i).fmt == (st o).fmt && (st i).stride == (st o).stride
    && (st i).rowStride == (st o).rowStride && !(st o).skew
  headerIllegal hdr || (param.drop 160).any (fun b => b != 0#8)
    || prog.any (fun w => !uopOk w) || !readsWritten prog []
    || prog.any (fun w => (uSources w).any (fun r => decide (16 ≤ r ∧ r < 20) && !used (r - 16)))
    || outs.any (fun i => if used i then destCount prog false (i + 12) != 1 else destCount prog false (i + 12) != 0)
    || decide (1 < destCount prog true 18) || decide (1 < destCount prog true 19) || (prog.any isReduce && !red.used)
    || prog.any (fun w => isTap w && (tapId (ud w) == 0 || ((taps.get {} (ud w)).name.toNat != 0 && (taps.get {} (ud w)).name.toNat != tapId (ud w))))
    || (List.range 7).any badStream || (red.used && red.fmt != 0) || red.stride != 0
    || (ins ++ outs ++ [6]).any (fun i => used i && !aligned i)
    || ins.any (fun i => used i && outSpans.any (fun o => spansMeet ((st i).span rows elems (st i).size) o.2 && !same i o.1))

/-- An element of a used stream lies outside the store: beyond its end, or by a negative stride below its first byte (R159; log 105). ADDR of
an entry that its FMT leaves unused is not looked at (R118; log 126). -/
def launchOutside (param : List Byte) (prog : List Word) (rows elems : Nat) : Bool :=
  (List.range 7).any (fun i =>
    let x := streamOf param i
    let sp := if i = 6 then x.span rows 1 (if destCount prog true 19 = 0 then 4 else 8) else x.span rows elems x.size
    x.used && (decide (sp.1 < 0) || decide ((storeBytes : Int) < sp.2)))

/-- The spans that a launch's streams cover, and those of its outputs (R166). -/
def launchSpans (v : VecOp) (outOnly : Bool) : List (Int × Int) :=
  let rows := tf v.word 104 88
  let elems := tf v.word 119 105
  ((List.range 7).filter (fun i => (decide (4 ≤ i) || !outOnly) && (streamOf v.param i).used)).map (fun i =>
    (streamOf v.param i).span rows (if i = 6 then 1 else elems) (if i = 6 then 8 else (streamOf v.param i).size))

/-- VLAUNCH_START: the next launch reads its program and parameters and is checked; it waits for launches whose outputs it meets and for
a VTAP before it (R148, R163, R166, R168). -/
def State.vecStart (s : State) (t : Nat) : State :=
  let x := s.tile t
  match (if s.starts t then x.vec.find? (fun v => !v.started) else none) with
  | none => s
  | some v =>
    if top v.word ≠ 1 then s else
      let prog := tf v.word 87 63
      let y := x.seenBy v.id s.raceCoin
      let param := y.store.readN (tf v.word 62 38) 192
      let hdr := y.store.readN prog 16
      let n := min (recNat hdr 0 1) 64
      let ops := (List.range n).map (fun i => word (y.store.readLE (prog + 16 + 4 * i) 4))
      let rows := tf v.word 104 88
      let elems := tf v.word 119 105
      let v' := { v with started := true, param := param, prog := ops }
      let stop := fun (code : Half) => (((s.drew x v.id).modTile t (fun x => { x with vec := x.vec.erase v })).complete1 t v.id).faultOf t v.id code (some v.pc)
      if headerIllegal hdr then stop scIllegal
      else if !inStore prog (16 + 4 * n) then stop scStoreRange
      else if launchIllegal (s.tileAk6 t) x.taps hdr param ops rows elems then stop scIllegal
      else if launchOutside param ops rows elems then stop scStoreRange
      else if (x.vec.filter (fun u => u.started)).any (fun u => (launchSpans u true).any (fun a => (launchSpans v' false).any (fun b => spansMeet a b))) then s
      else (s.drew x v.id).modTile t (fun x => { x with
        vec := x.vec.map (fun u => if u.id = v.id then v' else u)
        taps := ops.foldl (fun (tb : Tab TapSlot) w => if isTap w then tb.mod {} (ud w) (fun p => { p with name := half (recNat param (144 + 2 * ud w) 2) }) else tb) x.taps })

/-- VLAUNCH_START (R166). -/
def execVlaunchStart (t : TileId) (s : State) : Host.Outcome State Fault Refusal := .next (s.vecStart t)

/-- The narrow format of a stream, if it has one (R159). -/
def streamFmt (fmt : Nat) : Option Fmt :=
  match fmt with
  | 1 => some fmtBf16
  | 2 => some fmtFp16
  | 3 => some fmtE4m3
  | 4 => some fmtE5m2
  | _ => none

/-- In AK6 mode a subnormal element of a stream's format is +0 (R213). -/
def akCode (ak : Bool) (fmt code : Nat) : Nat :=
  let m := if fmt = 0 then 23 else (streamFmt fmt).elim 0 (fun f => f.man)
  let b := if fmt = 0 then 32 else (streamFmt fmt).elim 0 (fun f => f.bits)
  if ak ∧ code % 2 ^ (b - 1) < 2 ^ m ∧ code % 2 ^ m ≠ 0 then 0 else code

/-- Conversion at read: FP formats to FP32, INT8 and INT32 to INT32 (R159, R213). -/
def streamIn (ak : Bool) (fmt code : Nat) : Word :=
  match streamFmt fmt with
  | some f => f32Of (f.decode (akCode ak fmt code))
  | none => if fmt = 5 then BitVec.ofInt 32 (signedFld code 8) else word (akCode ak fmt code)

/-- One micro-operation on its operands (R162, R193, R213). -/
def uopValue (ak : Bool) (op aux : Nat) (a b c : Word) : Word :=
  let fl := flushSub ak
  let bit := fun (x : Bool) => if x then 1#32 else 0#32
  match op with
  | 0x01 => vadd ak a b
  | 0x02 => vsub ak a b
  | 0x03 => vmul ak a b
  | 0x04 => vfma ak a b c
  | 0x05 => vdiv ak a b
  | 0x06 => vmin ak a b
  | 0x07 => vmax ak a b
  | 0x08 => fabs (fl a)
  | 0x09 => fneg (fl a)
  | 0x0A => vsqrt ak a
  | 0x0B => vrsqrt ak a
  | 0x0C => vrcp ak a
  | 0x0D => fexp ak a
  | 0x0E => flog ak a
  | 0x0F => ftanh ak a
  | 0x10 => ferf ak a
  | 0x11 => bit (flt (fl a) (fl b))
  | 0x12 => bit (fle (fl a) (fl b))
  | 0x13 => bit (feq (fl a) (fl b))
  | 0x14 => if a ≠ 0#32 then b else c
  | 0x15 => a + b
  | 0x16 => a - b
  | 0x17 => bit (a.slt b)
  | 0x18 => bit (a.sle b)
  | 0x19 => a &&& b
  | 0x1A => a ||| b
  | 0x1B => a ^^^ b
  | 0x1C => a <<< aux
  | 0x1D => a >>> aux
  | 0x1E => f32OfInt a.toInt
  | 0x1F => (match roundInt (fl a) with
    | some i => BitVec.ofInt 32 (if i < -2147483648 then -2147483648 else if 2147483647 < i then 2147483647 else i)
    | none => if isNan a then 0#32 else if signOf a then 0x80000000#32 else 0x7FFFFFFF#32)
  | _ => a

/-- What one element of a launch gives: its registers by source code (30, 31: outputs), values to reduce by register, values to tap. -/
structure Elem where
  env : Tab Word
  reds : List (Nat × Word) := []
  taps : List (Nat × Word) := []

/-- One micro-operation of an element. -/
def Elem.step (ak : Bool) (e : Elem) (w : Word) : Elem :=
  let g := fun (r : Nat) => e.env.get 0#32 r
  if isReduce w then { e with reds := e.reds ++ [(ud w, g (ua w))] }
  else if isTap w then { e with taps := e.taps ++ [(ud w, g (ua w))] }
  else { e with env := e.env.set (if ud w < 16 then ud w else ud w + 14) (uopValue ak (uop w) (uaux w) (g (ua w)) (g (ub w)) (g (uc w))) }

/-- Element (i, j) of a launch (R158, R159). -/
def Tile.elem (x : Tile) (ak : Bool) (v : VecOp) (i j : Nat) : Elem :=
  let ins := (List.range 4).filterMap (fun k =>
    let st := streamOf v.param k
    if st.used then some (16 + k, streamIn ak st.fmt (x.store.readLE (st.at i j).toNat st.size)) else none)
  let consts := (List.range 8).map (fun k => (20 + k, word (recNat v.param (112 + 4 * k) 4)))
  v.prog.foldl (Elem.step ak) { env := ins ++ consts ++ [(28, word j), (29, word i)] }

/-- One level of the lane tree (R164). -/
def treeLevel (f : Word → Word → Word) : List (Option Word) → List (Option Word)
  | a :: b :: r => (match a, b with
    | some x, some y => some (f x y)
    | some x, none => some x
    | none, y => y) :: treeLevel f r
  | [a] => [a]
  | [] => []

/-- n levels. -/
def treeLevels (f : Word → Word → Word) : Nat → List (Option Word) → List (Option Word)
  | 0, l => l
  | n + 1, l => treeLevels f n (treeLevel f l)

/-- A reduction of a row: each lane in ascending element order, then the pairwise tree; in AK6 mode sequentially (R164, R213). An
absent element takes no part. -/
def reduceRow (seq : Bool) (f : Word → Word → Word) (vs : List (Option Word)) : Option Word :=
  let add := fun (a : Option Word) (v : Option Word) => match a, v with
    | some x, some y => some (f x y)
    | none, y => y
    | x, none => x
  if seq then vs.foldl add none
  else
    let lanes := (List.range 256).map (fun l => ((List.range (ceilDiv (vs.length - l) 256)).map (fun k => (vs.getD (l + 256 * k) none))).foldl add none)
    ((treeLevels f 8 lanes).head?).getD none

/-- The operation of a reduction (R162, R213). -/
def reduceOp (ak : Bool) (op : Nat) : Word → Word → Word := if op = 0x21 then vadd ak else if op = 0x22 then vmax ak else vmin ak

/-- The bytes that element (i, j) of an output stream becomes (R159, R187, R191, R213). -/
def Stream.outBytes (x : Stream) (ak : Bool) (param : List Byte) (k i j : Nat) (v : Word) : List Byte :=
  let rnd := if x.rnd then Rnd.stochastic (philox (recNat param 136 4) (recNat param 140 4) (j, i, k, 0)).1 else .nearest
  let code := match x.fmt with
    | 5 => (convInt8 v.toInt).code
    | 6 => v.toNat
    | f => akCode ak f (convOut f rnd false v).code
  leBytes x.size code

/-- Element (i, j) of an output stream is overflowed (R187). -/
def Stream.outOver (x : Stream) (param : List Byte) (k i j : Nat) (v : Word) : Bool :=
  let rnd := if x.rnd then Rnd.stochastic (philox (recNat param 136 4) (recNat param 140 4) (j, i, k, 0)).1 else .nearest
  match x.fmt with
  | 5 => (convInt8 v.toInt).sat
  | 6 => false
  | f => (convOut f rnd false v).sat || (convOut f rnd false v).nonfin

/-- The overflowed output elements of a launch (R187). -/
def Tile.launchOver (x : Tile) (ak : Bool) (v : VecOp) : Nat :=
  ((List.range (tf v.word 104 88)).map (fun i => ((List.range (tf v.word 119 105)).map (fun j =>
    ([4, 5].filter (fun k => (streamOf v.param k).used && (streamOf v.param k).outOver v.param k i j ((x.elem ak v i j).env.get 0#32 (26 + k)))).length)).sum)).sum

/-- What a launch writes, element by element in ascending order, out0 before out1 of one element, a row's reductions after its elements, and
its taps (R158 to R164, R167; log 104). -/
def Tile.launch (x : Tile) (ak : Bool) (v : VecOp) : List (Nat × List Byte) × Tab TapSlot :=
  let elems := tf v.word 119 105
  let rows := (List.range (tf v.word 104 88)).map (fun i => (i, (List.range elems).map (fun j => (j, x.elem ak v i j))))
  let outs := ([4, 5].filter (fun k => (streamOf v.param k).used)).map (fun k => (k, streamOf v.param k))
  let red := streamOf v.param 6
  let redOps := v.prog.filter isReduce
  let writes := (rows.map (fun r =>
    (r.2.map (fun e => outs.map (fun o =>
      (if o.2.skew then skewAddr o.2.addr o.2.pack r.1 e.1 else (o.2.at r.1 e.1).toNat,
        o.2.outBytes ak v.param o.1 r.1 e.1 (e.2.env.get 0#32 (26 + o.1)))))).flatten ++
    redOps.map (fun w => ((red.at r.1 0).toNat + 4 * (ud w - 18), leBytes 4 (canonNan ((reduceRow ak (reduceOp ak (uop w))
      (r.2.map (fun e => (e.2.reds.find? (fun q => q.1 == ud w)).map (fun q => flushSub ak q.2)))).getD 0#32)).toNat)))).flatten
  let taps := rows.foldl (fun (tb : Tab TapSlot) r =>
    ((v.prog.filter isTap).zipIdx).foldl (fun (tb : Tab TapSlot) w =>
      let vs := r.2.map (fun e => ((e.2.taps.getD w.2 (0, 0#32)).2))
      let sum := reduceRow false fadd (vs.map (fun a => if isFinite a then some (fmul a a) else none))
      let n := (vs.filter isFinite).length
      tb.mod {} (ud w.1) (fun p => { p with
        count := p.count + word n
        nonfinite := p.nonfinite + word (vs.length - n)
        sumSq := match sum with
          | some q => fadd p.sumSq q
          | none => p.sumSq })) tb) x.taps
  (writes, taps)

/-- A VTAP at the head of the vector list writes its records (R168). -/
def State.tapHead (s : State) (t : Nat) : State :=
  match (s.tile t).vec with
  | v :: rest =>
    if top v.word ≠ 2 then s else
      let w := v.word
      let slots := bitList (tf w 118 111) 8
      let x := s.tile t
      let ws := slots.map (fun n =>
        let p := x.taps.get {} n
        (tf w 88 64 + 16 * n, leBytes 2 p.name.toNat ++ leBytes 2 0 ++ leBytes 4 p.count.toNat ++ leBytes 4 p.sumSq.toNat ++ leBytes 4 p.nonfinite.toNat))
      (s.modTile t (fun x => { x.writeAll ws with
        vec := rest
        taps := if tf w 119 119 = 1 then x.taps.filter (fun (p : Nat × TapSlot) => !slots.contains p.1) else x.taps })).complete1 t v.id
  | [] => s

/-- VTAPs that no earlier launch holds write their records. -/
def State.tapPump : Nat → State → Nat → State
  | 0, s, _ => s
  | n + 1, s, t => State.tapPump n (s.tapHead t) t

/-- VTAPs are taken up unless a YIELD, a slice or the program's end keeps them queued (R156, R168). -/
def State.pumpTaps (s : State) (t : Nat) : State := if s.starts t then State.tapPump 8 s t else s

/-- VLAUNCH_COMPLETE: the oldest launch in flight writes its outputs (R165). -/
def State.vecComplete (s : State) (t : Nat) : State :=
  let x := s.tile t
  match x.vec with
  | v :: rest =>
    if !v.started then s else
      let y := x.seenBy v.id s.raceCoin
      let (ws, taps) := y.launch (s.tileAk6 t) v
      (((s.countTile t 0xA (y.launchOver (s.tileAk6 t) v)).modTile t (fun x => { x.writeBy v.id s.raceCoin ws with vec := rest, taps := taps })).drew x v.id |>.complete1 t v.id).pumpTaps t
  | [] => s

/-- VLAUNCH_COMPLETE (R165). -/
def execVlaunchComplete (t : TileId) (s : State) : Host.Outcome State Fault Refusal := .next (s.vecComplete t)

/-- The fields of a VTAP (R145, R168). -/
def vtapLegal (w : TileWord) : Legal :=
  legal (tf w 110 89 != 0 || tf w 88 64 % 16 != 0 || tf w 63 0 != 0) (tf w 118 111 == 0) (!inStore (tf w 88 64) (16 * (bitList (tf w 118 111) 8).getLastD 0 + 16))

/-- VTAP at its issue (R168). -/
def issueVtap (t : Nat) (s : State) (a : Nat) (w : TileWord) : Issued :=
  match vtapLegal w with
  | .bad c => .fault c
  | .zero => .go s
  | .ok =>
    if !(s.tile t).vecRoom then .stay 1 else
      let (s1, id) := s.number t 2
      .go (State.pumpTaps (s1.modTile t (fun x => { x with vec := x.vec ++ [{ id := id, word := w, pc := a }] })) t)

/-- VTAP (R168). -/
def execVtap (t : TileId) (k : Nat) (s : State) : Host.Outcome State Fault Refusal := .next (s.issue t k 2 2 (issueVtap t))

end Sys2Proof.Machine
end

