-- ==== Sys2Proof/Machine/Dma.lean ====
section
/-!
DEFINITION. The skewing DMA (R169 to R171, R238): parameter blocks, their checks at issue, and the bytes a transfer moves, in the
layouts of R119 to R122.
-/
namespace Sys2Proof.Machine

/-- A parameter block that R169, R170 or R122 calls ILLEGAL; `op` is 1 DGET, 2 DPUT, 3 DMOVE. -/
def dmaIllegal (op : Nat) (r : List Byte) : Bool :=
  let p := dmaParam r
  recNat r 21 1 != 0 || recNat r 34 2 != 0 || recNat r 48 16 != 0 || decide (8 ≤ p.flags) || decide (2 < p.mode) || decide (65536 < p.rows)
    || (op == 2 && p.mode != 0) || (op == 3 && decide (2 ^ 25 ≤ p.dev ∨ 2 ^ 25 ≤ p.scaleDev))
    || (p.mode != 1 && (p.m0 != 0 || p.ring != 0 || p.zlead || p.ztrail)) || (p.mode != 2 && p.trans) || (p.mode != 0 && p.tsPitch != 0)
    || (!p.mx && (p.scaleTs != 0 || p.scaleDev != 0))
    || (if p.mode = 0 then p.fmt != 0 || p.cols % 4 != 0 || p.ts % 4 != 0
        else decide (7 < p.fmt) || p.ts % lineBytes != 0 || decide (192 * p.pack < p.kLen) || (p.mode == 2 && decide (192 < p.opRows))
          || (p.ring != 0 && decide (p.ring < (if p.wide then 1536 else 768) ∨ 32767 < p.ring)))

/-- The highest of lo to hi modulo a ring. -/
def topMod (ring lo hi : Nat) : Nat := if ring = 0 then hi else if lo / ring = hi / ring then hi % ring else ring - 1

/-- The tile-store side of a transfer lies within the store (R118, R145). -/
def dmaRangeOk (op : Nat) (p : DmaParam) : Bool :=
  let unit := fun (x : Nat) => if p.wide then x else x / 2
  let hi := max (p.m0 + p.rows - 1 + (if p.ztrail then 191 else p.segments - 1)) (if p.zlead then 190 else 0)
  let ok := match p.mode with
    | 0 => inStore p.ts ((p.rows - 1) * p.tsPitch + p.cols)
    | 1 => inStore p.ts (lineBytes * (topMod p.ring (unit (if p.zlead then 0 else p.m0)) (unit hi) + 1))
    | _ => inStore p.ts (lineBytes * (unit (p.segments - 1) + 1))
  let top := topMod (if p.wide then p.ring else 2 * p.ring) p.m0 (p.m0 + p.opRows - 1)
  ok && (!p.mx || inStore p.scaleTs (32 * top + p.scalesPerRow))
    && (op != 3 || (inStore p.dev p.devSpan && (!p.mx || inStore p.scaleDev p.scaleBytes)))

/-- Transfers start in issue order, at most 4 at once (R171). -/
def Tile.startDma (x : Tile) : Tile := { x with dma := (x.dma.take 4).map (fun d => { d with started := true }) ++ x.dma.drop 4 }
def State.startDma (s : State) (t : Nat) : State := if s.starts t then s.modTile t Tile.startDma else s

/-- A DMA instruction at its issue: the word, room in the queue, the parameter block, then the device side (R145, R169, R171, R238). -/
def issueDma (t op : Nat) (s : State) (a : Nat) (w : TileWord) : Issued :=
  let x := s.tile t
  match legal (tf w 119 95 % 64 != 0 || tf w 94 0 != 0) false (!inStore (tf w 119 95) 64) with
  | .bad c => .fault c
  | _ =>
    if 16 ≤ x.dma.length then .stay 1 else
      let r := (s.seenNow t).store.readN (tf w 119 95) 64
      let p := dmaParam r
      match legal (dmaIllegal op r) (p.rows == 0 || p.cols == 0) (!dmaRangeOk op p), s.tileRun t with
      | .bad c, _ => .fault c
      | .zero, _ => .go s
      | .ok, none => .go s
      | .ok, some (o, _) =>
        let d := s.resolve o.1 p.dev
        let sc := s.resolve o.1 p.scaleDev
        if op ≠ 3 ∧ (d.extent < p.devSpan ∨ (p.mx = true ∧ sc.extent < p.scaleBytes) ∨ (op = 2 ∧ s.readOnly d = true)) then .fault scDmaRange
        else
          let (s1, id) := (s.drewNow t).number t 3
          let pf := op == 1 && decide (65536 < p.rows * p.rowBytes)
          let s2 := if pf && bitOf (s.reg rJcPf) 31 then s1.touch d else s1
          let op' : DmaOp := { id := id, op := op, pc := a, params := r, dev := dword (if op = 3 then p.dev else s.pinRef o.1 p.dev), scaleDev := dword (if op = 3 then p.scaleDev else s.pinRef o.1 p.scaleDev), pf := pf }
          .go ((s2.modTile t (fun x => { x with dma := x.dma ++ [op'] })).startDma t)

/-- DGET (R169, R170). -/
def execDget (t : TileId) (k : Nat) (s : State) : Host.Outcome State Fault Refusal := .next (s.issue t k 3 1 (issueDma t 1))

/-- DPUT (R169). -/
def execDput (t : TileId) (k : Nat) (s : State) : Host.Outcome State Fault Refusal := .next (s.issue t k 3 2 (issueDma t 2))

/-- DMOVE (R169). -/
def execDmove (t : TileId) (k : Nat) (s : State) : Host.Outcome State Fault Refusal := .next (s.issue t k 3 3 (issueDma t 3))

/-- The bytes at a target, whatever their state. -/
def State.rawTarget (s : State) (t : Target) (off n : Nat) : List Byte :=
  match t.space with
  | .dev _ => s.devBytes (t.addr + off) n
  | .host _ => s.host.data.readN (t.addr + off) n
  | .nothing => []

/-- The first failure of reads of a target, over the rows of a transfer (R171). -/
def State.firstStop (s : State) (c : Nat) (t : Target) (rows : List (Nat × Nat)) : Option Byte :=
  rows.findSome? (fun r => (s.readTarget c (t.plus r.1) r.2).stop)

/-- Ends a transfer: it leaves its queue entry and counts as complete (R147, R152). -/
def State.dmaEnd (s : State) (t id : Nat) : State :=
  ((s.modTile t (fun x => { x with dma := x.dma.filter (fun d => d.id != id) })).complete1 t id).startDma t

/-- The fault of a failed transfer (R171). -/
def dmaCode (st : Byte) : Half := accessCode st

/-- A DGET ends: its bytes are written, or after a failed read each byte that no failing line supplies is written or not, which is
free (R171). -/
def State.dgetEnd (s : State) (t : Nat) (o : Nat × Nat × Nat) (d : DmaOp) : State :=
  let p := dmaParam d.params
  let dev := s.resolveHeld o.1 d.dev.toNat
  let sc := s.resolveHeld o.1 d.scaleDev.toNat
  let bs := p.bytes (s.rawTarget dev) (s.rawTarget sc)
  let put := fun (x : Tile) (ws : List (Nat × List Byte)) => x.writeBy d.id s.raceCoin ws
  if (s.tile t).guardedAny (bs.map (fun b => (b.addr, [b.val]))) then s else
    let stop := (s.firstStop o.1 dev ((List.range p.rows).map (fun i => (i * p.rowPitch, p.rowBytes)))).or
      (if p.mx then s.firstStop o.1 sc [(0, p.scaleBytes)] else none)
    let s1 := ((if stop.isSome then (List.range p.rows).foldl (fun s i => s.reachTarget (dev.plus (i * p.rowPitch)) p.rowBytes) (s.reachTarget sc p.scaleBytes) else s).touch dev).touch sc
    let s2 := s1.countSlow t (((List.range p.rows).flatMap (fun i => (dev.plus (i * p.rowPitch)).devRange p.rowBytes)) ++ (if p.mx then sc.devRange p.scaleBytes else []))
    let s0 := s2.countTile t 0xC bs.length
    match stop with
    | none => ((s0.modTile t (fun x => put x (bs.map (fun b => (b.addr, [b.val]))))).drew (s.tile t) d.id).dmaEnd t d.id
    | some st =>
      let bad := fun (q : Bool × Nat) => (s.readTarget o.1 ((if q.1 then sc else dev).plus q.2) 1).stop.isSome
      let coin := s2.bump.freeBytes bs.length
      let kept := bs.zipIdx.filter (fun (b : DmaByte × Nat) => !b.1.src.any bad && bitOf (coin.getD b.2 0#8).toNat 0)
      (((s2.countTile t 0xC kept.length).bump.bump.modTile t (fun x => put x (kept.map (fun (b : DmaByte × Nat) => (b.1.addr, [b.1.val]))))).dmaEnd t d.id).faultOf t d.id (dmaCode st) (some d.pc)

/-- A DMOVE ends. A byte whose source the same transfer writes is free: the spec gives no order of its reads and writes (log 32). -/
def State.dmoveEnd (s : State) (t : Nat) (d : DmaOp) : State :=
  let p := dmaParam d.params
  let x := s.tile t
  let y := x.seenBy d.id s.raceCoin
  let bs := p.bytes (fun off n => y.store.readN (p.dev + off) n) (fun off n => y.store.readN (p.scaleDev + off) n)
  if x.guardedAny (bs.map (fun b => (b.addr, [b.val]))) then s else
    let from_ := fun (q : Bool × Nat) => (if q.1 then p.scaleDev else p.dev) + q.2
    let tainted := fun (b : DmaByte) => b.src.any (fun q => bs.any (fun e => e.addr == from_ q))
    let free := s.bump.freeBytes bs.length
    let vs := bs.zipIdx.map (fun (b : DmaByte × Nat) => (b.1.addr, [if tainted b.1 then free.getD b.2 0#8 else b.1.val]))
    let s1 := (s.countTile t 0xC bs.length).countTile t 0xD (p.rows * p.rowBytes + (if p.mx then p.scaleBytes else 0))
    (((if bs.any tainted then s1.bump.bump else s1).modTile t (fun x => x.writeBy d.id s.raceCoin vs)).drew x d.id).dmaEnd t d.id

/-- Writes a row of a DPUT. In a transfer that meets an access error, each byte that may be written holds its old value or the new one, which
is free (R171). -/
def State.dputRow (s : State) (c : Nat) (dev : Target) (failing : Bool) (row : Nat × List Byte) : State :=
  if failing then
    let f := (s.ctx c).func
    let coin := s.freeBytes row.2.length
    row.2.zipIdx.foldl (fun (s : State) (b : Byte × Nat) =>
      if bitOf (coin.getD b.2 0#8).toNat 0 then (s.hostWrite f (dev.addr + row.1 + b.2) [b.1]).1 else s) s.bump
  else (s.writeTarget c (dev.plus row.1) row.2).1

/-- A DPUT ends: its rows have reached the junction cache (R152, R169, R405). -/
def State.dputEnd (s : State) (t : Nat) (o : Nat × Nat × Nat) (d : DmaOp) : State :=
  let p := dmaParam d.params
  let dev := s.resolveHeld o.1 d.dev.toNat
  let y := (s.tile t).seenBy d.id s.raceCoin
  let rows := (List.range p.rows).map (fun i => (i * p.rowPitch, y.store.readN (p.ts + i * p.tsPitch) p.cols))
  let denied := fun (r : Nat × List Byte) => (firstHit (s.denied (s.ctx o.1).func) (dev.addr + r.1) r.2.length).isSome
  let failing := dev.isHost && rows.any denied
  let apply := fun (r : Nat × List Byte) (s : State) => s.dputRow o.1 dev failing r
  let s1 := rows.foldl (fun (s : State) r => s.tileWrite t (1000 + d.pc) (dev.addr + r.1) r.2 (apply r)) ((s.drew (s.tile t) d.id).touch dev)
  let s2 := (s1.countTile t 0xD (p.rows * p.cols)).dmaEnd t d.id
  if s.readOnly dev then s2.faultOf t d.id scDmaRange (some d.pc) else if failing then s2.faultOf t d.id scHostAccess (some d.pc) else s2

/-- DMA_TRANSFER_COMPLETE: running transfer i, of at most 4, ends; one that needs the host waits for a path (R113, R171). -/
def State.dmaComplete (s : State) (t i : Nat) : State :=
  match (s.tile t).dma[i]?, s.tileRun t with
  | some d, some (o, _) =>
    if !d.started then s
    else if d.op = 3 then s.dmoveEnd t d
    else if s.refWaits o.1 d.dev.toNat (d.op == 2) || ((dmaParam d.params).mx && s.refWaits o.1 d.scaleDev.toNat) then s
    else if d.op = 1 then s.dgetEnd t o d else s.dputEnd t o d
  | _, _ => s

/-- DMA_TRANSFER_COMPLETE (R171). -/
def execDmaTransferComplete (t : TileId) (i : Nat) (s : State) : Host.Outcome State Fault Refusal := .next (s.dmaComplete t i)

end Sys2Proof.Machine
end

