-- ==== Sys2Proof/Machine/Riscv.lean ====
section
/-!
DEFINITION. RV32IMAC as far as it does not touch memory (R172): the compressed instructions as the 32-bit ones they stand for,
immediates, and the integer operations. The encodings and results are those of the RISC-V unprivileged specification (PRESUMED, log 35).
-/
namespace Sys2Proof.Machine

/-- Encoders of the formats, for the expansions. -/
def encR (f7 rs2 rs1 f3 rd op : Nat) : Nat := f7 * 2 ^ 25 + rs2 * 2 ^ 20 + rs1 * 2 ^ 15 + f3 * 2 ^ 12 + rd * 2 ^ 7 + op
def encI (imm rs1 f3 rd op : Nat) : Nat := (imm % 4096) * 2 ^ 20 + rs1 * 2 ^ 15 + f3 * 2 ^ 12 + rd * 2 ^ 7 + op
def encS (imm rs2 rs1 f3 op : Nat) : Nat := encR (fld imm 5 7) rs2 rs1 f3 (fld imm 0 5) op
def encB (imm rs2 rs1 f3 : Nat) : Nat := encR (fld imm 12 1 * 64 + fld imm 5 6) rs2 rs1 f3 (fld imm 1 4 * 2 + fld imm 11 1) 0x63
def encJ (imm rd : Nat) : Nat := fld imm 20 1 * 2 ^ 31 + fld imm 1 10 * 2 ^ 21 + fld imm 11 1 * 2 ^ 20 + fld imm 12 8 * 2 ^ 12 + rd * 2 ^ 7 + 0x6F

/-- An n-bit two's complement value as 32 bits. -/
def sx (v n : Nat) : Nat := if v.testBit (n - 1) then 2 ^ 32 - 2 ^ n + v % 2 ^ n else v % 2 ^ n

/-- The 32-bit instruction that a compressed one stands for; none where it is illegal. -/
def expandC (c : Nat) : Option Nat :=
  let f := fun (lo n : Nat) => fld c lo n
  let rd := f 7 5
  let rs2 := f 2 5
  let rdp := 8 + f 2 3
  let rsp := 8 + f 7 3
  let imm6 := sx (f 12 1 * 32 + f 2 5) 6
  let shamt := f 2 5
  let lw := f 10 3 * 8 + f 6 1 * 4 + f 5 1 * 64
  let jmp := sx (f 12 1 * 2048 + f 11 1 * 16 + f 9 2 * 256 + f 8 1 * 1024 + f 7 1 * 64 + f 6 1 * 128 + f 3 3 * 2 + f 2 1 * 32) 12
  let br := sx (f 12 1 * 256 + f 10 2 * 8 + f 5 2 * 64 + f 3 2 * 2 + f 2 1 * 32) 9
  match f 0 2, f 13 3 with
  | 0, 0 => let imm := f 11 2 * 16 + f 7 4 * 64 + f 6 1 * 4 + f 5 1 * 8
    if imm = 0 then none else some (encI imm 2 0 rdp 0x13)
  | 0, 2 => some (encI lw rsp 2 rdp 0x03)
  | 0, 6 => some (encS lw rdp rsp 2 0x23)
  | 1, 0 => some (encI imm6 rd 0 rd 0x13)
  | 1, 1 => some (encJ jmp 1)
  | 1, 2 => some (encI imm6 0 0 rd 0x13)
  | 1, 3 =>
    if rd = 2 then
      let imm := sx (f 12 1 * 512 + f 6 1 * 16 + f 5 1 * 64 + f 3 2 * 128 + f 2 1 * 32) 10
      if imm = 0 then none else some (encI imm 2 0 2 0x13)
    else if imm6 = 0 then none else some ((imm6 % 2 ^ 20) * 2 ^ 12 + rd * 2 ^ 7 + 0x37)
  | 1, 4 =>
    (match f 10 2 with
    | 0 => if f 12 1 = 1 then none else some (encI shamt rsp 5 rsp 0x13)
    | 1 => if f 12 1 = 1 then none else some (encI (1024 + shamt) rsp 5 rsp 0x13)
    | 2 => some (encI imm6 rsp 7 rsp 0x13)
    | _ => if f 12 1 = 1 then none else
      match f 5 2 with
      | 0 => some (encR 0x20 rdp rsp 0 rsp 0x33)
      | 1 => some (encR 0 rdp rsp 4 rsp 0x33)
      | 2 => some (encR 0 rdp rsp 6 rsp 0x33)
      | _ => some (encR 0 rdp rsp 7 rsp 0x33))
  | 1, 5 => some (encJ jmp 0)
  | 1, 6 => some (encB br 0 rsp 0)
  | 1, 7 => some (encB br 0 rsp 1)
  | 2, 0 => if f 12 1 = 1 then none else some (encI shamt rd 1 rd 0x13)
  | 2, 2 => if rd = 0 then none else some (encI (f 12 1 * 32 + f 4 3 * 4 + f 2 2 * 64) 2 2 rd 0x03)
  | 2, 4 =>
    if f 12 1 = 0 then (if rs2 = 0 then (if rd = 0 then none else some (encI 0 rd 0 0 0x67)) else some (encR 0 rs2 0 0 rd 0x33))
    else if rs2 = 0 then (if rd = 0 then some 0x00100073 else some (encI 0 rd 0 1 0x67))
    else some (encR 0 rs2 rd 0 rd 0x33)
  | 2, 6 => some (encS (f 9 4 * 4 + f 7 2 * 64) rs2 2 2 0x23)
  | _, _ => none

/-- Fields and immediates of a 32-bit instruction. -/
def iOp (w : Nat) : Nat := fld w 0 7
def iRd (w : Nat) : Nat := fld w 7 5
def iF3 (w : Nat) : Nat := fld w 12 3
def iRs1 (w : Nat) : Nat := fld w 15 5
def iRs2 (w : Nat) : Nat := fld w 20 5
def iF7 (w : Nat) : Nat := fld w 25 7
def immI (w : Nat) : Word := word (sx (fld w 20 12) 12)
def immS (w : Nat) : Word := word (sx (fld w 25 7 * 32 + fld w 7 5) 12)
def immB (w : Nat) : Word := word (sx (fld w 31 1 * 4096 + fld w 7 1 * 2048 + fld w 25 6 * 32 + fld w 8 4 * 2) 13)
def immU (w : Nat) : Word := word (fld w 12 20 * 4096)
def immJ (w : Nat) : Word := word (sx (fld w 31 1 * 2 ^ 20 + fld w 12 8 * 4096 + fld w 20 1 * 2048 + fld w 21 10 * 2) 21)

/-- The integer operation of OP and OP-IMM by funct3; `alt` selects SUB and SRA. -/
def aluOp (f3 : Nat) (alt : Bool) (a b : Word) : Word :=
  match f3 with
  | 0 => if alt then a - b else a + b
  | 1 => a <<< (b.toNat % 32)
  | 2 => if a.slt b then 1#32 else 0#32
  | 3 => if a.ult b then 1#32 else 0#32
  | 4 => a ^^^ b
  | 5 => if alt then a.sshiftRight (b.toNat % 32) else a >>> (b.toNat % 32)
  | 6 => a ||| b
  | _ => a &&& b

/-- The operation of the M extension by funct3: division by zero gives all ones and the dividend; the quotient that overflows is the
dividend, with remainder zero. -/
def mulOp (f3 : Nat) (a b : Word) : Word :=
  match f3 with
  | 0 => a * b
  | 1 => BitVec.ofInt 32 ((a.toInt * b.toInt) >>> 32)
  | 2 => BitVec.ofInt 32 ((a.toInt * (b.toNat : Int)) >>> 32)
  | 3 => word ((a.toNat * b.toNat) / 2 ^ 32)
  | 4 => if b = 0#32 then 0xFFFFFFFF#32 else BitVec.ofInt 32 (a.toInt.tdiv b.toInt)
  | 5 => if b = 0#32 then 0xFFFFFFFF#32 else word (a.toNat / b.toNat)
  | 6 => if b = 0#32 then a else BitVec.ofInt 32 (a.toInt.tmod b.toInt)
  | _ => if b = 0#32 then a else word (a.toNat % b.toNat)

/-- The condition of a branch by funct3. -/
def branchTaken (f3 : Nat) (a b : Word) : Bool :=
  match f3 with
  | 0 => a == b
  | 1 => a != b
  | 4 => a.slt b
  | 5 => !a.slt b
  | 6 => a.ult b
  | _ => !a.ult b

/-- The value an AMO writes, by funct5; none if it is not defined. -/
def amoOp (f5 : Nat) (m b : Word) : Option Word :=
  match f5 with
  | 0 => some (m + b)
  | 1 => some b
  | 4 => some (m ^^^ b)
  | 8 => some (m ||| b)
  | 12 => some (m &&& b)
  | 16 => some (if m.slt b then m else b)
  | 20 => some (if m.slt b then b else m)
  | 24 => some (if m.ult b then m else b)
  | 28 => some (if m.ult b then b else m)
  | _ => none

end Sys2Proof.Machine
end

