-- ==== Sys2Proof/Machine/Causeway.lean ====
section
/-!
DEFINITION. The Causeway between the dies: its links, the path of a pair of dies, and the remote signals that cross it (R251, R253, R154).
-/
namespace Sys2Proof.Machine

/-- The two dies of each link (spec/08, the table of links). -/
def cwLinks : List (Nat × Nat) := [(0, 1), (1, 2), (2, 3), (4, 5), (5, 6), (6, 7), (0, 4), (1, 5), (2, 6), (3, 7)]

/-- The die at the other end of link l from die d, if the link touches d. -/
def cwOther (l d : Nat) : Option Nat :=
  match cwLinks[l]? with
  | some (a, b) => if a = d then some b else if b = d then some a else none
  | none => none

/-- The link between two adjacent dies. -/
def cwLink (a b : Nat) : Option Nat := (List.range 10).find? (fun l => cwOther l a == some b)

/-- The dies along the source die's row to the destination column, then across to the destination row (R251). -/
def cwDies (a b : Nat) : List Nat :=
  let row := a / 4 * 4
  let cols := if a % 4 ≤ b % 4 then (List.range (b % 4 + 1 - a % 4)).map (fun k => row + a % 4 + k)
    else (List.range (a % 4 + 1 - b % 4)).map (fun k => row + a % 4 - k)
  if a / 4 = b / 4 then cols else cols ++ [b]

/-- The links of a list of adjacent dies. -/
def cwAlong : List Nat → List Nat
  | a :: b :: r => (cwLink a b).toList ++ cwAlong (b :: r)
  | _ => []

/-- The first path of exactly n links from die a to die b that uses no link of `down`, lower-numbered links first (R253; log 106). -/
def cwWalk (down : BitVec 10) : Nat → Nat → Nat → Option (List Nat)
  | 0, a, b => if a = b then some [] else none
  | n + 1, a, b => (List.range 10).findSome? (fun l =>
      if down.toNat.testBit l then none else (cwOther l a).bind (fun d => (cwWalk down n d b).map (fun p => l :: p)))

/-- The path of traffic from die a to die b: row first, or with one of its links down the shortest that avoids every lost link, ties going to
the lower-numbered link; none if the dies are cut off (R251, R253). -/
def cwPath (down : BitVec 10) (a b : Nat) : Option (List Nat) :=
  let p := cwAlong (cwDies a b)
  if p.any (fun l => down.toNat.testBit l) then (List.range 8).findSome? (fun n => cwWalk down n a b) else some p

/-- A remote signal sets out (R154). -/
def State.sendSignal (s : State) (g : Signal) : State := { s with fabric := { s.fabric with signals := s.fabric.signals ++ [g] } }
def State.dropSignal (s : State) (g : Signal) : State := { s with fabric := { s.fabric with signals := s.fabric.signals.erase g } }

/-- A signal may arrive: on its own die, or over a path of the Causeway as the first that is on its way between the two dies (R251). -/
def State.signalFirst (s : State) (g : Signal) : Bool :=
  let a := g.src / 12
  let b := g.dst / 12
  a == b || ((cwPath s.fabric.cwDown a b).isSome && s.fabric.signals.find? (fun x => x.src / 12 == a && x.dst / 12 == b) == some g)

end Sys2Proof.Machine
end

