-- ==== Sys2Proof/Machine/Seq.lean ====
section
/-!
DEFINITION. The sequencer's own instructions (R149 to R157): events, control, the instruction watchdog and ILLEGAL.
-/
namespace Sys2Proof.Machine

/-- Adds n to event counter c of tile t (R151). -/
def State.addEvent (s : State) (t c n : Nat) : State := s.modSeq t (fun q => q.addEvent c n)

/-- ESIGNAL at its issue: its own counter, or a remote signal on its way, which no end of the program loses; a partner's goes to the
partner of TILE (R154, R405). -/
def issueEsignal (t : Nat) (s : State) (_ : Nat) (w : TileWord) : Issued :=
  let c := tf w 119 115
  let n := tf w 114 99
  let u := tf w 97 91
  let remote := tf w 98 98 == 1
  match s.tileRun t with
  | none => .go s
  | some (_, r) =>
    match legal (tf w 90 0 != 0 || (!remote && u != 0) || decide (95 < u) || (remote && !r.tiles.toNat.testBit u)) (n == 0) false with
    | .bad e => .fault e
    | .zero => .go s
    | .ok =>
      if remote then .go (s.sendSignal ⟨t, if r.isPartner t then u + 48 else u, c, n⟩)
      else .go (s.addEvent t c n)

/-- ESIGNAL (R154). -/
def execEsignal (t : TileId) (k : Nat) (s : State) : Host.Outcome State Fault Refusal := .next (s.issue t k 4 1 (issueEsignal t))

/-- ESIGNAL_REMOTE_ARRIVE: the oldest signal from `src` to counter `ctr` of tile t arrives, unless it has no path or another sent before it
between the same two dies is still on its way (R154, R251, R253). -/
def State.signalArrive (s : State) (t src ctr : Nat) : State :=
  match s.fabric.signals.find? (fun g => g.src == src && g.dst == t && g.ctr == ctr) with
  | some g => if s.signalFirst g then (s.dropSignal g).addEvent t ctr g.n else s
  | none => s

/-- ESIGNAL_REMOTE_ARRIVE (R154). -/
def execEsignalRemoteArrive (t src : TileId) (ctr : Fin 32) (s : State) : Host.Outcome State Fault Refusal := .next (s.signalArrive t src ctr)

/-- EFENCE at its issue: a mark on the instructions of its units that are issued and not complete; the 33rd waits (R152; log 33). -/
def issueEfence (t : Nat) (s : State) (_ : Nat) (w : TileWord) : Issued :=
  match legal (tf w 114 99 != 0 || tf w 93 0 != 0) (tf w 98 94 == 0) false with
  | .bad e => .fault e
  | .zero => .go s
  | .ok =>
    let q := (s.tile t).seq
    if 32 ≤ q.marks.length then .stay 1
    else .go (s.modSeq t (fun q => { q with marks := q.marks ++ [⟨tf w 119 115, (q.busy.filter (fun b => (tf w 98 94).testBit b.2)).map (fun b => b.1)⟩] }))

/-- EFENCE (R152). -/
def execEfence (t : TileId) (k : Nat) (s : State) : Host.Outcome State Fault Refusal := .next (s.issue t k 4 2 (issueEfence t))

/-- EFENCE_COUNT: mark i counts if every instruction it marks has completed (R152). -/
def State.efenceCount (s : State) (t i : Nat) : State :=
  let q := (s.tile t).seq
  match q.marks[i]? with
  | some m =>
    if m.ids.any (fun n => q.busy.any (fun b => b.1 == n)) then s
    else (s.modSeq t (fun q => { q with marks := q.marks.eraseIdx i })).addEvent t m.counter 1
  | none => s

/-- EFENCE_COUNT (R152). -/
def execEfenceCount (t : TileId) (i : Nat) (s : State) : Host.Outcome State Fault Refusal := .next (s.efenceCount t i)

/-- The instruction at the PC, if it is of the given class and operation and place k is the PC's (R147). -/
def State.atHead (s : State) (t k cls op : Nat) : Option TileWord :=
  match s.window t k with
  | .insn _ w => if k = (s.tile t).seq.held.length ∧ tclass w = cls ∧ top w = op then some w else none
  | _ => none

/-- The program address of the instruction at the PC; none in a CALL block (R98). -/
def Seq.at (q : Seq) : Option Nat := if q.call.isSome then none else some q.pc

/-- The address of the oldest instruction that has not issued (R157). -/
def Seq.oldestAt (q : Seq) : Option Nat := (q.held.head?.map (fun h => h.1)).or q.at

/-- EWAIT: the sequencer holds until its counter reaches N (R153). -/
def State.ewait (s : State) (t k : Nat) : State :=
  match s.atHead t k 4 3 with
  | none => s
  | some w =>
    match legal (tf w 98 0 != 0) (tf w 114 99 == 0) false with
    | .bad e => s.fault t e (s.tile t).seq.at
    | .zero => (s.took s t k).pass t k
    | .ok => (s.took s t k).modSeq t (fun q => { q with wait := 3, waitCtr := tf w 119 115, waitN := tf w 114 99 })

/-- EWAIT (R153). -/
def execEwait (t : TileId) (k : Nat) (s : State) : Host.Outcome State Fault Refusal := .next (s.ewait t k)

/-- EWAIT_RETIRE: the counter has reached N; N is subtracted and the EWAIT retires (R153). -/
def State.ewaitRetire (s : State) (t : Nat) : State :=
  let q := (s.tile t).seq
  let v := (q.events.get 0#16 q.waitCtr).toNat
  if s.issues t && q.wait == 3 && !q.yielded && decide (q.waitN ≤ v) then
    s.modSeq t (fun q => { q.next with events := q.events.set q.waitCtr (half (v - q.waitN)) })
  else s

/-- EWAIT_RETIRE (R153). -/
def execEwaitRetire (t : TileId) (s : State) : Host.Outcome State Fault Refusal := .next (s.ewaitRetire t)

/-- A matrix instruction that the armed drain is for, or that faults on it, is held and will still issue (R129, R130). -/
def Seq.armedHeld (q : Seq) : Bool := q.held.any (fun h => tclass h.2 == 1 && (top h.2 == 2 || top h.2 == 3))

/-- END: the sequencer reads no further instruction; what R130 holds still issues, and END waits for it and for an armed drain that it
takes. An armed drain without a stream pass never starts (R129, R149; log 34). -/
def State.endInsn (s : State) (t k : Nat) : State :=
  match s.atHead t k 6 1 with
  | none => s
  | some w =>
    if tf w 119 0 ≠ 0 then s.fault t scIllegal (s.tile t).seq.at
    else (s.took s t k).modSeq t (fun q => { q with
      ended := true
      wait := 4
      armed := if q.armedHeld then q.armed else none
      busy := if q.armedHeld then q.busy else q.busy.filter (fun b => !q.armed.any (fun d => d.1 == b.1)) })

/-- END (R149). -/
def execEndInsn (t : TileId) (k : Nat) (s : State) : Host.Outcome State Fault Refusal := .next (s.endInsn t k)

/-- YIELD: retires; with a slice pending the sequencer stops issuing until the slice has run (R156). -/
def State.yieldInsn (s : State) (t k : Nat) : State :=
  match s.atHead t k 6 2 with
  | none => s
  | some w =>
    if tf w 119 0 ≠ 0 then s.fault t scIllegal (s.tile t).seq.at
    else if (s.tile t).slice = .pending then ((s.took s t k).pass t k).modSeq t (fun q => { q with yielded := true, wait := 5 })
    else (s.took s t k).pass t k

/-- YIELD (R156). -/
def execYieldInsn (t : TileId) (k : Nat) (s : State) : Host.Outcome State Fault Refusal := .next (s.yieldInsn t k)

/-- CALL: the next NINSTR instructions are those of the block at ADDR; inside a block it is ILLEGAL (R150). -/
def State.callInsn (s : State) (t k : Nat) : State :=
  match s.atHead t k 6 3 with
  | none => s
  | some w =>
    let a := tf w 88 64
    let n := tf w 63 51
    match legal ((s.tile t).seq.call.isSome || tf w 119 89 != 0 || a % 16 != 0 || decide (4096 < n) || tf w 50 0 != 0) (n == 0) (!inStore a (16 * n)) with
    | .bad e => s.fault t e (s.tile t).seq.at
    | .zero => (s.took s t k).pass t k
    | .ok => (s.took s t k).modSeq t (fun q => { q with call := some (a, n, 0), pc := q.pc + 16, wait := 0 })

/-- CALL (R150). -/
def execCallInsn (t : TileId) (k : Nat) (s : State) : Host.Outcome State Fault Refusal := .next (s.callInsn t k)

/-- TILE_WATCHDOG: an interval of R157 has exceeded CTX_TIMERS.WDOG on a tile whose program runs and does not stand in a slice (R109). A pass
in a vote is ended by it and is the restart point (R140, R143); else the oldest instruction that has not issued is. -/
def State.watchdog (s : State) (t : Nat) : State :=
  match s.tileRun t with
  | some (_, r) =>
    let m := (s.tile t).mx
    if r.stopping || !r.running.toNat.testBit t || (s.tile t).slice == .running then s
    else match m.vote.bind (fun v => m.passes.find? (fun p => p.id == v.pass)) with
      | some p => (s.discardFrom t p).fault t scWatchdog (some p.pc)
      | none => s.fault t scWatchdog (s.tile t).seq.oldestAt
  | none => s

/-- TILE_WATCHDOG (R109, R157). -/
def execTileWatchdog (t : TileId) (s : State) : Host.Outcome State Fault Refusal := .next (s.watchdog t)

/-- ILLEGAL_TILE_INSTRUCTION: a class or operation that R146 does not define, or the end of the program without an END (R149). -/
def State.illegalInsn (s : State) (t k : Nat) : State :=
  match s.window t k with
  | .past => s.fault t scIllegal (s.tile t).seq.at
  | .insn a w => if opDefined (tclass w) (top w) then s else s.fault t scIllegal (some a)
  | .bad st => (s.fetchReach t).fault t (dmaCode st) (s.tile t).seq.at
  | _ => s

/-- ILLEGAL_TILE_INSTRUCTION (R146, R149). -/
def execIllegalTileInstruction (t : TileId) (k : Nat) (s : State) : Host.Outcome State Fault Refusal := .next (s.illegalInsn t k)

end Sys2Proof.Machine
end

