-- ==== Sys2Proof/Machine/Prep.lean ====
section
/-!
DEFINITION. Prep clusters and cores (R172 to R180): PDISPATCH, the address map, RV32IMAC, the Haevo extensions and traps.
-/
namespace Sys2Proof.Machine

def State.cluster (s : State) (t cl : Nat) : Cluster := (s.tile t).clusters.get {} cl
def State.modCluster (s : State) (t cl : Nat) (f : Cluster → Cluster) : State := s.modTile t (fun x => { x with clusters := x.clusters.mod {} cl f })
def Cluster.core (x : Cluster) (i : Nat) : Core := x.cores.get {} i
def State.core (s : State) (t cl i : Nat) : Core := (s.cluster t cl).core i
def State.modCore (s : State) (t cl i : Nat) (f : Core → Core) : State := s.modCluster t cl (fun x => { x with cores := x.cores.mod {} i f })

/-- Integer registers; x0 is zero. -/
def Core.get (x : Core) (r : Nat) : Word := if r = 0 then 0#32 else x.x.get 0#32 r
def Core.set (x : Core) (r : Nat) (v : Word) : Core := if r = 0 then x else { x with x := x.x.set r v }
def Core.getCsr (x : Core) (n : Nat) : Word := x.csr.get 0#32 n
def Core.setCsr (x : Core) (n : Nat) (v : Word) : Core := { x with csr := x.csr.set n v }

/-- PDISPATCH at its issue (R145, R173). -/
def issuePdispatch (t : Nat) (s : State) (_ : Nat) (w : TileWord) : Issued :=
  let n := tf w 63 48
  match legal (tf w 92 89 != 0 || tf w 88 64 % 64 != 0 || n == 0 || decide (1024 < n) || tf w 47 23 % 4 != 0 || tf w 22 0 != 0) (tf w 119 93 == 0)
      (!inStore (tf w 88 64) (64 * n)) with
  | .bad e => .fault e
  | .zero => .go s
  | .ok =>
    if 4 ≤ (s.tile t).prep.length then .stay 1
    else
      let (s1, id) := s.number t 4
      .go (s1.modTile t (fun x => { x with prep := x.prep ++ [⟨id, w⟩] }))

/-- PDISPATCH (R173). -/
def execPdispatch (t : TileId) (k : Nat) (s : State) : Host.Outcome State Fault Refusal := .next (s.issue t k 5 1 (issuePdispatch t))

/-- A cluster that runs nothing (R173, R174). -/
def Cluster.idle (x : Cluster) : Bool := x.dispatch.isNone && !x.desc

/-- Core i of cluster cl of tile t at its start (R173; log 36). -/
def Core.start (x : Core) (t cl i arg : Nat) : Core :=
  { x with
    x := [(2, 0x2000#32), (10, word i), (11, word arg), (12, word cl), (13, word t)]
    pc := 0x10000#32
    csr := []
    resv := none
    running := true }

/-- A cluster starts a dispatch: it loads the image unless it holds it, and all its cores start (R173). -/
def Cluster.startDispatch (x : Cluster) (store : Mem) (t cl : Nat) (p : PrepOp) : Cluster :=
  let a := tf p.word 88 64
  let n := 64 * tf p.word 63 48
  { x with
    mem := if x.image = some (a, n) then x.mem else x.mem.writeN 0 (store.readN a n)
    image := some (a, n)
    dispatch := some p.id
    cores := (List.range 32).map (fun i => (i, (x.core i).start t cl i (tf p.word 47 23))) }

/-- PDISPATCH_START: the oldest dispatch starts once all its clusters are idle (R148, R173, R174). -/
def State.pdispatchStart (s : State) (t : Nat) : State :=
  match (s.tile t).prep, s.tileRun t with
  | p :: rest, some _ =>
    let cls := bitList (tf p.word 119 93) 27
    if !s.starts t || !cls.all (fun c => (s.cluster t c).idle) then s
    else
      (s.drewNow t).modTile t (fun x => { x with
        prep := rest
        clusters := cls.foldl (fun (tb : Tab Cluster) c => tb.mod {} c (fun y => y.startDispatch (s.seenNow t).store t c p)) x.clusters })
  | _, _ => s

/-- PDISPATCH_START (R173). -/
def execPdispatchStart (t : TileId) (s : State) : Host.Outcome State Fault Refusal := .next (s.pdispatchStart t)

/-- What the execution of an instruction by a prep core comes to: a next state; a trap with its cause and TVAL, free if the spec names
none (R175); it holds; or the tile program faults. -/
inductive CoreOut where
  | ok (s : State)
  | trap (cause : Nat) (tval : Option Word)
  | wait
  | fault (s : State) (code : Half)

/-- The instruction of a core: its place, owner, the core before it, the bits, the 32-bit form and the length. -/
structure CoreReq where
  t : Nat
  cl : Nat
  i : Nat
  o : Nat × Nat × Nat
  core : Core
  bits : Nat
  w : Nat
  len : Nat

def CoreReq.rs1 (q : CoreReq) : Word := q.core.get (iRs1 q.w)
def CoreReq.rs2 (q : CoreReq) : Word := q.core.get (iRs2 q.w)
/-- The number of a core among a tile's, its unit of R405. -/
def CoreReq.unit (q : CoreReq) : Nat := 32 * q.cl + q.i

/-- The core goes on at the next instruction, changed by f. -/
def CoreReq.next (q : CoreReq) (s : State) (f : Core → Core) : CoreOut :=
  .ok (s.modCore q.t q.cl q.i (fun x => { f x with pc := q.core.pc + word q.len }))
/-- As `next`, writing rd. -/
def CoreReq.ret (q : CoreReq) (s : State) (v : Word) : CoreOut := q.next s (fun x => x.set (iRd q.w) v)
def CoreReq.illegal (q : CoreReq) : CoreOut := .trap 2 (some (word q.bits))

/-- Where an address lies (R172). -/
inductive CoreSpace where
  | priv (a : Nat)
  | clus (a : Nat)
  | store (a : Nat)
  | window (u : Nat)
  | nowhere

/-- The address map of a prep core for an access of n bytes, aligned (R172). -/
def Core.space (x : Core) (a n : Nat) : CoreSpace :=
  if a % n ≠ 0 then .nowhere
  else if a + n ≤ 0x2000 then .priv a
  else if 0x10000 ≤ a ∧ a + n ≤ 0x50000 then .clus (a - 0x10000)
  else if 0x1000000 ≤ a ∧ a + n ≤ 0x1000000 + storeBytes then .store (a - 0x1000000)
  else if 0x40000000 ≤ a ∧ a + n ≤ 0x80000000 then
    .window ((x.getCsr 0x7E2).toNat + 2 ^ 32 * (x.getCsr 0x7E3).toNat + (a - 0x40000000))
  else .nowhere

/-- The object of the context whose blocks hold bytes u to u + n - 1 of the unified range (R172, R222, R224, R227). -/
def State.windowObj (s : State) (o : Nat × Nat × Nat) (u n : Nat) : Option Nat :=
  (List.find? (fun (x : Nat × Obj) => x.2.ctx == o.1 && decide (x.2.ubase ≤ u) && decide (u + n ≤ x.2.ubase + blockBytes * x.2.blocks)
    && (s.resolve o.1 (x.1 * 2 ^ 40)).space == .dev x.1) s.mem.objs).map (fun x => x.1)

/-- What a read by a core gives. -/
inductive CoreGot where
  | data (bs : List Byte)
  | bad
  | wait
  | poison

/-- A core reads n bytes at a (R172, R246). -/
def State.coreRead (s : State) (q : CoreReq) (a n : Nat) : CoreGot :=
  match q.core.space a n with
  | .priv a => .data (q.core.priv.readN a n)
  | .clus a => .data ((s.cluster q.t q.cl).mem.readN a n)
  | .store a => .data ((s.seenNow q.t).store.readN a n)
  | .window u =>
    (match s.windowObj q.o u n with
    | none => .bad
    | some id =>
      if s.refWaits q.o.1 (id * 2 ^ 40) then .wait
      else match s.devRead u n with
        | ⟨bs, none⟩ => .data bs
        | _ => .poison)
  | .nowhere => .bad

/-- A read through the window touches its object (R225) and counts if it is one of the slow tier (R431); one of tile store draws what it
met (R155). -/
def State.coreTouch (s : State) (q : CoreReq) (a n : Nat) : State :=
  match q.core.space a n with
  | .window u => (match s.windowObj q.o u n with
    | some id => (s.touch ⟨.dev id, u, n⟩).countSlow q.t [(u, n)]
    | none => s)
  | .store _ => s.drewNow q.t
  | _ => s

/-- The state after a read by a core that failed (R247). -/
def State.coreReach (s : State) (q : CoreReq) (a n : Nat) : State :=
  match q.core.space a n with
  | .window u => s.reach u n
  | _ => s

/-- A core writes cluster memory: reservations of the other cores on those bytes are lost. The image that the cluster holds counts as held
still, whatever the write did to it (R173; log 107). -/
def State.clusterWrite (s : State) (t cl i a : Nat) (bs : List Byte) : State :=
  s.modCluster t cl (fun x => { x with
    mem := x.mem.writeN a bs
    cores := x.cores.map (fun (c : Nat × Core) =>
      if c.1 ≠ i ∧ c.2.resv.any (fun r => decide (r < 0x10000 + a + bs.length ∧ 0x10000 + a < r + 4)) then (c.1, { c.2 with resv := none }) else c) })

/-- A core writes bytes at a: the next state, or what stops it (R172, R226, R405). -/
def State.coreWrite (s : State) (q : CoreReq) (a : Nat) (bs : List Byte) : CoreOut :=
  match q.core.space a bs.length with
  | .priv p => .ok (s.modCore q.t q.cl q.i (fun x => { x with priv := x.priv.writeN p bs }))
  | .clus p => .ok (s.clusterWrite q.t q.cl q.i p bs)
  | .store p => .ok (s.modTile q.t (fun x => x.write p bs))
  | .window u =>
    (match s.windowObj q.o u bs.length with
    | none => .trap 7 (some (word a))
    | some id =>
      if s.refWaits q.o.1 (id * 2 ^ 40) true then .wait
      else if s.readOnly ⟨.dev id, u, 0⟩ then .fault s scDmaRange
      else .ok (s.tileWrite q.t q.unit u bs (fun s => (s.devWrite u bs).touch ⟨.dev id, u, 0⟩)))
  | .nowhere => .trap 7 (some (word a))

/-- Goes on after a state change that may have been stopped. -/
def CoreOut.andThen (r : CoreOut) (f : State → CoreOut) : CoreOut :=
  match r with
  | .ok s => f s
  | x => x

/-- A load of n bytes, sign-extended or not. -/
def State.coreLoad (s : State) (q : CoreReq) (a : Word) (n : Nat) (signed : Bool) : CoreOut :=
  match s.coreRead q a.toNat n with
  | .data bs => q.ret (s.coreTouch q a.toNat n) (word (if signed then sx (leNat bs) (8 * n) else leNat bs))
  | .bad => .trap 5 (some a)
  | .wait => .wait
  | .poison => .fault (s.coreReach q a.toNat n) scPoisonRead

/-- The writable bits of a CSR of R176; none if there is no such CSR, the reserved w = 7 of a stream included, and an access to it is an
illegal instruction. Bits that a legal value never sets read as zero (log 37). -/
def csrMask (n : Nat) : Option Nat :=
  if 0x7C0 ≤ n ∧ n < 0x7E0 then (if n % 8 = 7 then none else if n % 8 = 6 then some 3 else some 0xFFFFFFFF)
  else if n = 0x7E0 then some 0xFFC0
  else if n = 0x7E1 then some 0xFFFFFFC0
  else if n = 0x7E2 then some 0xC0000000
  else if n = 0x7E3 ∨ (0x7E8 ≤ n ∧ n < 0x7F0) then some 0xFFFFFFFF
  else none

/-- CSRRW, CSRRS, CSRRC and their immediate forms. -/
def State.coreCsr (s : State) (q : CoreReq) : CoreOut :=
  let n := fld q.w 20 12
  let f3 := iF3 q.w
  match csrMask n with
  | none => q.illegal
  | some m =>
    let old := q.core.getCsr n
    let v := if 4 ≤ f3 then word (iRs1 q.w) else q.rs1
    let new := match f3 % 4 with
      | 1 => v
      | 2 => old ||| v
      | _ => old &&& ~~~v
    let writes := f3 % 4 == 1 || iRs1 q.w != 0
    q.next s (fun x => (if writes then x.setCsr n (new &&& word m) else x).set (iRd q.w) old)

/-- LR.W, SC.W and the AMOs: only in private and cluster memory (R172). -/
def State.coreAtomic (s : State) (q : CoreReq) : CoreOut :=
  let a := q.rs1.toNat
  let f5 := fld q.w 27 5
  let here := match q.core.space a 4 with
    | .priv _ => true
    | .clus _ => true
    | _ => false
  if iF3 q.w ≠ 2 ∨ (f5 = 2 ∧ iRs2 q.w ≠ 0) then q.illegal
  else if f5 = 2 then
    (if !here then .trap 5 (some q.rs1) else
      match s.coreRead q a 4 with
      | .data bs => q.next s (fun x => Core.set { x with resv := some a } (iRd q.w) (word (leNat bs)))
      | _ => .trap 5 (some q.rs1))
  else if f5 = 3 then
    (if !here then .trap 7 (some q.rs1)
    else if q.core.resv = some a then
      (s.coreWrite q a (leBytes 4 q.rs2.toNat)).andThen (fun s => q.next s (fun x => Core.set { x with resv := none } (iRd q.w) 0#32))
    else q.next s (fun x => Core.set { x with resv := none } (iRd q.w) 1#32))
  else
    match s.coreRead q a 4 with
    | .data bs =>
      (match amoOp f5 (word (leNat bs)) q.rs2 with
      | none => q.illegal
      | some v => if !here then .trap 7 (some q.rs1) else (s.coreWrite q a (leBytes 4 v.toNat)).andThen (fun s => q.ret s (word (leNat bs))))
    | _ => if (amoOp f5 0#32 0#32).isNone then q.illegal else .trap 7 (some q.rs1)

/-- One RV32IMAC instruction; of the privileged ones MRET and every CSR outside R176 are illegal instructions, and WFI does nothing (R172;
log 35). -/
def State.coreBase (s : State) (q : CoreReq) : CoreOut :=
  let w := q.w
  let f3 := iF3 w
  let pc := q.core.pc
  let jump := fun (target : Word) (link : Bool) =>
    CoreOut.ok (s.modCore q.t q.cl q.i (fun x => { (if link then x.set (iRd w) (pc + word q.len) else x) with pc := target }))
  match iOp w with
  | 0x37 => q.ret s (immU w)
  | 0x17 => q.ret s (pc + immU w)
  | 0x6F => jump (pc + immJ w) true
  | 0x67 => if f3 = 0 then jump ((q.rs1 + immI w) &&& 0xFFFFFFFE#32) true else q.illegal
  | 0x63 => if f3 = 2 ∨ f3 = 3 then q.illegal else if branchTaken f3 q.rs1 q.rs2 then jump (pc + immB w) false else q.next s id
  | 0x03 => if f3 = 3 ∨ 5 < f3 then q.illegal else s.coreLoad q (q.rs1 + immI w) (2 ^ (f3 % 4)) (decide (f3 < 4))
  | 0x23 =>
    if 2 < f3 then q.illegal
    else (s.coreWrite q (q.rs1 + immS w).toNat (leBytes (2 ^ f3) q.rs2.toNat)).andThen (fun s => q.next s id)
  | 0x13 =>
    if (f3 = 1 ∧ iF7 w ≠ 0) ∨ (f3 = 5 ∧ iF7 w ≠ 0 ∧ iF7 w ≠ 0x20) then q.illegal
    else q.ret s (aluOp f3 (f3 == 5 && iF7 w == 0x20) q.rs1 (immI w))
  | 0x33 =>
    if iF7 w = 1 then q.ret s (mulOp f3 q.rs1 q.rs2)
    else if iF7 w = 0 ∨ (iF7 w = 0x20 ∧ (f3 = 0 ∨ f3 = 5)) then q.ret s (aluOp f3 (iF7 w == 0x20) q.rs1 q.rs2)
    else q.illegal
  | 0x0F => if f3 = 0 then q.next s id else q.illegal
  | 0x2F => s.coreAtomic q
  | 0x73 =>
    if f3 = 4 then q.illegal
    else if f3 ≠ 0 then s.coreCsr q
    else if w = 0x00000073 then .trap 11 none
    else if w = 0x00100073 then .trap 3 none
    else if w = 0x10500073 then q.next s id
    else q.illegal
  | _ => q.illegal

/-- The extension instruction that a word is, by number, if R176 defines it and its literal fields are sound. -/
def extOp (w : Nat) : Option Nat :=
  let z1 := iRs1 w == 0
  let z2 := iRs2 w == 0
  let zd := iRd w == 0
  let ok := fun (b : Bool) (n : Nat) => if b then some n else none
  match iOp w, iF3 w, iF7 w with
  | 0x0B, 0, 0 => ok (z1 && decide (iRs2 w < 4)) 0
  | 0x0B, 1, 0 => ok (zd && decide (iRs2 w < 4)) 1
  | 0x0B, 2, 0 => some 2
  | 0x0B, 4, n => if n < 14 then ok (!(n == 4 || n == 7 || n == 8 || n == 12 || n == 13) || z2) (3 + n) else none
  | 0x2B, 0, 0 => some 17
  | 0x2B, 1, 0 => some 18
  | 0x2B, 2, 0 => some 19
  | 0x2B, 3, 0 => some 20
  | 0x2B, 3, 1 => some 21
  | 0x2B, 4, 0 => ok zd 22
  | 0x2B, 5, 0 => ok zd 23
  | 0x2B, 6, 0 => some 24
  | 0x5B, 0, 0 => some 25
  | 0x5B, 1, 0 => some 26
  | 0x7B, 0, 0 => some 27
  | 0x7B, 1, 0 => some 28
  | 0x7B, 2, 0 => some 29
  | 0x7B, 2, 1 => some 30
  | _, _, _ => none

/-- What a core finds at its PC. -/
inductive Fetched where
  | none
  | req (q : CoreReq)
  | out (r : CoreOut)

/-- The core's running instruction, of two or four bytes (R172). -/
def State.coreFetch (s : State) (t cl i : Nat) : Fetched :=
  let x := s.core t cl i
  match s.tileRun t with
  | none => .none
  | some (o, _) =>
    if !x.running || (s.cluster t cl).dispatch.isNone then .none else
      let q : CoreReq := { t := t, cl := cl, i := i, o := o, core := x, bits := 0, w := 0, len := 2 }
      let bad := fun (g : CoreGot) (a : Word) => match g with
        | .wait => CoreOut.wait
        | .poison => .fault (s.coreReach q a.toNat 2) scPoisonRead
        | _ => .trap 1 (some a)
      match s.coreRead q x.pc.toNat 2 with
      | .data lo =>
        let h := leNat lo
        if h % 4 ≠ 3 then .req { q with bits := h, w := (expandC h).getD 0 }
        else (match s.coreRead q (x.pc + 2#32).toNat 2 with
          | .data hi => let w := h + 65536 * leNat hi
            .req { q with bits := w, w := w, len := 4 }
          | g => .out (bad g (x.pc + 2#32)))
      | g => .out (bad g x.pc)

/-- Philox stream s of a core: its 128-bit counter, and the four words of its present block (R177). -/
def Core.pxCounter (x : Core) (k : Nat) : Nat :=
  let c := fun (w : Nat) => (x.getCsr (0x7C0 + 8 * k + w)).toNat
  c 2 + 2 ^ 32 * c 3 + 2 ^ 64 * c 4 + 2 ^ 96 * c 5

def Core.pxSet (x : Core) (k counter index : Nat) : Core :=
  let b := 0x7C0 + 8 * k
  ((((x.setCsr (b + 2) (word counter)).setCsr (b + 3) (word (counter / 2 ^ 32))).setCsr (b + 4) (word (counter / 2 ^ 64))).setCsr (b + 5)
    (word (counter / 2 ^ 96))).setCsr (b + 6) (word index)

def Core.pxWord (x : Core) (k : Nat) : Word :=
  let c := x.pxCounter k
  let b := philox (x.getCsr (0x7C0 + 8 * k)).toNat (x.getCsr (0x7C1 + 8 * k)).toNat (c % 2 ^ 32, c / 2 ^ 32 % 2 ^ 32, c / 2 ^ 64 % 2 ^ 32, c / 2 ^ 96 % 2 ^ 32)
  match (x.getCsr (0x7C6 + 8 * k)).toNat % 4 with
  | 0 => word b.1
  | 1 => word b.2.1
  | 2 => word b.2.2.1
  | _ => word b.2.2.2

/-- PX.NEXT (R177). -/
def pxNext (s : State) (q : CoreReq) : CoreOut :=
  let k := iRs2 q.w
  let n := (q.core.getCsr (0x7C6 + 8 * k)).toNat % 4
  let c := q.core.pxCounter k
  q.next s (fun x => (x.pxSet k (if n = 3 then (c + 1) % 2 ^ 128 else c) ((n + 1) % 4)).set (iRd q.w) (q.core.pxWord k))

/-- PX.SKIP (R176). -/
def pxSkip (s : State) (q : CoreReq) : CoreOut :=
  q.next s (fun x => x.pxSet (iRs2 q.w) ((q.core.pxCounter (iRs2 q.w) + q.rs1.toNat) % 2 ^ 128) 0)

/-- The value of PX.UNI where FP32 holds it exactly (R176). -/
def pxUniOf (x : Word) : Option Word :=
  let m := 2 * (x.toNat / 256) + 1
  if m < 2 ^ 24 then some (packF .nearest false m (-25)) else none

/-- The value of PX.UNI where FP32 does not hold it: one of the two FP32 values beside it, as long as it lies below 1; which, the spec does not
say (R176; log 38). -/
def pxUniNear (x : Word) (up : Bool) : Word :=
  let k := x.toNat / 256
  packF .nearest false (if up && decide (k + 1 < 2 ^ 24) then k + 1 else k) (-24)

/-- The value of PX.UNI: a function of the word alone (R176, R325, R327; log 38). -/
def pxUniValue (x : Word) : Word := (pxUniOf x).getD (pxUniNear x (Config.uniUp x))

/-- PX.UNI (R176). -/
def pxUni (s : State) (q : CoreReq) : CoreOut := q.ret s (pxUniValue q.rs1)

/-- HF operation n of R176: as the vector engine's, in full precision (R178, R213). -/
def hfOp (n : Nat) (s : State) (q : CoreReq) : CoreOut :=
  let op := match n with
    | 0 => 0x01
    | 1 => 0x02
    | 2 => 0x03
    | 3 => 0x05
    | 4 => 0x0A
    | 5 => 0x06
    | 6 => 0x07
    | 7 => 0x0D
    | 8 => 0x0E
    | 9 => 0x11
    | 10 => 0x12
    | 11 => 0x13
    | 12 => 0x1E
    | _ => 0x1F
  q.ret s (uopValue false op 0 q.rs1 q.rs2 0#32)

/-- LT.LD (R299). -/
def ltLd (s : State) (q : CoreReq) : CoreOut :=
  let e := s.seqEntry q.rs1.toNat
  if 65535 < q.rs1.toNat ∨ !s.ownsSeq q.o.1 q.rs1.toNat then .trap 5 none else q.ret s (word (if e.live then e.len else 0))

/-- The unit under which an LT.ADD's result is kept for the partner (R405). -/
def CoreReq.ltUnit (q : CoreReq) : Nat := 0x2000000 + q.unit

/-- LT.ADD; a partner's returns the primary's result (R299, R405). -/
def ltAdd (s : State) (q : CoreReq) : CoreOut :=
  let n := q.rs1.toNat
  let e := s.seqEntry n
  let new := (e.len : Int) + q.rs2.toInt
  match s.tileRun q.t with
  | none => .wait
  | some (_, r) =>
    if 65535 < n ∨ !s.ownsSeq q.o.1 n then .trap 7 none
    else if r.isPartner q.t then
      (match (s.tile (q.t - 48)).writes.find? (fun w => w.1 == q.ltUnit) with
      | some w => q.ret (s.modTile (q.t - 48) (fun x => { x with writes := x.writes.erase w })) (word (leNat w.2.2))
      | none => .wait)
    else if !e.live || decide (new < 0) || decide ((s.lenLimit q.o.1 e : Int) < new) then .trap 7 none
    else
      let s1 := s.setSeq n { e with len := new.toNat }
      q.ret (if r.partner then s1.modTile q.t (fun x => { x with writes := x.writes ++ [(q.ltUnit, n, leBytes 4 e.len)] }) else s1) (word e.len)

/-- PL.MAP (R302). -/
def plMap (s : State) (q : CoreReq) : CoreOut :=
  let n := q.rs1.toNat
  let c := q.o.1
  let pos := q.rs2.toNat
  let e := s.seqEntry n
  let k := pos / s.kvT c
  let at_ := e.base + k * s.planes c
  if 65535 < n ∨ !s.ownsSeq c n then .trap 5 none
  else q.ret s (if !e.live || decide (2 ^ 24 ≤ pos) || decide (e.cap ≤ k) || !entryValid (s.entry at_) then 0xFFFFFFFF#32 else word at_)

/-- PL.LDL and PL.LDH (R176). -/
def plLd (high : Bool) (s : State) (q : CoreReq) : CoreOut :=
  let e := q.rs1.toNat
  if 2097151 < e ∨ !s.ownsEntries q.o.1 e 1 then .trap 5 none
  else q.ret s (word ((s.entry e).toNat / (if high then 2 ^ 32 else 1)))

/-- PL.ST; a value with STATE EMPTY leaves the entry all zeros (R301, R302, R405). -/
def plSt (s : State) (q : CoreReq) : CoreOut :=
  let e := q.rs1.toNat
  let c := q.o.1
  let here := match q.core.space q.rs2.toNat 8 with
    | .priv _ => true
    | .clus _ => true
    | _ => false
  match (if here then s.coreRead q q.rs2.toNat 8 else .bad) with
  | .data bs =>
    let v := dword (leNat bs)
    if 2097151 < e ∨ !s.ownsEntries c e 1 ∨ 2 ≤ fld v.toNat 62 2 ∨ fld v.toNat 44 17 ≠ 0 ∨ !s.inRange c (entryObj v) then .trap 7 none
    else q.next (s.tileWrite q.t q.unit e bs (fun s => s.setEntry e (if entryValid v then v else 0#64))) id
  | _ => .trap 5 (some q.rs2)

/-- SC.PUT (R180, R303, R405): the copy is queued with the bytes it takes now (log 39). -/
def scPut (s : State) (q : CoreReq) : CoreOut :=
  let a := q.rs1.toNat
  let e := q.rs2.toNat
  let c := q.o.1
  let len := let n := (q.core.getCsr 0x7E0).toNat
    if n = 0 then 65536 else n
  let off := (q.core.getCsr 0x7E1).toNat
  let v := s.entry e
  let at_ := entryPage v * s.pageBytes c
  match s.obj? (entryObj v) with
  | some x =>
    if storeBytes < a + len ∨ 2097151 < e ∨ !s.ownsEntries c e 1 ∨ !entryValid v ∨ entryShared v ∨ x.ctx ≠ c ∨ x.state = 2 ∨ x.readOnly
        ∨ s.pageBytes c < off + len ∨ x.size < at_ + off + len then .trap 7 none
    else
      let u := x.ubase + at_ + off
      let bs := (s.seenNow q.t).store.readN a len
      q.next ((s.drewNow q.t).tileWrite q.t q.unit u bs (fun s => (s.touch ⟨.dev (entryObj v), u, 0⟩).modCore q.t q.cl q.i (fun y => { y with puts := y.puts ++ [(u, bs)] }))) id
  | none => .trap 7 none

/-- A core's queued copies reach the junction cache: at its SC.WAIT, its HX.DONE or its stop, and no earlier (R180; log 39). -/
def State.flushPuts (s : State) (t cl i : Nat) : State :=
  (s.core t cl i).puts.foldl (fun (s : State) p => s.devWrite p.1 p.2) (s.modCore t cl i (fun x => { x with puts := [] }))

/-- A queued copy waits for a path to the host: its page lies in the slow tier (R113, R221). -/
def State.putsWait (s : State) (x : Core) : Bool :=
  !s.pathUp .pf && x.puts.any (fun p => (s.frameAt p.1).any (fun f => decide (524288 ≤ f)))

/-- SC.WAIT (R180). -/
def scWait (s : State) (q : CoreReq) : CoreOut := if s.putsWait q.core then .wait else q.next (s.flushPuts q.t q.cl q.i) id

/-- DG.INIT (R176). -/
def dgInit (s : State) (q : CoreReq) : CoreOut := q.next s (fun x => sha256Init.zipIdx.foldl (fun (x : Core) h => x.setCsr (0x7E8 + h.2) (word h.1)) x)

/-- DG.BLK (R176). -/
def dgBlk (s : State) (q : CoreReq) : CoreOut :=
  match s.coreRead q q.rs1.toNat 64 with
  | .data bs =>
    let st := sha256Block ((List.range 8).map (fun n => (q.core.getCsr (0x7E8 + n)).toNat)) bs
    q.next (s.coreTouch q q.rs1.toNat 64) (fun x => st.zipIdx.foldl (fun (x : Core) h => x.setCsr (0x7E8 + h.2) (word h.1)) x)
  | .bad => .trap 5 (some q.rs1)
  | .wait => .wait
  | .poison => .fault (s.coreReach q q.rs1.toNat 64) scPoisonRead

/-- The clusters of the dispatch that a cluster runs (R175). -/
def Tile.dispatchClusters (x : Tile) (cl : Nat) : List Nat :=
  (x.clusters.filter (fun (c : Nat × Cluster) => c.2.dispatch.isSome && c.2.dispatch == (x.clusters.get {} cl).dispatch)).map (fun c => c.1)

/-- HX.DONE: the core stops; with the last core of the dispatch the PDISPATCH completes (R152, R173). -/
def hxDone (s : State) (q : CoreReq) : CoreOut :=
  if s.putsWait q.core then .wait else
    let s1 := (s.flushPuts q.t q.cl q.i).modCore q.t q.cl q.i (fun x => { x with running := false, pc := q.core.pc + word q.len })
    let cls := (s1.tile q.t).dispatchClusters q.cl
    if cls.any (fun c => (s1.cluster q.t c).cores.any (fun (k : Nat × Core) => k.2.running)) then .ok s1
    else .ok (match (s1.cluster q.t q.cl).dispatch with
      | some id => (cls.foldl (fun (s : State) c => s.modCluster q.t c (fun x => { x with dispatch := none })) s1).complete1 q.t id
      | none => s1)

/-- HX.SIG (R154, R176). -/
def hxSig (s : State) (q : CoreReq) : CoreOut := q.next (s.addEvent q.t (q.rs1.toNat % 32) (q.rs2.toNat % 65536)) id

/-- HX.TIME and HX.TIMEH (R176). -/
def hxTime (high : Bool) (s : State) (q : CoreReq) : CoreOut := q.ret s (word (s.time.toNat / (if high then 2 ^ 32 else 1)))

/-- What the instruction of a core does, whichever it is. -/
def State.coreAny (s : State) (q : CoreReq) : CoreOut :=
  if q.len = 2 then s.coreBase q else
    match extOp q.w with
    | none => s.coreBase q
    | some 0 => pxNext s q
    | some 1 => pxSkip s q
    | some 2 => pxUni s q
    | some 17 => ltLd s q
    | some 18 => ltAdd s q
    | some 19 => plMap s q
    | some 20 => plLd false s q
    | some 21 => plLd true s q
    | some 22 => plSt s q
    | some 23 => scPut s q
    | some 24 => scWait s q
    | some 25 => dgInit s q
    | some 26 => dgBlk s q
    | some 27 => hxDone s q
    | some 28 => hxSig s q
    | some 29 => hxTime false s q
    | some 30 => hxTime true s q
    | some n => hfOp (n - 3) s q

/-- Stops every core of some clusters of a tile; what their cores had queued is written (R98, R175). -/
def State.stopClusters (s : State) (t : Nat) (cls : List Nat) : State :=
  cls.foldl (fun (s : State) c =>
    ((List.range 32).foldl (fun (s : State) i => s.flushPuts t c i) s).modCluster t c (fun x => { x with
      dispatch := none
      cores := x.cores.map (fun (k : Nat × Core) => (k.1, { k.2 with running := false })) })) s

/-- A trap: the first is recorded, every core of the dispatch's clusters stops, and the EXEC ends with PREP_FAULT (R175). -/
def State.coreTrap (s : State) (t cl i cause : Nat) (tval : Option Word) : State :=
  let x := s.tile t
  let v := tval.getD (word s.free.toNat)
  let s1 := if bitOf x.prepFault.toNat 31 then s else
    (if tval.isSome then s else s.bump).modTile t (fun y => { y with
      prepFault := word (2 ^ 31 + cl * 2 ^ 21 + i * 2 ^ 16 + cause)
      prepEpc := (s.core t cl i).pc
      prepTval := v })
  (s1.stopClusters t (x.dispatchClusters cl)).fault t scPrepFault none

/-- Applies what an instruction came to. -/
def State.coreApply (s : State) (t cl i : Nat) (r : CoreOut) : State :=
  match r with
  | .ok s' => s'.countTile t 0x13 1
  | .trap c v => s.coreTrap t cl i c v
  | .wait => s
  | .fault s' c => s'.fault t c none

/-- Core (cl, i) of tile t executes its instruction if it is extension instruction n. -/
def State.coreExt (s : State) (t cl i n : Nat) (f : State → CoreReq → CoreOut) : State :=
  match s.coreFetch t cl i with
  | .req q => if q.len = 4 ∧ extOp q.w = some n then s.coreApply t cl i (f s q) else s
  | _ => s

/-- PREP_CORE_INSTRUCTION: an instruction that is no extension instruction, its traps included (R172). -/
def State.coreStep (s : State) (t cl i : Nat) : State :=
  match s.coreFetch t cl i with
  | .req q => if q.len = 4 ∧ (extOp q.w).isSome then s else s.coreApply t cl i (s.coreBase q)
  | .out r => s.coreApply t cl i r
  | .none => s

/-- PREP_CORE_INSTRUCTION (R172). -/
def execPrepCoreInstruction (t : TileId) (cl : Fin 27) (i : Fin 32) (s : State) : Host.Outcome State Fault Refusal := .next (s.coreStep t cl i)

/-- PREP_TRAP: the core's instruction traps (R175). -/
def State.prepTrap (s : State) (t cl i : Nat) : State :=
  match (match s.coreFetch t cl i with
    | .req q => s.coreAny q
    | .out r => r
    | .none => .wait) with
  | .trap c v => s.coreTrap t cl i c v
  | _ => s

/-- PREP_TRAP (R175). -/
def execPrepTrap (t : TileId) (cl : Fin 27) (i : Fin 32) (s : State) : Host.Outcome State Fault Refusal := .next (s.prepTrap t cl i)

/-- PX.NEXT (R177). -/
def execPxNext (t : TileId) (cl : Fin 27) (i : Fin 32) (s : State) : Host.Outcome State Fault Refusal := .next (s.coreExt t cl i 0 pxNext)

/-- PX.SKIP (R176). -/
def execPxSkip (t : TileId) (cl : Fin 27) (i : Fin 32) (s : State) : Host.Outcome State Fault Refusal := .next (s.coreExt t cl i 1 pxSkip)

/-- PX.UNI (R176). -/
def execPxUni (t : TileId) (cl : Fin 27) (i : Fin 32) (s : State) : Host.Outcome State Fault Refusal := .next (s.coreExt t cl i 2 pxUni)

/-- HF.ADD (R178). -/
def execHfAdd (t : TileId) (cl : Fin 27) (i : Fin 32) (s : State) : Host.Outcome State Fault Refusal := .next (s.coreExt t cl i 3 (hfOp 0))

/-- HF.SUB (R178). -/
def execHfSub (t : TileId) (cl : Fin 27) (i : Fin 32) (s : State) : Host.Outcome State Fault Refusal := .next (s.coreExt t cl i 4 (hfOp 1))

/-- HF.MUL (R178). -/
def execHfMul (t : TileId) (cl : Fin 27) (i : Fin 32) (s : State) : Host.Outcome State Fault Refusal := .next (s.coreExt t cl i 5 (hfOp 2))

/-- HF.DIV (R178). -/
def execHfDiv (t : TileId) (cl : Fin 27) (i : Fin 32) (s : State) : Host.Outcome State Fault Refusal := .next (s.coreExt t cl i 6 (hfOp 3))

/-- HF.SQRT (R178). -/
def execHfSqrt (t : TileId) (cl : Fin 27) (i : Fin 32) (s : State) : Host.Outcome State Fault Refusal := .next (s.coreExt t cl i 7 (hfOp 4))

/-- HF.MIN (R178). -/
def execHfMin (t : TileId) (cl : Fin 27) (i : Fin 32) (s : State) : Host.Outcome State Fault Refusal := .next (s.coreExt t cl i 8 (hfOp 5))

/-- HF.MAX (R178). -/
def execHfMax (t : TileId) (cl : Fin 27) (i : Fin 32) (s : State) : Host.Outcome State Fault Refusal := .next (s.coreExt t cl i 9 (hfOp 6))

/-- HF.EXP (R178). -/
def execHfExp (t : TileId) (cl : Fin 27) (i : Fin 32) (s : State) : Host.Outcome State Fault Refusal := .next (s.coreExt t cl i 10 (hfOp 7))

/-- HF.LOG (R178). -/
def execHfLog (t : TileId) (cl : Fin 27) (i : Fin 32) (s : State) : Host.Outcome State Fault Refusal := .next (s.coreExt t cl i 11 (hfOp 8))

/-- HF.LT (R178). -/
def execHfLt (t : TileId) (cl : Fin 27) (i : Fin 32) (s : State) : Host.Outcome State Fault Refusal := .next (s.coreExt t cl i 12 (hfOp 9))

/-- HF.LE (R178). -/
def execHfLe (t : TileId) (cl : Fin 27) (i : Fin 32) (s : State) : Host.Outcome State Fault Refusal := .next (s.coreExt t cl i 13 (hfOp 10))

/-- HF.EQ (R178). -/
def execHfEq (t : TileId) (cl : Fin 27) (i : Fin 32) (s : State) : Host.Outcome State Fault Refusal := .next (s.coreExt t cl i 14 (hfOp 11))

/-- HF.CVTSW (R178). -/
def execHfCvtSW (t : TileId) (cl : Fin 27) (i : Fin 32) (s : State) : Host.Outcome State Fault Refusal := .next (s.coreExt t cl i 15 (hfOp 12))

/-- HF.CVTWS (R178). -/
def execHfCvtWS (t : TileId) (cl : Fin 27) (i : Fin 32) (s : State) : Host.Outcome State Fault Refusal := .next (s.coreExt t cl i 16 (hfOp 13))

/-- LT.LD (R299). -/
def execLtLd (t : TileId) (cl : Fin 27) (i : Fin 32) (s : State) : Host.Outcome State Fault Refusal := .next (s.coreExt t cl i 17 ltLd)

/-- LT.ADD (R299). -/
def execLtAdd (t : TileId) (cl : Fin 27) (i : Fin 32) (s : State) : Host.Outcome State Fault Refusal := .next (s.coreExt t cl i 18 ltAdd)

/-- PL.MAP (R302). -/
def execPlMap (t : TileId) (cl : Fin 27) (i : Fin 32) (s : State) : Host.Outcome State Fault Refusal := .next (s.coreExt t cl i 19 plMap)

/-- PL.LDL (R176). -/
def execPlLdl (t : TileId) (cl : Fin 27) (i : Fin 32) (s : State) : Host.Outcome State Fault Refusal := .next (s.coreExt t cl i 20 (plLd false))

/-- PL.LDH (R176). -/
def execPlLdh (t : TileId) (cl : Fin 27) (i : Fin 32) (s : State) : Host.Outcome State Fault Refusal := .next (s.coreExt t cl i 21 (plLd true))

/-- PL.ST (R302). -/
def execPlSt (t : TileId) (cl : Fin 27) (i : Fin 32) (s : State) : Host.Outcome State Fault Refusal := .next (s.coreExt t cl i 22 plSt)

/-- SC.PUT (R303). -/
def execScPut (t : TileId) (cl : Fin 27) (i : Fin 32) (s : State) : Host.Outcome State Fault Refusal := .next (s.coreExt t cl i 23 scPut)

/-- SC.WAIT (R180). -/
def execScWait (t : TileId) (cl : Fin 27) (i : Fin 32) (s : State) : Host.Outcome State Fault Refusal := .next (s.coreExt t cl i 24 scWait)

/-- DG.INIT (R176). -/
def execDgInit (t : TileId) (cl : Fin 27) (i : Fin 32) (s : State) : Host.Outcome State Fault Refusal := .next (s.coreExt t cl i 25 dgInit)

/-- DG.BLK (R176). -/
def execDgBlk (t : TileId) (cl : Fin 27) (i : Fin 32) (s : State) : Host.Outcome State Fault Refusal := .next (s.coreExt t cl i 26 dgBlk)

/-- HX.DONE (R173). -/
def execHxDone (t : TileId) (cl : Fin 27) (i : Fin 32) (s : State) : Host.Outcome State Fault Refusal := .next (s.coreExt t cl i 27 hxDone)

/-- HX.SIG (R176). -/
def execHxSig (t : TileId) (cl : Fin 27) (i : Fin 32) (s : State) : Host.Outcome State Fault Refusal := .next (s.coreExt t cl i 28 hxSig)

/-- HX.TIME (R176). -/
def execHxTime (t : TileId) (cl : Fin 27) (i : Fin 32) (s : State) : Host.Outcome State Fault Refusal := .next (s.coreExt t cl i 29 (hxTime false))

/-- HX.TIMEH (R176). -/
def execHxTimeh (t : TileId) (cl : Fin 27) (i : Fin 32) (s : State) : Host.Outcome State Fault Refusal := .next (s.coreExt t cl i 30 (hxTime true))

end Sys2Proof.Machine
end

