-- ==== Sys2Proof/Machine/Exec.lean ====
section
/-!
DEFINITION. EXEC (R89, R98): its checks, the start of a program on its tiles, the stop at safe points, and the overflow log (R209, R210).
-/
namespace Sys2Proof.Machine

/-- The tiles a run uses: those of TILE_MASK, and their partners with REDUNDANT (R405). -/
def ExecRun.allTiles (r : ExecRun) : TileMask := if r.partner then r.tiles ||| (r.tiles <<< 48) else r.tiles
def ExecRun.tileList (r : ExecRun) : List Nat := bitList r.allTiles.toNat 96

/-- A tile that check 5 refuses: it or its die is fenced, or a rail of its die is tripped (R23, R102, R406). -/
def State.tileOut (s : State) (t : Nat) : Bool := s.tileFenced t || s.dieRailOff (t / 12)

/-- REDUNDANT of TRN_MP_CTL (R405). -/
def State.redundant (s : State) (c : Nat) : Bool := bitOf (s.reg (rMpCtl c)) 31

/-- A run may not use a mask: a tile outside the context's, or what R405 asks of REDUNDANT (R102, R405). -/
def State.maskBad (s : State) (c : Nat) (m : TileMask) : Bool :=
  m &&& ~~~(s.ctx c).mask != 0#96 || (s.redundant c && (decide (2 ^ 48 ≤ m.toNat) || (m <<< 48) &&& ~~~(s.ctx c).mask != 0#96))

/-- The checks of EXEC (R98, R102, R145). -/
def execChk (c : Nat) (s : State) (d : Desc) : Chk :=
  let m : TileMask := BitVec.ofNat 96 (d.num 24 12)
  { reserved := [(53, 11)]
    reservedBits := [(decide (2 ≤ d.num 52 1), 52)]
    format := [badRef d 16, (d.num 16 8 % 16 != 0, 16), allOnes d 24 12, allOnes d 36 4, (d.num 36 4 % 16 != 0, 36), badRef d 40, allOnes d 48 4,
      (decide (4096 < d.num 48 4), 48)]
    auth := [(s.maskBad c m, 24)]
    fenced := (if s.redundant c then bitList (m ||| (m <<< 48)).toNat 96 else bitList m.toNat 96).find? s.tileOut
    bounds := [(decide ((s.resolve c (d.num 16 8)).extent < d.num 36 4), 36), (decide ((s.resolve c (d.num 40 8)).extent < d.num 48 4), 48)]
    zero := m == 0#96 || d.num 36 4 == 0 }

/-- The program object that CODE names at offset 0, if it does (R204, R241, R343). -/
def progOf (code : Nat) : Option Nat := if fld code 60 4 = 0 ∧ refOff code = 0 then some (refId code) else none

/-- A tile begins a program: event counters and tap slots cleared (R151, R168); its store, accumulators, scoreboard and active set
stay (R436), and so do the remote signals on their way (R154). A sleeping tile wakes (R66). -/
def Tile.begin (x : Tile) (o : Nat × Nat × Nat) : Tile :=
  { x with
    seq := { owner := some o, nextId := x.seq.nextId, evSat := x.seq.evSat }
    taps := []
    writes := []
    waking := x.waking || x.sleep != .running }

/-- The tiles that a run waits for: one with a program, or under a self-test slice (R89, R426). -/
def State.tilesBusy (s : State) (ts : List Nat) : Bool := ts.any (fun t => (s.tile t).seq.owner.isSome || (s.tile t).slice == .running)

/-- A run that waits for its tiles and shares one started before: EXECs with a common tile run in start order, the entries of a SERVE_STEP
among them (R89, R322). -/
def State.earlierWaits (s : State) (o : Nat × Nat × Nat) (d : Desc) (r : ExecRun) : Bool :=
  (s.ctx o.1).descs.any (fun e => decide (e.start.getD 0 < d.start.getD 0) && e.ending.isNone &&
    e.work.run?.any (fun q => q.running == 0#96 && q.ending.isNone && q.overflow.isNone && q.allTiles &&& r.allTiles != 0#96))

/-- The program of a run starts on every tile, once they are free (R89, R98). -/
def State.beginRun (s : State) (o : Nat × Nat × Nat) : State :=
  match (s.ctx o.1).find o.2.1 o.2.2, s.run? o with
  | some d, some r =>
    if r.running != 0#96 || r.ending.isSome || r.overflow.isSome || s.tilesBusy r.tileList || s.earlierWaits o d r then s
    else (r.tileList.foldl (fun (s : State) t => s.modTile t (fun x => x.begin o)) s).modRun o (fun r => { r with running := r.allTiles })
  | _, _ => s

/-- EXEC starts: the plan's cursor moves, and its program begins or waits for its tiles (R89, R98, R241). -/
def runExec (c : Nat) (s : State) (d : Desc) : State :=
  let r : ExecRun :=
    { tiles := BitVec.ofNat 96 (d.num 24 12), code := dword (s.pinRef c (d.num 16 8)), named := dword (d.num 16 8), codeBytes := d.num 36 4, args := dword (s.pinRef c (d.num 40 8))
      argBytes := d.num 48 4, debug := bitOf (d.num 52 1) 0, partner := s.redundant c }
  let s1 := (s.touchRefs c [d.num 16 8, d.num 40 8]).setWork c d (.exec r)
  let s2 := match progOf (d.num 16 8) with
    | some p => s1.planStart c p
    | none => s1
  s2.beginRun (c, d.ring, d.pos)

/-- EXEC: starts, and the same command again begins a started one that waited for its tiles (R89, R98). -/
def State.execCommand (s : State) (c q : Nat) (p : Word) : State :=
  let s1 := s.startDesc c q p (fun d => d.opcode == 3) (fun _ => s.holdExec c || (s.ctx c).editHolds) (execChk c) (runExec c)
  match s1.desc? c q p with
  | some d => if d.opcode = 3 ∧ d.ending.isNone then s1.beginRun (c, d.ring, d.pos) else s1
  | none => s1

/-- EXEC (R98). -/
def execExecStart (c : CtxId) (q : RingId) (p : Word) (s : State) : Host.Outcome State Fault Refusal := .next (s.execCommand c q p)

/-- A tile has reached its safe point: passes in flight have committed or been discarded, no vote, and what runs on its units has
ended; with `all` what its units have queued too (R98, R143). -/
def State.tileSafe (s : State) (t : Nat) (all : Bool) : Bool :=
  let x := s.tile t
  x.mx.passes.isEmpty && x.mx.vote.isNone && x.mx.drains.isEmpty && !x.vec.any (fun v => v.started) && !x.dma.any (fun d => d.started)
    && (!all || (x.mx.queue.isEmpty && x.mx.shadow.all (fun h => h.loaded) && x.vec.isEmpty && x.dma.isEmpty))

/-- No prep dispatch of a tile is queued or runs. -/
def State.prepSafe (s : State) (t : Nat) : Bool := (s.tile t).prep.isEmpty && (s.tile t).clusters.all (fun c => c.2.dispatch.isNone)

/-- A tile's program is stopped: what has not started is dropped, with the scoreboard as before the first pass dropped, and the shadow
set (R143). -/
def Tile.stopProgram (x : Tile) : Tile :=
  { x with
    mx := { x.mx with
      queue := []
      score := ((x.mx.queue.find? (fun q => top q.word == 2)).map (fun q => q.before)).getD x.mx.score
      shadow := none }
    vec := []
    dma := []
    prep := []
    tags := x.tags.filter (fun g => !g.id.any (fun i => x.seq.busy.any (fun b => b.1 == i)))
    seq := { nextId := x.seq.nextId, evSat := x.seq.evSat }
    writes := [] }

/-- Stops the program of a run on the tiles that still run it, and the prep clusters of its dispatches (R98, R205). -/
def State.stopRun (s : State) (o : Nat × Nat × Nat) (r : ExecRun) : State :=
  r.tileList.foldl (fun (s : State) t =>
    if (s.tile t).seq.owner = some o then
      (s.stopClusters t (((s.tile t).clusters.filter (fun (c : Nat × Cluster) => c.2.dispatch.isSome)).map (fun c => c.1))).modTile t Tile.stopProgram
    else s) s

/-- All tiles of a run are at safe points; on the tile whose fault ended it, what it had issued before has ended, a shadow set of that has
become active, and after ACC_ORDER its prep dispatches have ended (R98, R104, R131, R143; log 28). -/
def State.runSafe (s : State) (o : Nat × Nat × Nat) (r : ExecRun) : Bool :=
  r.tileList.all (fun t => (s.tile t).seq.owner != some o
    || (s.tileSafe t (s.tile t).seq.finish && (!(s.tile t).seq.finish || (s.tile t).mx.shadow.isNone) && (!r.completes t || s.prepSafe t)))

/-- The numerics header: STEP and MICRO_BATCH of the argument block; zero if it is shorter than 16 bytes (R208). What a failed read
would have given is free (log 42). -/
def State.numHeader (s : State) (c : Nat) (r : ExecRun) : List Byte :=
  if r.argBytes < 16 then leBytes 12 0 else
    match r.argCopy with
    | some bs => bs.take 12
    | none =>
      let g := s.readHeld c r.args.toNat 0 12
      g.data ++ (s.freeBytes 12).drop g.data.length

/-- Writes one overflow log record (R209, R210). -/
def State.logOverflow (s : State) (c : Nat) (r : ExecRun) (x : Overflow) (rollout : Bool) (tag : Nat) (wider : Option Nat) : State :=
  let cfg := s.reg (rOvfLogCfg c)
  if !bitOf cfg 31 then s else
    let k := (s.ctx c).ovfProduced
    let slot := k.toNat % 2 ^ (min (fld cfg 0 4) 10 + 6)
    let kind := b2n x.nonfinite + 2 * b2n x.saturated + 4 * b2n wider.isNone + 8 * b2n rollout + 16 * b2n x.entry.isNone
    let record := s.numHeader c r ++ leBytes 2 (x.entry.elim 65535 (fun e => e.1)) ++ [byte (x.entry.elim 255 (fun e => e.2)), byte (wider.getD 255)]
      ++ leBytes 4 (min x.count 0xFFFFFFFF) ++ leBytes 2 x.tile ++ [byte kind, byte (if wider.isSome then r.repeats + 1 else 0)] ++ leBytes 8 tag
    let s1 := if r.argBytes < 16 ∨ r.argCopy.isSome then s.bump else s.bump.reachHeld c r.args.toNat 0 12
    (s1.writeRef c (s.reg (rOvfLogBase c)) (32 * slot) record).modCtx c (fun y => { y with ovfProduced := k + 1#32 })

/-- RESULT of an EXEC that completes with OK (R207). -/
def ExecRun.result (r : ExecRun) : Nat :=
  if r.ovfCount = 0 then 0 else r.ovfCount * 2 ^ 16 + r.fmt * 2 ^ 8 + r.repeats

/-- The tiles of a run that its repeat may take: its own, and those whose part had ended and that no other program or slice holds (R89,
R205). -/
def State.repeatFree (s : State) (o : Nat × Nat × Nat) (r : ExecRun) : Bool :=
  r.tileList.all (fun t => (s.tile t).seq.owner == some o || ((s.tile t).seq.owner.isNone && (s.tile t).slice != .running))

/-- OVERFLOW_REPEAT: all tiles are at safe points; the record is written and the wider program starts on the same tiles (R205). -/
def State.overflowRepeat (s : State) (c : Nat) (d : Desc) (r : ExecRun) (rollout : Bool) : State :=
  let o := (c, d.ring, d.pos)
  match r.overflow with
  | some x =>
    (match x.wide with
    | some (obj, bytes, fmt) =>
      if r.ending.isSome || r.running == 0#96 || !s.runSafe o r || !s.repeatFree o r then s else
        let s1 := (s.stopRun o r).logOverflow c r x rollout d.tag (some fmt)
        let r' : ExecRun := { r with running := r.allTiles, code := dword (s.pinRef c (obj * 2 ^ 40)), named := dword (obj * 2 ^ 40), codeBytes := bytes, overflow := none, repeats := r.repeats + 1, fmt := fmt }
        (r.tileList.foldl (fun (s : State) t => s.modTile t (fun y => y.begin o)) s1).modRun o (fun _ => r')
    | none => s)
  | none => s

/-- OVERFLOW_REPEAT (R205). -/
def execOverflowRepeat (c : CtxId) (q : RingId) (p : Word) (s : State) : Host.Outcome State Fault Refusal :=
  .next (match s.desc? c q p with
    | some d => (match d.work.run? with
      | some r => s.overflowRepeat c d r (d.opcode == 9)
      | none => s)
    | none => s)

/-- CTX_NUM_CTL: while Idle; a write that sets CONCORDANT with AK6 or FAST_COLL is discarded whole (R202, R216). -/
def State.writeNumCtl (s : State) (c : Nat) (v : Word) : State :=
  if (s.ctx c).state != .idle || (bitOf v.toNat 0 && (bitOf v.toNat 1 || bitOf v.toNat 2)) then s else s.setReg (rNumCtl c) (v.toNat % 16)

/-- CTX_NUM_CTL (R202). -/
def execCtxNumCtlWrite (f : Func) (c : CtxId) (v : Word) (s : State) : Host.Outcome State Fault Refusal := .next (s.ctxWrite f c (fun s => s.writeNumCtl c v))

end Sys2Proof.Machine
end

