-- ==== Sys2Proof/Machine/Serve.lean ====
section
/-!
DEFINITION. The rollout service (R319 to R338): SERVE_STEP with its phases, the sampler, Tollgate and adapters; and how a run of
tile programs ends (R98, R149, R207).
-/
namespace Sys2Proof.Machine

/-- A batch record as read: the fields, its tokens and its sampling block, none where they cannot be read (R320, R326). -/
structure RawRec where
  r : List Byte
  tokens : Option (List Word) := none
  params : Option (List Byte) := none

def rSeq (r : List Byte) : Nat := recNat r 0 2
def rNew (r : List Byte) : Nat := recNat r 2 2
def rFirst (r : List Byte) : Bool := bitOf (recNat r 4 1) 0
def rSample (r : List Byte) : Bool := bitOf (recNat r 4 1) 1
def rFeed (r : List Byte) : Bool := bitOf (recNat r 4 1) 2
def rHandle (r : List Byte) : DWord := dword (recNat r 16 8)

def serveNrec (d : Desc) : Nat := d.num 24 4
def serveNplan (d : Desc) : Nat := d.num 28 2

/-- The records of BATCH, if they can be read. -/
def State.serveBatch (s : State) (c : Nat) (d : Desc) : Option (List (List Byte)) :=
  if 16384 < serveNrec d ∨ s.refWaits c (d.num 16 8) then none
  else (s.readRef c (d.num 16 8) 0 (32 * serveNrec d)).map (fun bs => records 32 (serveNrec d) bs)

def State.vocab (s : State) (c : Nat) : Nat := fld (s.reg (rServeCfg c)) 0 19

/-- A record with what its references give. -/
def State.rawRec (s : State) (c : Nat) (r : List Byte) : RawRec :=
  { r := r
    tokens := if rFeed r ∨ 2048 < rNew r then none else (s.readRef c (recNat r 8 8) 0 (4 * rNew r)).map (fun bs => (records 4 (rNew r) bs).map (fun b => word (leNat b)))
    params := if rFirst r then s.readRef c (recNat r 24 8) 0 64 else none }

/-- A malformed sampling block (R326). -/
def samplingBad (vocab : Nat) (b : List Byte) : Bool :=
  let temp := word (recNat b 16 4)
  let topP := word (recNat b 20 4)
  let n := recNat b 36 1
  !isFinite temp || signOf temp || !isFinite topP || !flt 0#32 topP || !fle topP f32One || (vocab != 0 && decide (vocab < recNat b 24 4))
    || recNat b 28 4 == 0 || decide (2 ^ 24 ≤ recNat b 28 4) || decide (6 < n) || recNat b 37 3 != 0 || recNat b (40 + 4 * n) (24 - 4 * n) != 0

/-- The check-3 failure of record i (R321). -/
def recFormatBad (vocab : Nat) (before : List (List Byte)) (x : RawRec) : Bool :=
  let r := x.r
  let a := recNat r 6 2
  decide (8 ≤ recNat r 4 1) || recNat r 5 1 != 0 || rNew r == 0 || decide (2048 < rNew r) || decide (16384 < ((before.map rNew).sum + rNew r))
    || (rFeed r && (rNew r != 1 || rFirst r || recNat r 8 8 != 0)) || (!rFeed r && !refDefined (recNat r 8 8))
    || (!rFirst r && (a != 65535 || recNat r 16 8 != 0 || recNat r 24 8 != 0)) || (rFirst r && ((decide (4095 < a) && a != 65535) || !refDefined (recNat r 24 8)))
    || x.params.any (samplingBad vocab) || (vocab != 0 && x.tokens.any (fun ts => ts.any (fun t => decide (vocab ≤ t.toNat))))
    || before.any (fun b => rSeq b == rSeq r)

/-- The current version of an adapter ID (R336). -/
def State.currentAdapter (s : State) (c id : Nat) : Option Adapter := s.mem.adapters.find? (fun (a : Adapter) => a.ctx == c && a.id == id && !a.draining)

/-- The length a record's tokens follow: of the sequence, or of the prefix that it attaches. -/
def State.recLen (s : State) (c : Nat) (r : List Byte) : Nat :=
  match (if rFirst r ∧ rHandle r ≠ 0#64 then s.handle? c (rHandle r) else none) with
  | some h => h.plen
  | none => (s.seqEntry (rSeq r)).len

/-- The check-9 failure of a record (R324). -/
def State.recStateBad (s : State) (c : Nat) (r : List Byte) : Bool :=
  let q := rSeq r
  let e := s.seqEntry q
  let x := s.ctx c
  let req := Tab.find? x.rollout.requests q
  let lim := s.lenLimit c e
  (if rFirst r then
      !e.live || req.isSome
        || (rHandle r != 0#64 && (e.len != 0 || (match s.handle? c (rHandle r) with
          | some h => h.draining || decide (lim < h.plen)
          | none => true)))
        || (recNat r 6 2 != 65535 && (s.currentAdapter c (recNat r 6 2)).isNone)
    else req.isNone || (rFeed r && req.any (fun p => p.last.isNone)))
    || decide (lim < s.recLen c r + rNew r)
    || x.descs.any (fun d => match d.work with
      | .serve v => v.batch.any (fun b => b.seq == q)
      | _ => false)

/-- The index of the first record that fails. -/
def firstRec (rs : List RawRec) (bad : List (List Byte) → RawRec → Bool) : Option Nat :=
  (List.range rs.length).find? (fun i => match rs[i]? with
    | some x => bad ((rs.take i).map (fun y => y.r)) x
    | none => false)

/-- A step's tokens, samples and cost (R330, R334). -/
def batchTokens (rs : List (List Byte)) : Nat := (rs.map rNew).sum
def batchSamples (rs : List (List Byte)) : Nat := (rs.filter rSample).length
def State.serveCost (s : State) (c : Nat) (rs : List (List Byte)) : Nat :=
  (rs.map (fun r => if rNew r = 1 ∧ rFirst r = false then 256 else min (fld (s.reg (rTgCtl c)) 0 9) 256 * rNew r)).sum

/-- Bytes of the summary area (R330). -/
def summaryBytes (nplan : Nat) : Nat := 32 * ceilDiv (16 + 8 * nplan) 32

/-- The context's layout pair refuses a SERVE_STEP: before ROLLOUT without ASYNC, or with an active bank that is not VALID (R370). -/
def Ctx.pairRefuses (x : Ctx) : Bool := x.pair.any (fun p => p.activeState != 1 || (p.phase != 3 && !p.async))

/-- The checks of SERVE_STEP, its records' where BATCH can be read (R102, R319 to R324, R334, R370). -/
def serveChk (c : Nat) (s : State) (d : Desc) : Chk :=
  let k : Chk :=
    { reserved := [(30, 2), (52, 4)]
      format := [badRef d 16, (d.num 16 8 % 32 != 0, 16), (decide (16384 < serveNrec d), 24), (decide (4096 < serveNplan d), 28), badRef d 32,
        (d.num 32 8 % 32 != 0, 32), badRef d 40, (d.num 40 8 % 32 != 0, 40), allOnes d 48 4]
      bounds := [(decide ((s.resolve c (d.num 16 8)).extent < 32 * serveNrec d), 24), (decide ((s.resolve c (d.num 32 8)).extent < 32 * serveNplan d), 28),
        (decide ((s.resolve c (d.num 40 8)).extent < d.num 48 4), 48)]
      zero := serveNrec d == 0 || serveNplan d == 0
      state := s.vocab c == 0 || (s.ctx c).pairRefuses }
  match s.serveBatch c d with
  | none => k
  | some rs =>
    let xs := rs.map (s.rawRec c)
    let v := s.vocab c
    { k with
      recFormat := firstRec xs (recFormatBad v)
      recAuth := firstRec xs (fun _ x => !s.ownsSeq c (rSeq x.r))
      recBounds := firstRec xs (fun _ x => (!rFeed x.r && decide ((s.resolve c (recNat x.r 8 8)).extent < 4 * rNew x.r))
        || (rFirst x.r && decide ((s.resolve c (recNat x.r 24 8)).extent < 64)))
      bounds := k.bounds ++ [(decide (d.num 48 4 < summaryBytes (serveNplan d) + 32 * batchSamples rs), 48)]
      openBounds := decide ((s.resolve c (s.reg (rServeStepBlk c))).extent < 32 * serveNrec d + 4 * batchTokens rs)
        || decide ((s.resolve c (s.reg (rServeLogits c))).extent < 4 * v * batchSamples rs)
      recState := if v = 0 then none else firstRec xs (fun _ x => s.recStateBad c x.r)
      capacity := if bitOf (s.reg (rTgCtl c)) 31 && decide ((s.ctx c).rollout.level < s.serveCost c rs) then some stBudget else none }

/-- The sampling block as a request (R326). -/
def requestOf (b : List Byte) (adapter : Option (Nat × Nat)) : Request :=
  { key := dword (recNat b 0 8), salt := dword (recNat b 8 8), temp := word (recNat b 16 4), topP := word (recNat b 20 4), topK := recNat b 24 4
    maxNew := recNat b 28 4, maxLen := recNat b 32 4, stops := (List.range (recNat b 36 1)).map (fun i => word (recNat b (40 + 4 * i) 4)), adapter := adapter }

/-- Admission of one record: FIRST starts a request and binds its adapter (R324). -/
def State.takeRec (s : State) (c : Nat) (x : RawRec) : State :=
  let r := x.r
  if !rFirst r then s else
    let ad := if recNat r 6 2 = 65535 then none else (s.currentAdapter c (recNat r 6 2)).map (fun a => (a.id, a.version))
    let s1 := s.modCtx c (fun y => { y with rollout := { y.rollout with requests := y.rollout.requests.set (rSeq r) (requestOf (x.params.getD []) ad) } })
    let m := s1.mem
    let adapters := m.adapters.map (fun (a : Adapter) => if some (a.id, a.version) = ad ∧ a.ctx = c then { a with refs := a.refs + 1 } else a)
    { s1 with mem := { m with adapters := adapters } }

/-- The batch records of the run, with OUT_ROW and TOK_IDX numbered in record order (R323). -/
def batchOf (s : State) (c : Nat) : List RawRec → Nat → Nat → List BatchRec
  | [], _, _ => []
  | x :: xs, row, tok =>
    let r := x.r
    let tokens := if rFeed r then [(((s.ctx c).rollout.requests.find? (rSeq r)).bind (fun q => q.last)).getD 0#32] else x.tokens.getD []
    { seq := rSeq r, new := rNew r, first := rFirst r, sample := rSample r, feed := rFeed r, adapter := recNat r 6 2, tokens := tokens
      handle := rHandle r, params := dword (recNat r 24 8), outRow := if rSample r then row else 65535, tokIdx := tok }
      :: batchOf s c xs (if rSample r then row + 1 else row) (tok + rNew r)

/-- Attaches the prefix of a FIRST record: its entries at the head of the row, LENGTH and VERSION, one more user (R332). -/
def State.attach (s : State) (c : Nat) (b : BatchRec) : State :=
  match (if b.first ∧ b.handle ≠ 0#64 then s.handle? c b.handle else none) with
  | some h =>
    let e := s.seqEntry b.seq
    let vs := (List.range h.pages).map (fun i => s.entry (h.base + i))
    let s1 := (s.setEntries e.base vs).setSeq b.seq { e.edited with len := h.plen }
    { s1 with mem := { s1.mem with handles := s1.mem.handles.map (fun (x : Prefix) =>
        if x.ctx = c ∧ x.handle = b.handle then { x with users := x.users ++ [b.seq] } else x) } }
  | none => s

/-- The prefix of a FIRST record may no longer be attached: its handle was released during the wait (R324, R333; log 124). -/
def State.attachBad (s : State) (c : Nat) (b : BatchRec) : Bool :=
  b.first && b.handle != 0#64 && (s.handle? c b.handle).all (fun h => h.draining)

/-- The adapter bound to a record's request, with its object and version (R323). -/
def State.boundAdapter (s : State) (c q : Nat) : Option Adapter :=
  ((s.ctx c).rollout.requests.find? q).bind (fun r => r.adapter.bind (fun v =>
    s.mem.adapters.find? (fun (a : Adapter) => a.ctx == c && a.id == v.1 && a.version == v.2)))

/-- The step block (R323). -/
def State.stepBlock (s : State) (c : Nat) (bs : List BatchRec) : List Byte :=
  (bs.map (fun (b : BatchRec) =>
    let a := s.boundAdapter c b.seq
    leBytes 2 b.seq ++ leBytes 2 b.new ++ [byte (b2n b.first + 2 * b2n b.sample + 4 * b2n b.feed), 0#8] ++ leBytes 2 b.outRow ++ leBytes 4 b.len
      ++ leBytes 4 b.tokIdx ++ leBytes 4 (a.elim (2 ^ 31) (fun a => a.obj)) ++ leBytes 2 (a.elim 0 (fun a => a.version)) ++ leBytes 10 0)).flatten
    ++ (bs.map (fun (b : BatchRec) => (b.tokens.map (fun t => leBytes 4 t.toNat)).flatten)).flatten

/-- The end of phase 2: prefixes attached, L read, the step block written (R323, R332). -/
def State.serveAdmitted (s : State) (c : Nat) (d : Desc) (v : ServeRun) : State :=
  if v.batch.any (s.attachBad c) then (s.endHeld c d.ring d.pos (endWith stState)).refreshWait c d.waitRows else
  let s1 := v.batch.foldl (fun (s : State) b => s.attach c b) s
  let batch := v.batch.map (fun (b : BatchRec) => { b with len := (s1.seqEntry b.seq).len })
  let blk := s.pinRef c (s.reg (rServeStepBlk c))
  match s1.writeHeld c blk 0 (s1.stepBlock c batch) with
  | (s2, some (st, k)) => (s2.endHeld c d.ring d.pos { status := st, result := dword k }).refreshWait c d.waitRows
  | (s2, none) => (s2.setWork c d (.serve { v with batch := batch, admitted := true, waits := [] })).refreshWait c d.waitRows

/-- SERVE_STEP: phases 1 and 2; a FIRST with a prefix waits as a PIN does (R321 to R324, R332, R334). -/
def runServe (c : Nat) (s : State) (d : Desc) : State :=
  let g := s.readTarget c (s.resolve c (d.num 16 8)) (32 * serveNrec d)
  match g.stop, s.check c d (serveChk c s d) with
  | some st, _ => (s.reachTarget (s.resolve c (d.num 16 8)) (32 * serveNrec d)).endDesc c d.ring d.pos { status := st, result := dword g.data.length }
  | none, some e => s.endDesc c d.ring d.pos e
  | none, none =>
    let rs := records 32 (serveNrec d) g.data
    let xs := rs.map (s.rawRec c)
    let failed := xs.findSome? (fun x =>
      (if rFeed x.r then none else (s.readTarget c (s.resolve c (recNat x.r 8 8)) (4 * rNew x.r)).stop).or
        (if rFirst x.r then (s.readTarget c (s.resolve c (recNat x.r 24 8)) 64).stop else none))
    let gp := s.readTarget c (s.resolve c (d.num 32 8)) (32 * serveNplan d)
    match failed.or gp.stop with
    | some st =>
      let s1 := xs.foldl (fun (s : State) x =>
        let s2 := if rFeed x.r then s else s.reachTarget (s.resolve c (recNat x.r 8 8)) (4 * rNew x.r)
        if rFirst x.r then s2.reachTarget (s2.resolve c (recNat x.r 24 8)) 64 else s2) s
      (s1.reachTarget (s1.resolve c (d.num 32 8)) (32 * serveNplan d)).endDesc c d.ring d.pos { status := st, result := dword g.data.length }
    | none =>
      let cost := if bitOf (s.reg (rTgCtl c)) 31 then s.serveCost c rs else 0
      let entries := (records 32 (serveNplan d) gp.data).map (fun b =>
        if recNat b 24 8 = 0 then (⟨dword (recNat b 0 8), recNat b 8 4, recNat b 12 4, dword (recNat b 16 8)⟩ : PlanEntry)
        else ⟨0xF000000000000000#64, 0, 0, 0#64⟩)
      let batch := batchOf s c xs 0 0
      let rows := (batch.filter (fun (b : BatchRec) => b.first && b.handle != 0#64)).map (fun b => b.seq)
      let waits := if rows.isEmpty then [] else ((s.ctx c).editWaits rows).filter (fun n => n != d.start.getD 0)
      let s1 := (s.touchRefs c [d.num 16 8, d.num 32 8, d.num 40 8]).modCtx c (fun y => { y with rollout := { y.rollout with level := y.rollout.level - cost } })
      let s2 := xs.foldl (fun (s : State) x => s.takeRec c x) s1
      let v : ServeRun := { serveId := dword (d.num 56 8), batch := batch, plan := entries, out := dword (s.pinRef c (d.num 40 8)), outBytes := d.num 48 4, waits := waits }
      let s3 := (s2.setWork c d (.serve v)).refreshWait c rows
      if waits.isEmpty && (s3.ctx c).firstEdit d rows then s3.serveAdmitted c d v else s3

/-- The sequences that a SERVE_STEP lists, as far as BATCH can be read. -/
def State.serveRows (s : State) (c : Nat) (d : Desc) : List Nat := ((s.serveBatch c d).getD []).map rSeq

/-- An edit holds a SERVE_STEP: one that shares a sequence with it, and while no path to the host lets BATCH be read, any (R113, R313). -/
def State.editHoldsServe (s : State) (c : Nat) (d : Desc) : Bool :=
  if s.refWaits c (d.num 16 8) then (s.ctx c).editHolds else (s.ctx c).editHoldsRows (s.serveRows c d)

/-- SERVE_STEP (R319). -/
def execServeStep (c : CtxId) (q : RingId) (p : Word) (s : State) : Host.Outcome State Fault Refusal :=
  .next (s.startDesc c q p (fun d => d.opcode == 9) (fun d => s.holdServe c || s.editHoldsServe c d) (serveChk c) (runServe c))

/-- Changes a SERVE_STEP in progress. -/
def State.modServe (s : State) (c : Nat) (d : Desc) (f : ServeRun → ServeRun) : State :=
  s.modDesc c d.ring d.pos (fun e => match e.work with
    | .serve v => { e with work := .serve (f v) }
    | _ => e)

/-- The argument block of plan entry i, with what the module writes into it (R322). -/
def planArgs (bs : List Byte) (v : ServeRun) (blk i : Nat) : List Byte :=
  leBytes 8 v.serveId.toNat ++ leBytes 4 i ++ (bs.drop 12).take 4 ++ leBytes 8 blk ++ leBytes 4 v.batch.length
    ++ leBytes 4 ((v.batch.map (fun (b : BatchRec) => b.new)).sum) ++ bs.drop 32

/-- How a plan entry fails before it runs; the field is named by PLAN (R98, R102, R322; log 43). -/
def State.planBad (s : State) (c : Nat) (e : PlanEntry) : Option Ending :=
  let m := (s.ctx c).mask
  if !refDefined e.code.toNat ∨ refOff e.code.toNat ≠ 0 ∨ e.codeBytes % 16 ≠ 0 ∨ e.codeBytes = 0xFFFFFFFF ∨ e.argBytes < 32 ∨ 4096 < e.argBytes
      ∨ !refDefined e.args.toNat then some (endField stFormat 32)
  else if s.maskBad c m then some (endField stAuth 32)
  else if ((bitList m.toNat 96).find? s.tileOut).isSome then some { endWith stFenced with unit := half (((bitList m.toNat 96).find? s.tileOut).getD 0) }
  else if (s.resolve c e.code.toNat).extent < e.codeBytes ∨ (s.resolve c e.args.toNat).extent < e.argBytes then some (endField stBounds 32)
  else none

/-- Ends a SERVE_STEP after its admission: the admissions stand (R325). -/
def State.serveFail (s : State) (c : Nat) (d : Desc) (e : Ending) : State :=
  ((s.modServe c d (fun v => { v with run := none })).endHeld c d.ring d.pos e).refreshWait c d.waitRows

/-- The next plan entry starts: as an EXEC on the whole tile mask; one with no tile or no code has no effect (R103, R322). -/
def State.startEntry (s : State) (c : Nat) (d : Desc) (v : ServeRun) (e : PlanEntry) : State :=
  if s.refWaits c e.args.toNat then s else
    match s.planBad c e with
    | some x => s.serveFail c d x
    | none =>
      let m := (s.ctx c).mask
      let g := s.readTarget c (s.resolve c e.args.toNat) e.argBytes
      match g.stop with
      | some st => (s.reachTarget (s.resolve c e.args.toNat) e.argBytes).serveFail c d { status := st, result := dword g.data.length }
      | none =>
        if m = 0#96 ∨ e.codeBytes = 0 then s.modServe c d (fun v => { v with index := v.index + 1 })
        else
          let r : ExecRun :=
            { tiles := m, code := dword (s.pinRef c e.code.toNat), named := e.code, codeBytes := e.codeBytes, args := e.args, argBytes := e.argBytes
              argCopy := some (planArgs g.data v (s.reg (rServeStepBlk c)) v.index), partner := s.redundant c }
          let s1 := (s.touchRefs c [e.code.toNat, e.args.toNat]).modServe c d (fun v => { v with run := some r })
          let s2 := match progOf e.code.toNat with
            | some p => s1.planStart c p
            | none => s1
          s2.beginRun (c, d.ring, d.pos)

/-- SERVE_PLAN_ENTRY: ends the wait of phase 2, starts the next entry once the one before has completed, or begins one that waits for
its tiles (R322, R332). -/
def State.servePlanEntry (s : State) (c : Nat) (d : Desc) : State :=
  match d.work with
  | .serve v =>
    if d.ending.isSome then s
    else if !v.admitted then (if (s.ctx c).allDone v.waits && (s.ctx c).firstEdit d d.waitRows then s.serveAdmitted c d v else s)
    else match v.run with
      | some _ => s.beginRun (c, d.ring, d.pos)
      | none => (match v.plan[v.index]? with
        | some e => s.startEntry c d v e
        | none => s)
  | _ => s

/-- SERVE_PLAN_ENTRY (R322). -/
def execServePlanEntry (c : CtxId) (q : RingId) (p : Word) (s : State) : Host.Outcome State Fault Refusal :=
  .next (match s.desc? c q p with
    | some d => s.servePlanEntry c d
    | none => s)

/-- Running sums of a list of weights, in order. -/
def runSums : Word → List Word → List Word
  | _, [] => []
  | a, w :: ws => fadd a w :: runSums (fadd a w) ws

def seqSum (ws : List Word) : Word := ws.foldl fadd 0#32

/-- `a` comes before `b` in the order of the sampler: larger logit, then lower index (R327). -/
def sampleBefore (a b : Nat × Word) : Bool := if flt b.2 a.2 then true else if flt a.2 b.2 then false else decide (a.1 ≤ b.1)

/-- The sampler of R327, given the uniform value of the random word: the token, none for no finite distribution. -/
def sampleToken (l : List Word) (r : Request) (u : Word) : Option Nat :=
  if l.any (fun x => isNan x || x == f32Inf false) || l.all (fun x => x == f32NegInf) then none
  else
    let items := l.zipIdx.map (fun x => (x.2, x.1))
    let order := sortBy sampleBefore items
    match order.head? with
    | none => none
    | some top =>
      if r.temp = 0#32 then (items.find? (fun x => feq x.2 top.2)).map (fun x => x.1)
      else
        let o1 := if 0 < r.topK then order.take r.topK else order
        let w1 := o1.map (fun x => fexp false (fdiv (fsub x.2 top.2) r.temp))
        let n := if flt r.topP f32One then
            (let t := fmul r.topP (seqSum w1)
             match (runSums 0#32 w1).findIdx? (fun x => fle t x) with
             | some i => i + 1
             | none => w1.length)
          else w1.length
        let o2 := o1.take n
        let w2 := w1.take n
        let t := fmul u (seqSum w2)
        match (runSums 0#32 w2).findIdx? (fun x => flt t x) with
        | some j => (o2[j]?).map (fun x => x.1)
        | none => o2.getLast?.map (fun x => x.1)

/-- The canonical row reduction (R164, R198). -/
def canonReduce (f : Word → Word → Word) (vs : List Word) : Word :=
  let parts := (List.range (ceilDiv vs.length 16384)).filterMap (fun i => reduceRow false f (((vs.drop (16384 * i)).take 16384).map some))
  match parts with
  | [] => 0#32
  | p :: ps => ps.foldl f p

/-- Logsumexp of a row and the log-probability of a token (R329). -/
def logProb (l : List Word) (token : Nat) : Word × Word :=
  let m := canonReduce fmax l
  let z := canonReduce fadd (l.map (fun x => fexp false (fsub x m)))
  let lse := fadd m (flog false z)
  (lse, fsub (l.getD token 0#32) lse)

/-- The stop cause of a sample, the first that applies, a sample of no token among those counted (R328); `pos` its position, `n` the samples
with it. -/
def stopCause (r : Request) (token : Option Nat) (n pos limit : Nat) : Nat :=
  if token.any (fun t => r.stops.any (fun x => x.toNat == t)) then 1
  else if r.maxNew ≤ n then 2
  else if (r.maxLen ≠ 0 ∧ r.maxLen ≤ pos + 1) ∨ limit ≤ pos + 1 then 3
  else if token.isNone then 4
  else 0

/-- One sample: its output record, and the request that goes on or stops (R327 to R330). -/
def State.sampleOne (s : State) (c : Nat) (b : BatchRec) (l : List Word) (ovf : Bool) : State × List Byte :=
  match (s.ctx c).rollout.requests.find? b.seq with
  | none => (s, leBytes 32 0)
  | some r =>
    let pos := b.len + b.new
    let x := (philox (r.key.toNat % 2 ^ 32) (r.key.toNat / 2 ^ 32) (pos, 0, r.salt.toNat % 2 ^ 32, r.salt.toNat / 2 ^ 32)).1
    let greedy := r.temp == 0#32
    let u := pxUniValue (word x)
    let token := sampleToken l r u
    let n := r.samples + 1
    let cause := stopCause r token n pos (s.lenLimit c (s.seqEntry b.seq))
    let lp := match token with
      | some t => logProb l t
      | none => (f32Nan, f32Nan)
    let draw := if greedy then 0 else if token.isNone then (s.bump.free.toNat % 2 ^ 32) else x
    let code := token.getD 0xFFFFFFFF
    let ver := ((s.boundAdapter c b.seq).map (fun a => a.version)).getD 0
    let out := leBytes 2 b.seq ++ leBytes 2 ver ++ leBytes 4 pos ++ leBytes 4 code ++ leBytes 4 lp.2.toNat ++ leBytes 4 lp.1.toNat
      ++ [byte (b2n (cause != 0) + 2 * b2n ovf), byte cause] ++ leBytes 2 0 ++ leBytes 4 draw ++ leBytes 4 0
    let s1 := s.bump.bump.modCtx c (fun y => { y with rollout := { y.rollout with requests := y.rollout.requests.set b.seq { r with samples := n, last := some (word code) } } })
    (if cause = 0 then s1 else s1.endRequest c b.seq, out)

/-- The summary area of OUT (R330). -/
def summaryArea (v : ServeRun) (samples : Nat) : List Byte :=
  let head := leBytes 8 v.serveId.toNat ++ leBytes 2 v.repeated.length ++ leBytes 2 0 ++ leBytes 4 samples
    ++ (v.repeated.map (fun (x : Nat × Half × Byte × Nat) => leBytes 2 x.1 ++ leBytes 2 x.2.1.toNat ++ [x.2.2.1, byte x.2.2.2] ++ leBytes 2 0)).flatten
  head ++ List.replicate (summaryBytes v.plan.length - head.length) 0#8

/-- The prep clusters that the sampler uses: 0 to 7 of the context's tiles (R327). -/
def State.samplerClusters (s : State) (c : Nat) : List (Nat × Nat) :=
  ((bitList (s.ctx c).mask.toNat 96).map (fun t => (List.range 8).map (fun k => (t, k)))).flatten

/-- The samples of a step in record order. -/
def State.sampleAll (s : State) (c : Nat) (v : ServeRun) (logits : Nat) : State × List Byte × Option Byte :=
  v.batch.foldl (fun (a : State × List Byte × Option Byte) b =>
    if !b.sample || a.2.2.isSome then a else
      let g := a.1.readHeld c logits (4 * a.1.vocab c * b.outRow) (4 * a.1.vocab c)
      match g.stop with
      | some st => (a.1, a.2.1, some st)
      | none =>
        let r := a.1.sampleOne c b ((records 4 (a.1.vocab c) g.data).map (fun x => word (leNat x))) (!v.repeated.isEmpty)
        (r.1, a.2.1 ++ r.2, none)) (s, [], none)

/-- The state after the read of the first row of logits that cannot be read (R247). -/
def State.reachRows (s : State) (c : Nat) (v : ServeRun) (logits : Nat) : State :=
  let n := 4 * s.vocab c
  match v.batch.find? (fun b => b.sample && (s.readHeld c logits (n * b.outRow) n).stop.isSome) with
  | some b => s.reachHeld c logits (n * b.outRow) n
  | none => s

/-- Phases 4 and 5 (R327 to R330). A row that cannot be read fails the sampler: INTERNAL, the cluster in the health log (log 44). -/
def State.serveReport (s : State) (c : Nat) (d : Desc) (v : ServeRun) : State :=
  let logits := s.pinRef c (s.reg (rServeLogits c))
  let (s1, recs, stop) := s.sampleAll c v logits
  match stop with
  | some _ => (((s.reachRows c v logits).holdClusters c false).logEv 19 [s.free.toNat % 8]).bump.serveFail c d (endWith stInternal)
  | none =>
    let n := (v.batch.filter (fun (b : BatchRec) => b.sample)).length
    let s2 := s1.holdClusters c false
    match s2.writeHeld c v.out.toNat 0 (summaryArea v n ++ recs) with
    | (s3, some (st, k)) => s3.serveFail c d { status := st, result := dword k }
    | (s3, none) => s3.serveFail c d (endOk (n + ((v.repeated.map (fun (x : Nat × Half × Byte × Nat) => x.2.2.2)).sum % 65536) * 2 ^ 32))

/-- SERVE_SAMPLE: with every entry complete the sampler takes its clusters once no PDISPATCH holds them; the same command again ends
it (R174, R327; log 44). -/
def State.serveSample (s : State) (c : Nat) (d : Desc) : State :=
  match d.work with
  | .serve v =>
    if d.ending.isSome || !v.admitted || v.run.isSome || decide (v.index < v.plan.length) then s
    else if v.sampling then (if s.refWaits c v.out.toNat || s.refWaits c (s.reg (rServeLogits c)) then s else s.serveReport c d v)
    else if (s.samplerClusters c).any (fun k => !(s.cluster k.1 k.2).idle) then s
    else (s.holdClusters c true).modServe c d (fun v => { v with sampling := true })
  | _ => s

/-- SERVE_SAMPLE (R327). -/
def execServeSample (c : CtxId) (q : RingId) (p : Word) (s : State) : Host.Outcome State Fault Refusal :=
  .next (match s.desc? c q p with
    | some d => s.serveSample c d
    | none => s)

/-- A run has ended with a status other than OK, on its tiles' safe points (R98, R212, R325). -/
def State.runFailed (s : State) (c : Nat) (d : Desc) (e : Ending) : State :=
  match d.work with
  | .serve _ => s.serveFail c d e
  | _ => s.endDesc c d.ring d.pos e

/-- A run has completed with OK: the overflow record of a chain's end, the plan's and the triggers' counts, then the EXEC's RESULT or the
next entry (R205, R207, R241, R322, R343). -/
def State.runOk (s : State) (c : Nat) (d : Desc) (r : ExecRun) : State :=
  let s1 := match r.overflow with
    | some x => s.logOverflow c r x (d.opcode == 9) d.tag none
    | none => s
  match d.work with
  | .serve v =>
    let code := ((v.plan[v.index]?).map (fun e => e.code.toNat)).getD 0
    let s2 := match progOf code with
      | some p => (s1.planDone c p).countTriggers c p
      | none => s1
    s2.modServe c d (fun v => { v with
      run := none
      index := v.index + 1
      repeated := if r.repeats = 0 then v.repeated else v.repeated ++ [(v.index, half ((r.first.bind (fun x => x.entry)).elim 0 (fun e => e.1)), byte r.fmt, r.repeats)] })
  | _ =>
    let s2 := s1.endDesc c d.ring d.pos (endOk r.result)
    match progOf (d.num 16 8) with
    | some p => (s2.planDone c p).countTriggers c p
    | none => s2

/-- A tile's END retires: everything it issued has completed (R149). -/
def Tile.ended (x : Tile) : Bool := x.seq.ended && x.seq.busy.isEmpty && x.seq.held.isEmpty

/-- Writes that the other copy never made: a difference (R405; log 45). -/
def State.unmatched (s : State) (r : ExecRun) : Option Nat :=
  r.tileList.find? (fun t => (s.tile t).writes.any (fun w => decide (w.1 < 0x2000000)))

/-- TILE_PROGRAM_END: the tile's part of the run ends; with the last tile the run completes (R98, R149). -/
def State.programEnd (s : State) (t : Nat) : State :=
  match s.tileRun t with
  | none => s
  | some (o, r) =>
    if r.stopping || !r.running.toNat.testBit t || !(s.tile t).ended then s
    else
      let left := r.running &&& ~~~(BitVec.ofNat 96 (2 ^ t))
      let s1 := (s.modRun o (fun r => { r with running := left })).modSeq t (fun q => { nextId := q.nextId, evSat := q.evSat })
      if left != 0#96 then s1 else
        match (s1.ctx o.1).find o.2.1 o.2.2 with
        | none => s1
        | some d =>
          match s1.unmatched r with
          | some u => s1.runFailed o.1 d { status := stCheck, unit := half (u % 48) }
          | none => s1.runOk o.1 d { r with running := left }

/-- TILE_PROGRAM_END (R149). -/
def execTileProgramEnd (t : TileId) (s : State) : Host.Outcome State Fault Refusal := .next (s.programEnd t)

/-- EXEC_FAULT_STOP: with every tile at its safe point, a run that is to end stops and ends (R98, R108, R143). -/
def State.faultStop (s : State) (c : Nat) (d : Desc) : State :=
  match d.work.run? with
  | some r =>
    (match r.ending with
    | some e =>
      if d.ending.isSome || !s.runSafe (c, d.ring, d.pos) r then s
      else (s.stopRun (c, d.ring, d.pos) r).runFailed c d e
    | none => s)
  | none => s

/-- EXEC_FAULT_STOP (R98). -/
def execExecFaultStop (c : CtxId) (q : RingId) (p : Word) (s : State) : Host.Outcome State Fault Refusal :=
  .next (match s.desc? c q p with
    | some d => s.faultStop c d
    | none => s)

/-- Whether a descriptor is an ADAPTER_BIND with the given OP. -/
def isAdapter (op : Nat) (d : Desc) : Bool := d.opcode == 0xA && d.num 16 1 == op

/-- The checks of ADAPTER_BIND (R102, R336, R337). -/
def adapterChk (op c : Nat) (s : State) (d : Desc) : Chk :=
  let bind := op == 1
  let id := d.num 18 2
  let ver := d.num 20 2
  let obj := d.num 24 4
  let mine := s.mem.adapters.filter (fun (a : Adapter) => a.ctx == c && a.id == id)
  let o? := s.visible c obj
  { reserved := [(28, 36)]
    reservedBits := [(decide (2 ≤ d.num 17 1), 17), (bind && decide (2 ^ 20 ≤ obj), 24)]
    format := [(decide (4095 < id), 18), (if bind then ver == 0 || ver == 65535 else ver != 0, 20),
      (if bind then d.num 22 2 == 0 || decide (256 < d.num 22 2) else d.num 22 2 != 0, 22), (!bind && obj != 0, 24)]
    auth := [(bind && !s.inRange c obj, 24)]
    state := if bind then mine.any (fun a => a.version == ver) || s.mem.adapters.any (fun (a : Adapter) => a.obj == obj) || o?.isNone
      else !mine.any (fun a => !a.draining)
    capacity := if bind && ((mine.any (fun a => !a.draining) && decide (3 ≤ (mine.filter (fun a => a.draining)).length)) || decide (4096 ≤ s.mem.adapters.length)
        || o?.any (fun o => !o.pin && o.pinning == 0 && s.pinTooMany c o.blocks)) then some stNospace else none }

/-- The current version of an ID starts draining (R337, R338). -/
def State.drainAdapter (s : State) (c id : Nat) (releaseOld : Bool) : State :=
  ({ s with mem := { s.mem with adapters := s.mem.adapters.map (fun (a : Adapter) =>
      if a.ctx = c ∧ a.id = id ∧ a.draining = false then { a with draining := true, releaseOld := releaseOld } else a) } }).freeAdapters

/-- RESULT of BIND and UNBIND (R337). -/
def State.displaced (s : State) (c id : Nat) : Nat := ((s.currentAdapter c id).map (fun a => a.version + a.refs % 2 ^ 32 * 2 ^ 16)).getD 0

/-- ADAPTER_BIND BIND (R337). -/
def runBind (c : Nat) (s : State) (d : Desc) : State :=
  let id := d.num 18 2
  let obj := d.num 24 4
  let a : Adapter := { ctx := c, id := id, version := d.num 20 2, rank := d.num 22 2, obj := obj }
  let s1 := (s.drainAdapter c id (bitOf (d.num 17 1) 0)).modObj obj (fun o => { o with pin := true, readOnly := true, touch := s.touchNow })
  { s1 with mem := { s1.mem with adapters := s1.mem.adapters ++ [a] } }.endDesc c d.ring d.pos (endOk (s.displaced c id))

/-- ADAPTER_BIND BIND (R336). -/
def execAdapterBind (c : CtxId) (q : RingId) (p : Word) (s : State) : Host.Outcome State Fault Refusal :=
  .next (s.startDesc c q p (isAdapter 1) (fun _ => false) (adapterChk 1 c) (runBind c))

/-- ADAPTER_BIND UNBIND (R337). -/
def runUnbind (c : Nat) (s : State) (d : Desc) : State :=
  (s.drainAdapter c (d.num 18 2) (bitOf (d.num 17 1) 0)).endDesc c d.ring d.pos (endOk (s.displaced c (d.num 18 2)))

/-- ADAPTER_BIND UNBIND (R337). -/
def execAdapterUnbind (c : CtxId) (q : RingId) (p : Word) (s : State) : Host.Outcome State Fault Refusal :=
  .next (s.startDesc c q p (isAdapter 2) (fun _ => false) (adapterChk 2 c) (runUnbind c))

/-- TOLLGATE_CREDIT: 100 µs of RATE, the remainder carried, never above DEPTH (R334). -/
def State.tgCredit (s : State) (c : Nat) : State :=
  s.modCtx c (fun x =>
    let n := x.rollout.carry + 256 * fld (s.reg (rTgRate c)) 0 24
    { x with rollout := { x.rollout with level := min (x.rollout.level + n / 10000) (256 * fld (s.reg (rTgDepth c)) 0 24), carry := n % 10000 } })

/-- TOLLGATE_CREDIT (R334). -/
def execTollgateCredit (c : CtxId) (s : State) : Host.Outcome State Fault Refusal := .next (if s.chip.stage = 4 then s.tgCredit c else s)

/-- CTX_TG_CTL: setting ENABLE fills the bucket (R335). -/
def State.writeTgCtl (s : State) (c : Nat) (v : Word) : State :=
  let on := bitOf v.toNat 31 && !bitOf (s.reg (rTgCtl c)) 31
  let s1 := s.setReg (rTgCtl c) (v.toNat &&& 0x800001FF)
  if on then s1.modCtx c (fun x => { x with rollout := { x.rollout with level := 256 * fld (s.reg (rTgDepth c)) 0 24 } }) else s1

/-- CTX_TG_CTL (R335). -/
def execCtxTgCtlWrite (f : Func) (c : CtxId) (v : Word) (s : State) : Host.Outcome State Fault Refusal :=
  .next (s.ownerWrite f (fun s => s.writeTgCtl c v))

/-- CTX_TG_DEPTH: the level falls to the new depth (R335). -/
def State.writeTgDepth (s : State) (c : Nat) (v : Word) : State :=
  (s.setReg (rTgDepth c) (v.toNat % 2 ^ 24)).modCtx c (fun x => { x with rollout := { x.rollout with level := min x.rollout.level (256 * (v.toNat % 2 ^ 24)) } })

/-- CTX_TG_DEPTH (R335). -/
def execCtxTgDepthWrite (f : Func) (c : CtxId) (v : Word) (s : State) : Host.Outcome State Fault Refusal :=
  .next (s.ownerWrite f (fun s => s.writeTgDepth c v))

/-- CTX_TG_RATE (R335). -/
def State.writeTgRate (s : State) (c : Nat) (v : Word) : State := s.setReg (rTgRate c) (v.toNat % 2 ^ 24)

/-- CTX_TG_RATE (R335). -/
def execCtxTgRateWrite (f : Func) (c : CtxId) (v : Word) (s : State) : Host.Outcome State Fault Refusal :=
  .next (s.ownerWrite f (fun s => s.writeTgRate c v))

end Sys2Proof.Machine
end

