-- ==== Sys2Proof/Machine/Plan.lean ====
section
/-!
DEFINITION. Fences (R56, R141, R406, R423), the margin plan (R422 to R424), and the votes of the matrix array (R140, R141, R406).
-/
namespace Sys2Proof.Machine

/-- The next MPASS of a program from byte pc on, if the program itself shows it: none behind a CALL, whose block may hold one (R141,
R150). The fuel is the number of instructions left. -/
def State.scanPass (s : State) (c : Nat) (r : ExecRun) : Nat → Nat → Option Nat
  | 0, _ => none
  | n + 1, pc =>
    let g := s.readHeld c r.code.toNat pc 16
    let w : TileWord := BitVec.ofNat 128 (leNat g.data)
    if r.codeBytes ≤ pc || g.stop.isSome || (tclass w == 6 && (top w == 1 || top w == 3)) then none
    else if tclass w = 1 ∧ top w = 2 ∧ tf w 70 54 ≠ 0 then some pc
    else s.scanPass c r n (pc + 16)

/-- The address of the next pass of a tile that has not issued: held, or not reached yet (R141). -/
def State.nextPass (s : State) (t : Nat) : Option Nat :=
  let x := s.tile t
  match x.seq.held.find? (fun h => tclass h.2 == 1 && top h.2 == 2), s.tileRun t with
  | some h, _ => some h.1
  | none, some (o, r) => if x.seq.call.isSome || x.seq.ended then none else s.scanPass o.1 r (r.codeBytes / 16 + 1) x.seq.pc
  | none, none => none

/-- A fence stops the program of a tile at the next pass boundary: the pass in flight commits, that of the vote which caused the fence
(`last`), of a vote in progress, or else the oldest; later ones are discarded, and the EXEC ends with TILE_FENCED and the address
of the next pass (R141, R143). A program that a fault has ended already stops as that fault has it. -/
def State.fenceStop (s : State) (t : Nat) (last : Option Nat) : State :=
  let m := (s.tile t).mx
  let keep := (last.or (m.vote.map (fun v => v.pass))).or (m.passes.head?.map (fun p => p.id))
  if (s.tileRun t).all (fun x => x.2.ending.isSome) then s
  else match m.passes.find? (fun p => keep.all (fun n => decide (n < p.id))), m.queue.find? (fun q => top q.word == 2) with
  | some p, _ => (s.discardFrom t p).fault t scTileFenced (some p.pc)
  | none, some q => s.faultOf t q.id scTileFenced (some q.pc)
  | none, none => s.fault t scTileFenced (s.nextPass t)

/-- A tile is fenced (R56), by the vote on a pass if one is given (R141). -/
def State.fenceTileAt (s : State) (t : Nat) (last : Option Nat) : State :=
  ({ s with flash := { s.flash with tileFence := s.flash.tileFence ||| BitVec.ofNat 96 (2 ^ t) } }.logEv 1 [t]).fenceStop t last
def State.fenceTile (s : State) (t : Nat) : State := s.fenceTileAt t none

/-- A die is fenced with its twelve tiles (R56, R423). -/
def State.fenceDie (s : State) (d : Nat) : State :=
  (List.range 12).foldl (fun (s : State) k => s.fenceStop (12 * d + k) none)
    ({ s with flash := { s.flash with dieFence := s.flash.dieFence ||| BitVec.ofNat 8 (2 ^ d) } }.logEv 1 [0x100 + d])

/-- The fence of a tile is removed (R56, R430). Where its die is fenced, the fence of the die gives way to one of each other tile of it
(log 83). -/
def State.unfenceTile (s : State) (t : Nat) : State :=
  let s1 := s.modMx t (fun m => { m with arrayEv := [], chkEv := [], undecEv := [], arrayFenced := false, chkFenced := false, undecFenced := false })
  let d := t / 12
  let others := if s1.flash.dieFence.toNat.testBit d then BitVec.ofNat 96 (4095 * 2 ^ (12 * d)) else 0#96
  { s1 with flash := { s1.flash with
      dieFence := s1.flash.dieFence &&& ~~~(BitVec.ofNat 8 (2 ^ d))
      tileFence := (s1.flash.tileFence ||| others) &&& ~~~(BitVec.ofNat 96 (2 ^ t)) } }

/-- The frequency steps of 25 MHz from 2.10 GHz down to 0.40 GHz (R422, R423). -/
def freqSteps : List Nat := (List.range 69).map (fun k => 2100 - 25 * k)

/-- The highest step of a die that meets the guard of 40 ps at a voltage offset (R423; log 21). -/
def ceilingAt (fresh d v : Nat) : Option Nat := freqSteps.find? (fun f => decide (40 ≤ Config.predictedSlack d v f [(fresh : Int)]))

/-- V_OFF and F_CEIL of a die (R423): the first offset that reaches 1.80 GHz, else +50 mV; none where no step meets the guard. -/
def planDie (fresh d : Nat) : Nat × Option Nat :=
  let v := (((List.range 11).map (fun k => 5 * k)).find? (fun v => (ceilingAt fresh d v).any (fun f => decide (1800 ≤ f)))).getD 50
  (v, ceilingAt fresh d v)

/-- F_CEIL of a die in MHz; a plan that flash does not hold is the nominal one (log 5). -/
def State.ceiling (s : State) (d : Nat) : Nat := s.flash.fCeil.get 1800 d

/-- A new plan (R422 to R424): offset and ceiling of each die, AGEING_WARN, fences, the version, and the history of 1,024 plans. -/
def State.replan (s : State) (trigger : Nat) : State :=
  let plans := (List.range 8).map (fun d => (d, planDie s.fresh d))
  let low := plans.any (fun (p : Nat × Nat × Option Nat) => p.2.2.any (fun f => decide (f < 1800)))
  let v := s.flash.planVersion + 1#16
  let vOff := plans.foldl (fun (tb : Tab Nat) (p : Nat × Nat × Option Nat) => tb.set p.1 p.2.1) s.flash.vOff
  let fCeil := plans.foldl (fun (tb : Tab Nat) (p : Nat × Nat × Option Nat) => (match p.2.2 with
    | some f => tb.set p.1 f
    | none => tb)) s.flash.fCeil
  let s1 := ({ s.bump with
    flash := { s.flash with
      planVersion := v
      planTrigger := byte trigger
      vOff := vOff
      fCeil := fCeil
      ageing := low || plans.any (fun (p : Nat × Nat × Option Nat) => p.2.2.isNone)
      history := (s.flash.history ++ [MarginPlan.mk v (byte trigger) vOff fCeil s.flash.refresh]).drop (s.flash.history.length + 1 - 1024) }
    power := { s.power with replan := false } }).logEv 13 [v.toNat, trigger]
  let s2 := if low || plans.any (fun (p : Nat × Nat × Option Nat) => p.2.2.isNone) then s1.raiseVec 0 1 else s1
  plans.foldl (fun (s : State) (p : Nat × Nat × Option Nat) => if p.2.2.isNone ∧ !s.flash.dieFence.toNat.testBit p.1 then s.fenceDie p.1 else s) s2

/-- What a vote run comes to: the block's product and whether its check passes (R140). -/
structure VoteRun where
  product : List (List Word)
  passes : Bool

/-- What a vote comes to: the decided product, whether it logs an array event (else a checksum path event), the outcome code (R140). -/
structure VoteOutcome where
  product : Option (List (List Word))
  array : Bool
  code : Nat

/-- The decision table of R140. -/
def decideVote (run0 : List (List Word)) (run1 : VoteRun) (run2 : Option VoteRun) : VoteOutcome :=
  match run2.filter (fun r => r.passes) with
  | some r => if r.product = run0 then ⟨some run0, false, 1⟩ else ⟨some r.product, true, 2⟩
  | none =>
    if !run1.passes then ⟨none, false, 4⟩
    else if run1.product = run0 then ⟨some run0, false, 3⟩
    else ⟨some run1.product, true, 3⟩

/-- Events of the last 24 hours. -/
def State.within24h (s : State) (l : List DWord) : List DWord := l.filter (fun x => decide ((s.time - x).toNat < 86400 * 10 ^ 9))

/-- Records an event of a tile's array or checksum path; the third within 24 h fences the tile (R141, R422). -/
def State.voteEvent (s : State) (t : Nat) (array : Bool) (pass : Nat) : State :=
  let evs := s.within24h (if array then (s.tile t).mx.arrayEv else (s.tile t).mx.chkEv) ++ [s.time]
  let s1 := s.modMx t (fun m => if array then { m with arrayEv := evs } else { m with chkEv := evs })
  let s2 := (s1.logEv (if array then 15 else 16) [t]).replan 4
  if evs.length < 3 then s2
  else (s2.modMx t (fun m => if array then { m with arrayFenced := true } else { m with chkFenced := true })).fenceTileAt t (some pass)

/-- An undecided vote: the second within 24 h fences the tile (R140, R406). -/
def State.undecided (s : State) (t : Nat) : State :=
  let evs := s.within24h (s.tile t).mx.undecEv ++ [s.time]
  let s1 := (s.modMx t (fun m => { m with undecEv := evs, undec := true })).logEv 17 [t]
  if evs.length < 2 then s1 else (s1.modMx t (fun m => { m with undecFenced := true })).fenceTile t

/-- TILE_MX_VOTE after a vote (R140): the byte offset of the MPASS, neighbour, block, outcome. -/
def voteWord (pc : Nat) (u : Option Nat) (block code : Nat) : Nat := pc % 2 ^ 32 * 2 ^ 32 + u.getD 255 * 2 ^ 24 + block * 2 ^ 8 + code

/-- A vote run of a block (R140): it reads tile t's store; its product bit for bit and its check result. -/
def State.voteRun (s : State) (t : Nat) (p : Pass) (b : Nat) (obs : CheckObs) : VoteRun :=
  let r := ((s.tile t).seenBy p.id s.raceCoin).runBlock (s.tileAk6 t) p b obs
  { product := r.product, passes := !r.fails p.tol }

/-- VOTE_DONE: the vote runs end and decide the product; an undecided vote discards the pass. It comes once the neighbour's pass in flight
has finished, unless a vote of its own holds that (R140; log 102). In a CALL block the byte offset in the program is not stated and
is free (log 28). -/
def State.voteDone (s : State) (t : Nat) (run1 run2 : CheckObs) : State :=
  match (s.tile t).mx.vote with
  | none => s
  | some v =>
    match (s.tile t).mx.passes.find? (fun p => p.id == v.pass) with
    | none => s
    | some p =>
      let u := s.neighbour t
      if u.any (fun n => !(s.tile n).mx.passes.isEmpty && (s.tile n).mx.vote.isNone) then s else
        let o := decideVote v.run0 (s.voteRun t p v.block run1) (u.map (fun _ => s.voteRun t p v.block run2))
        let pc := if p.pc < 2 ^ 32 then p.pc else s.free.toNat
        let s0 := ((if p.pc < 2 ^ 32 then s else s.bump).countTile t 0x11 1).countMod 15 1
        let s1 := (s0.modMx t (fun m => { m with vote := none, voteReg := dword (voteWord pc u v.block o.code) })).drew (s.tile t) p.id
        match o.product with
        | some x =>
          (s1.modMx t (fun m => m.modPass p.id (fun p => { p with checked := p.checked + 1, sums := p.sums ++ [x] }))).voteEvent t o.array p.id
        | none => ((s1.discardFrom t p).fault t scCheckFail (some p.pc)).undecided t

/-- VOTE_DONE (R140). -/
def execVoteDone (t : TileId) (run1 run2 : CheckObs) (s : State) : Host.Outcome State Fault Refusal := .next (s.voteDone t run1 run2)

end Sys2Proof.Machine
end

