-- ==== Sys2Proof/Machine/MemErr.lean ====
section
/-!
DEFINITION. Corrected and uncorrectable errors of device memory, retirement, and failing reads of the slow tier (R243 to R247).
-/
namespace Sys2Proof.Machine

/-- Retires an HBM frame; its block, if it backs one, moves to a spare frame, and so does the target of a move under way (R229, R237,
R244). With no frame left the block stays until one is found (log 49). -/
def State.retireFrame (s : State) (f : Nat) : State :=
  if !isHbm f || s.flash.retired.contains f then s else
    let n := s.flash.retired.length
    let s1 := { s with
      flash := { s.flash with retired := s.flash.retired ++ [f] }
      mem := { s.mem with clearing := s.mem.clearing.filter (fun g => g != f) } }.logEv 6 [f]
    let s2 := match s1.mem.migs.find? (fun m => m.frame == f), s1.spareFrame n with
      | some m, .got s' g => { s' with mem := { s'.mem with migs := s'.mem.migs.map (fun (x : Mig) => if x.obj = m.obj ∧ x.blk = m.blk then { x with frame := g } else x) } }
      | _, _ => s1
    let s3 := s2.moveRetired
    if s3.floorShort && !s.floorShort then s3.raiseVec 0 1 else s3

/-- Times of the corrected errors of a stack within a span of nanoseconds. -/
def State.correctedIn (s : State) (st span : Nat) : Nat :=
  ((s.mem.eccRows.filter (fun (r : Nat × List DWord) => r.1 / 2 ^ 21 == st)).map (fun r => (r.2.filter (fun x => decide ((s.time - x).toNat < span))).length)).sum

/-- Corrected errors of a stack over 24 h above 100 and above four times its 30-day mean (R422). -/
def State.eccTrend (s : State) (st : Nat) : Bool :=
  let day := s.correctedIn st (86400 * 10 ^ 9)
  decide (100 < day) && decide (4 * s.correctedIn st (30 * 86400 * 10 ^ 9) < 30 * day)

/-- ECC_CORRECTED: counted per stack and row; a row with 8 in 24 h retires its frame, and a stack's trend goes to doubled refresh and a
re-plan when it first crosses its limit (R243, R244, R422, R423; log 49). -/
def State.eccCorrect (s : State) (st row frame : Nat) : State :=
  let key := 2 ^ 21 * st + row
  let month := 30 * 86400 * 10 ^ 9
  let times := ((s.mem.eccRows.get [] key).filter (fun x => decide ((s.time - x).toNat < month))) ++ [s.time]
  let s1 := { s with mem := { s.mem with
    eccCorrected := s.mem.eccCorrected.set st (word (satAdd 0xFFFFFFFF (s.mem.eccCorrected.get 0#32 st).toNat 1))
    eccRows := s.mem.eccRows.set key times } }.logEv 5 [st, row]
  let s2 := if 8 ≤ (s1.within24h times).length then s1.retireFrame frame else s1
  if s2.eccTrend st && !s.eccTrend st then
    { s2 with flash := { s2.flash with refresh := s2.flash.refresh ||| BitVec.ofNat 16 (2 ^ st) } }.replan 5
  else s2

/-- ECC_CORRECTED (R243). -/
def execEccCorrected (st : StackId) (row frame : Nat) (s : State) : Host.Outcome State Fault Refusal := .next (s.eccCorrect st row frame)


/-- An uncorrectable error at a unified address in HBM: the line is poisoned, the object quarantined, the frame retired (R244, R246,
R247). An address that backs no block in HBM returns none. -/
def State.uncorrectable (s : State) (addr : Nat) : State :=
  match s.blockOwner addr with
  | some (id, o) =>
    let f := o.frames.getD ((addr - o.ubase) / blockBytes) hbmFrames
    if !isHbm f then s else
      let st := stackOf f
      let s1 := { s with mem := { s.mem with eccUncorrected := s.mem.eccUncorrected.set st (half (satAdd 65535 (s.mem.eccUncorrected.get 0#16 st).toNat 1)) } }.logEv 18 [addr]
      (((s1.poisonLines [addr / 64]).quarantine id [addr / 64]).retireFrame f).settleHalted
  | none => s

/-- UNCORRECTABLE_ERROR (R246). -/
def execUncorrectableError (addr : Nat) (s : State) : Host.Outcome State Fault Refusal := .next (s.uncorrectable addr)

/-- PATROL_SCRUB: a pass over the frames in use that found uncorrectable errors at the listed addresses (R245). -/
def execPatrolScrub (errors : List Nat) (s : State) : Host.Outcome State Fault Refusal :=
  .next (if bitOf (s.reg rScrub) 31 then errors.foldl State.uncorrectable s else s)

/-- The 64-byte lines of a range of unified addresses. -/
def linesOf (a n : Nat) : List Nat := (List.range ((a + n + 63) / 64 - a / 64)).map (fun k => a / 64 + k)

/-- SLOW_READ_FAIL: the read is retried on the other live host port; if that fails too, its lines are poisoned and the object is
quarantined (R247). -/
def State.slowFail (s : State) (addr n : Nat) (retryOk : Bool) : State :=
  match s.blockOwner addr with
  | some (id, o) =>
    if isHbm (o.frames.getD ((addr - o.ubase) / blockBytes) 0) then s
    else if retryOk && s.hostA.presents .pf && s.hostB.presents .pf then s
    else
      let ls := (linesOf addr n).filter (fun l => decide (64 * l < o.ubase + blockBytes * o.blocks))
      ((s.poisonLines ls).quarantine id ls).settleHalted
  | none => s

/-- SLOW_READ_FAIL (R247). -/
def execSlowReadFail (addr n : Nat) (retryOk : Bool) (s : State) : Host.Outcome State Fault Refusal := .next (s.slowFail addr n retryOk)

end Sys2Proof.Machine
end

