-- ==== Sys2Proof/Machine/Power.lean ====
section
/-!
DEFINITION. The power manager, temperature, THROTTLE_N and the triggers of a re-plan (R30, R416 to R422).
-/
namespace Sys2Proof.Machine

/-- HLT_PWR_CTL.CAP as it acts (R416). -/
def State.ownerCap (s : State) : Nat := clampNat 1800 s.pwrClass (fld (s.reg rPwrCtl) 0 16)
/-- HLT_THROTTLE_CTL.CAP as it acts (R30). -/
def State.throttleCap (s : State) : Nat := clampNat 1800 s.pwrClass (fld (s.reg rThrottleCtl) 0 16)
/-- HLT_THROTTLE_CTL.RATIO as it acts. -/
def State.ratio (s : State) : Nat := atLeast1 (fld (s.reg rThrottleCtl) 16 6)

/-- The cap that a coolant inlet above 45 degrees gives (R416). -/
def State.inletCap (s : State) (inlet : Nat) : Nat := if 45 < inlet then max 1800 (s.pwrClass - 150 * (inlet - 45)) else s.pwrClass

/-- The effective cap: the lowest that applies (R416). -/
def State.effCap (s : State) (inlet : Nat) : Nat :=
  min s.pwrClass (min s.ownerCap (min (if s.inputs.throttle then s.throttleCap else s.pwrClass)
    (min (if s.oneFeed then 3600 else s.pwrClass) (s.inletCap inlet))))

/-- The least m that gives a die 0.40 GHz at its ceiling (R417). -/
def State.dieFloor (s : State) (d : Nat) : Nat := clampNat 1 64 (ceilDiv (64 * 400) (s.ceiling d))
/-- The floor that every die meets. -/
def State.mFloor (s : State) : Nat := ((List.range 8).map s.dieFloor).foldl max 1

/-- The formula of R417 for a target of pct percent of the cap; 0 for a negative value. With C at 0 the spec states no value: `open_`
(log 50). -/
def rawM (m p c cap pct open_ : Nat) : Nat := if c = 0 then open_ else (m * (pct * cap + 100 * c) - m * 100 * p) / (100 * c)

/-- m for the next tick (R417); while a clamp holds, m does not rise (R418; log 50). -/
def State.nextM (s : State) (x : PowerSample) : Nat :=
  let cap := s.effCap x.inlet
  let pct := if 99 * cap < 100 * x.avg100 then 95 else 98
  let m := s.power.m
  let new := max (min (rawM m x.p x.c cap pct s.free.toNat) (min (m + 4) 64)) s.mFloor
  if s.power.peakHold || s.power.avgHold then min new m else new

/-- A die's limit on m (R419): 2 lower while a reading is above its threshold, 1 higher once all are at least 3 degrees below. -/
def State.nextLimit (s : State) (x : PowerSample) (d : Nat) : Nat :=
  let l := s.power.dieLimit.get 64 d
  let t := clampNat 85 110 (fld (s.reg rThermCtl) 0 8)
  let tj := x.tj.getD d 0
  let st := [x.stackTemp.getD (2 * d) 0, x.stackTemp.getD (2 * d + 1) 0]
  if t < tj ∨ st.any (fun v => decide (95 < v)) then max (s.dieFloor d) (l - 2)
  else if tj + 3 ≤ t ∧ st.all (fun v => decide (v + 3 ≤ 95)) then min 64 (l + 1)
  else l

/-- POWER_TICK: the loop of R417, the thermal limits of R419, the readings of R416 and R421, a millisecond's energy, and the module counters
of time up to now (R432). -/
def State.powerTick (s : State) (x : PowerSample) : State :=
  let limits := (List.range 8).map (fun d => (d, s.nextLimit x d))
  let m := s.nextM x
  let s1 := s.accrue.countMod 0 x.p
  { (if x.c = 0 then s1.bump else s1) with
    power := { s.power with
      m := m
      cap := s.effCap x.inlet
      power := x.p
      dieLimit := limits.filter (fun (l : Nat × Nat) => l.2 != 64)
      therm := limits.any (fun l => decide (l.2 < 64))
      capped := decide (m < 64)
      inlet := x.inlet
      outlet := x.outlet
      tjMax := x.tj.foldl max 0
      inletHigh := decide (45 < x.inlet) } }

/-- POWER_TICK (R417). -/
def execPowerTick (x : PowerSample) (s : State) : Host.Outcome State Fault Refusal := .next (s.powerTick x)

/-- The peak clamp lowers m by 8, to no less than its floor (R418). -/
def State.peakClamp (s : State) : State :=
  let m := max (s.power.m - 8) s.mFloor
  { s.accrue with power := { s.power with m := m, peakHold := true, peakHit := true, capped := decide (m < 64) } }

/-- PEAK_CLAMP (R418): one microsecond of the clamp. -/
def execPeakClamp (s : State) : Host.Outcome State Fault Refusal := .next s.peakClamp

/-- m goes to RATIO at once, to no less than its floor, and the manager holds no more than the given cap from then on (R22, R30, R418;
log 50). -/
def State.toRatio (s : State) (cap : Nat) : State :=
  let m := max s.ratio s.mFloor
  { s.accrue with power := { s.power with m := m, cap := min s.power.cap cap, capped := decide (m < 64) } }

/-- AVERAGE_CLAMP (R418). -/
def State.averageClamp (s : State) : State :=
  let s1 := s.toRatio s.power.cap
  { s1 with power := { s1.power with avgHold := true } }

/-- AVERAGE_CLAMP (R418). -/
def execAverageClamp (s : State) : Host.Outcome State Fault Refusal := .next s.averageClamp

/-- CLAMP_RELEASE: power has fallen below 97 % of the limit of the average clamp or of the peak clamp (R418). -/
def execClampRelease (average : Bool) (s : State) : Host.Outcome State Fault Refusal :=
  .next { s with power := if average then { s.power with avgHold := false } else { s.power with peakHold := false } }

/-- THROTTLE_ASSERT (R30, R418). -/
def execThrottleAssert (s : State) : Host.Outcome State Fault Refusal :=
  .next { s.toRatio s.throttleCap with inputs := { s.inputs with throttle := true } }

/-- THROTTLE_RELEASE (R30): the next ticks raise m again (R417). -/
def execThrottleRelease (s : State) : Host.Outcome State Fault Refusal := .next { s.accrue with inputs := { s.inputs with throttle := false } }

/-- FLOW_LOW (R421); what clears the bit the spec does not say (log 118). -/
def execFlowLow (s : State) : Host.Outcome State Fault Refusal :=
  .next ({ s with power := { s.power with flowLow := true } }.raiseVec 0 1)

/-- PATH_MONITOR_READ: the hourly read; a slack below 20 ps re-plans (R422). -/
def State.monitorRead (s : State) (slacks : List (DieId × Int)) : State :=
  let s1 := s.logEv 14 (slacks.map (fun x => x.1.val * 2 ^ 32 + (BitVec.ofInt 32 x.2).toNat))
  if slacks.any (fun x => decide (x.2 < 20)) then s1.replan 2 else s1

/-- PATH_MONITOR_READ (R422). -/
def execPathMonitorRead (slacks : List (DieId × Int)) (s : State) : Host.Outcome State Fault Refusal := .next (s.monitorRead slacks)

/-- PLAN_24H (R422). -/
def execPlan24h (s : State) : Host.Outcome State Fault Refusal := .next (s.replan 1)

/-- HLT_REPLAN_WRITE: the owner writes REPLAN (R422). -/
def execHltReplanWrite (f : Func) (s : State) : Host.Outcome State Fault Refusal := .next (s.ownerWrite f (fun s => s.replan 6))

end Sys2Proof.Machine
end

