-- ==== Sys2Proof/Machine/SelfTest.lean ====
section
/-!
DEFINITION. Self-test rounds and slices, safe hold, and the SELFTEST descriptor (R425 to R430).
-/
namespace Sys2Proof.Machine

/-- SELFTEST_ROUND: a slice is pending for every unfenced tile, behind one that runs too; those still pending stay so once and are counted
(R425). -/
def State.selftestRound (s : State) : State :=
  if !bitOf (s.reg rStCtl) 31 || s.chip.stage ≠ 4 then s else
    allTiles.foldl (fun (s : State) t =>
      if s.tileFenced t then s else
        match (s.tile t).slice with
        | .none => s.modTile t (fun x => { x with slice := .pending })
        | .pending => s.countMod 14 1
        | .running => if (s.tile t).sliceNext then s.countMod 14 1 else s.modTile t (fun x => { x with sliceNext := true })) s

/-- SELFTEST_ROUND (R425). -/
def execSelftestRound (s : State) : Host.Outcome State Fault Refusal := .next s.selftestRound

/-- Tiles of a list under a slice. -/
def State.slices (s : State) (ts : List Nat) : Nat := (ts.filter (fun t => (s.tile t).slice == .running)).length

/-- A tile that a slice may take: no EXEC runs on it, or it has reached a YIELD and what R156 lists has completed: the pass, the launch and
the transfers in flight (R425). -/
def State.sliceFree (s : State) (t : Nat) : Bool :=
  let x := s.tile t
  (x.seq.owner.isNone || x.seq.yielded) && x.mx.passes.isEmpty && !x.vec.any (fun v => v.started) && !x.dma.any (fun d => d.started)

/-- A slice may begin on the tile now: one is pending, the tile is free for it and not fenced, its die has power, fewer than four run,
and none on its die (R425). -/
def State.maySlice (s : State) (t : Nat) : Bool :=
  (s.tile t).slice == .pending && !s.tileFenced t && s.sliceFree t && !s.dieRailOff (t / 12) && decide (s.slices allTiles < 4)
    && decide (s.slices ((List.range 12).map (fun k => t / 12 * 12 + k)) = 0)

/-- SELFTEST_SLICE_START: a sleeping tile, one in no mask included, first wakes as R68 and R69 say, and its slice stays pending until
then; on a tile in no mask the slice begins with a cleared store (R425, R426). -/
def State.sliceStart (s : State) (t : Nat) : State :=
  let x := s.tile t
  if !s.maySlice t then s
  else if x.sleep != .running then s.setTile t { x with waking := true }
  else s.setTile t { (if (s.tileCtx t).isNone then x.powerUp .running else x) with slice := .running }

/-- SELFTEST_SLICE_START (R425). -/
def execSelftestSliceStart (t : TileId) (s : State) : Host.Outcome State Fault Refusal := .next (s.sliceStart t)

/-- Safe hold (R427). -/
def State.enterSafeHold (s : State) : State :=
  let s1 := allCtxs.foldl (fun (s : State) c => s.localFail c 0x01#8) s
  let s2 := { s1 with chip := { s1.chip with safeHold := true } }
  let s3 := allCtxs.foldl (fun (s : State) c => (s.ctx c).descs.foldl (fun (s : State) d =>
    if d.ending.isSome then s
    else if d.start.isSome then s.cancelWork c d stAborted
    else s.endDesc c d.ring d.pos (endWith stAborted)) s) s2
  allCtxs.foldl (fun (s : State) c => s.raiseVec c 1) s3.assertFault

/-- The tile leaves its slice: its sequencer goes on, a tile in no mask is Off again with its store cleared (R156, R426). A slice that a
round has made pending meanwhile stays so (R425). -/
def State.sliceLeave (s : State) (t : Nat) : State :=
  let s1 := (s.modTile t (fun x => { x with slice := if x.sliceNext then .pending else .none, sliceNext := false, seq := if x.seq.yielded then { x.seq with yielded := false, wait := 0 } else x.seq })).countMod 13 1
  if (s1.tileCtx t).isNone then s1.modTile t (fun x => x.powerUp .off)
  else if s1.starts t then ((((s1.modMx t Matrix.startLoad).startDma t).pumpStats t).pumpTaps t) else s1

/-- HLT_ST_STATUS names the tile and test of a failing or marginal slice. -/
def State.noteSlice (s : State) (t test : Nat) : State := { s with power := { s.power with lastTile := byte t, failTest := byte test } }

/-- SELFTEST_SLICE_END: a marginal slice re-plans, a failing one fences the tile and enters safe hold, in which the EXEC that runs on the
tile ends ABORTED as every other does (R427). -/
def State.sliceEnd (s : State) (t : Nat) (r : SliceResult) : State :=
  if (s.tile t).slice != .running then s else
    match r with
    | .pass => s.sliceLeave t
    | .marginal test =>
      let s2 := ((s.sliceLeave t).noteSlice t test).logEv 8 [t, test]
      { s2 with power := { s2.power with marginal := true } }.replan 3
    | .fail test => ((((s.noteSlice t test).logEv 9 [t, test]).enterSafeHold).sliceLeave t).fenceTile t

/-- SELFTEST_SLICE_END (R427). -/
def execSelftestSliceEnd (t : TileId) (r : SliceResult) (s : State) : Host.Outcome State Fault Refusal := .next (s.sliceEnd t r)

/-- OP of a SELFTEST. -/
def isSelftest (op : Nat) (d : Desc) : Bool := d.opcode == 0x10 && d.num 16 1 == op

/-- The units a SELFTEST names: tiles, or ports (R428). -/
def selftestUnits (op : Nat) (d : Desc) : List Nat := if op = 3 then bitList (d.num 40 8) 64 else bitList (d.num 24 12) 96

/-- Whether STRESS or PORT_LOOP is refused by the state of its units (R428). -/
def State.selftestBad (s : State) (op : Nat) (d : Desc) : Bool :=
  match op with
  | 2 => (selftestUnits 2 d).any (fun t => !(s.ctx 0).mask.toNat.testBit t || (s.tile t).seq.owner.isSome)
  | 3 => (selftestUnits 3 d).any (fun p => (s.port p).state != 6)
  | _ => false

/-- The checks of SELFTEST; it skips check 5 (R102, R103, R428). -/
def selftestChk (op c : Nat) (s : State) (d : Desc) : Chk :=
  let secs := d.num 20 4
  { reserved := [(19, 1), (36, 4), (60, 4)]
    reservedBits := [(decide (4 ≤ d.num 17 1), 17)]
    format := [(if op = 2 ∧ bitOf (d.num 17 1) 1 then decide (d.num 18 1 < 85 ∨ 105 < d.num 18 1) else d.num 18 1 != 0, 18),
      (match op with
        | 1 => secs != 0
        | 2 => decide (secs = 0 ∨ 3600 < secs)
        | _ => decide (secs = 0 ∨ 60000 < secs), 20),
      if op = 3 then mustZero d 24 12 else allOnes d 24 12, if op = 3 then allOnes d 40 8 else mustZero d 40 8, badRef d 48, allOnes d 56 4]
    auth := [(op != 1 && c != 0, 16), (op == 1 && BitVec.ofNat 96 (d.num 24 12) &&& ~~~(s.ctx c).mask != 0#96, 24)]
    bounds := [(decide ((s.resolve c (d.num 48 8)).extent < d.num 56 4 ∨ d.num 56 4 < 16 + 16 * (selftestUnits op d).length), 56)]
    zero := (selftestUnits op d).isEmpty
    state := s.selftestBad op d }

/-- A unit that the observations do not reach was not run. -/
def noObs : UnitObs := { outcome := 2, failTest := 0, margin := 0#16, tjMax := 0, errors := 0#64 }

/-- The result area of a SELFTEST (R429). -/
def selftestResult (op : Nat) (d : Desc) (us : List (Nat × UnitObs)) : List Byte :=
  leBytes 8 d.time.toNat ++ leBytes 2 us.length ++ leBytes 6 0 ++
    (us.map (fun u => leBytes 2 (if op = 3 then u.1 + 0x100 else u.1) ++ [byte u.2.outcome, byte u.2.failTest] ++ leBytes 2 u.2.margin.toNat ++ [byte u.2.tjMax, 0#8] ++
      leBytes 8 (if op = 3 then u.2.errors.toNat else 0))).flatten

/-- Writes bytes at a reference of a descriptor and ends it, with the status of a failed write if it fails (R105). -/
def State.putResult (s : State) (c : Nat) (d : Desc) (ref : Nat) (bs : List Byte) (e : Ending) : State :=
  if bs.isEmpty then s.endDesc c d.ring d.pos e else
  match s.writeTarget c (s.resolve c ref) bs with
  | (s', none) => s'.endDesc c d.ring d.pos e
  | (s', some (st, k)) => s'.endDesc c d.ring d.pos { status := st, result := dword k }

/-- The tests of a SELFTEST have run on its units. A failing SLICE completes with CHECK and its tile's failing test runs again, which
ends at SELFTEST_SLICE_END (R427, R428); STRESS fences and unfences tiles and re-plans (R430). -/
def State.selftestDone (s : State) (op c : Nat) (d : Desc) (obs : List UnitObs) : State :=
  let us := (selftestUnits op d).zipIdx.map (fun (u : Nat × Nat) => (u.1, obs.getD u.2 noObs))
  let failed := us.filter (fun u => u.2.outcome == 1)
  let s1 := s.putResult c d (d.num 48 8) (selftestResult op d us) { status := if op = 1 ∧ !failed.isEmpty then stCheck else stOk, result := dword failed.length }
  match op with
  | 1 => us.foldl (fun (s : State) u =>
      if u.2.outcome = 1 then s.modTile u.1 (fun x => { x with slice := .running, sliceNext := x.slice == .pending }) else if u.2.outcome = 0 then s.countMod 13 1 else s) s1
  | 2 => (us.foldl (fun (s : State) u =>
      if u.2.outcome = 1 then (s.logEv 9 [u.1, u.2.failTest]).fenceTile u.1
      else if u.2.outcome = 0 ∧ bitOf (d.num 17 1) 0 ∧ s.tileFenced u.1 then s.unfenceTile u.1
      else s) s1).replan 6
  | _ => s1

/-- SELFTEST of an OP: starts; SLICE waits until its tiles are idle, and the same command then ends it (R428). -/
def State.selftestCommand (s : State) (op c q : Nat) (p : Word) (obs : List UnitObs) : State :=
  let s1 := (s.startDesc c q p (isSelftest op) (fun _ => false) (selftestChk op c) (fun s _ => s))
  match s1.desc? c q p with
  | some d =>
    if isSelftest op d && d.start.isSome && d.ending.isNone && d.work == .idle
        && (op != 1 || (selftestUnits 1 d).all (fun t => (s1.tile t).seq.owner.isNone && (s1.tile t).slice != .running))
    then s1.selftestDone op c d obs else s1
  | none => s1

/-- SELFTEST SLICE (R428). -/
def execSelftestSlice (c : CtxId) (q : RingId) (p : Word) (obs : List UnitObs) (s : State) : Host.Outcome State Fault Refusal :=
  .next (s.selftestCommand 1 c q p obs)

/-- SELFTEST STRESS (R430). -/
def execSelftestStress (c : CtxId) (q : RingId) (p : Word) (obs : List UnitObs) (s : State) : Host.Outcome State Fault Refusal :=
  .next (s.selftestCommand 2 c q p obs)

/-- SELFTEST PORT_LOOP (R428). -/
def execSelftestPortLoop (c : CtxId) (q : RingId) (p : Word) (obs : List UnitObs) (s : State) : Host.Outcome State Fault Refusal :=
  .next (s.selftestCommand 3 c q p obs)

end Sys2Proof.Machine
end

