-- ==== Sys2Proof/Machine/Pmc.lean ====
section
/-!
DEFINITION. Reading the performance counters, their wrap, samples and snapshots (R431 to R434).
-/
namespace Sys2Proof.Machine

/-- Events that depend on cycles, on the junction caches or on what the spec does not place: their counts are free (log 51). -/
def openEvent (ev : Nat) : Bool := [1, 5, 6, 7, 9, 0xE, 0xF, 0x10, 0x14, 0x15, 0x16, 0x17, 0x19, 0x1A].contains ev

/-- Tile counter k counts such an event. -/
def State.openCounter (s : State) (t k : Nat) : Bool := bitOf (s.reg (rPmcSel t k)) 31 && openEvent (fld (s.reg (rPmcSel t k)) 0 8)

/-- The count of tile counter k; an open one becomes a free value (log 51). -/
def State.tileCount (s : State) (t k : Nat) : State × Nat :=
  if s.openCounter t k then
    let v := s.free.toNat % 2 ^ 48
    (s.bump.modTile t (fun x => { x with pmc := x.pmc.set k (dword v) }), v)
  else (s, ((s.tile t).pmc.get 0#64 k).toNat)

/-- Module counters whose measure the spec leaves open: HBM transfers, which depend on what the write-back junction caches hold (R218), and
host bytes, of which the spec does not say which count (log 51). -/
def openModule (i : Nat) : Bool := decide (4 ≤ i) && decide (i ≤ 7)

/-- The count of module counter i: an open one has gone on by a free number since it was read last, those of time go on to now
(R432; log 51). -/
def State.modCount (s : State) (i : Nat) : State × Nat :=
  let s1 := if openModule i then s.bump.countMod i (s.free.toNat % 2 ^ 48) else s.accrue
  (s1, (s1.pmcMod.get 0#64 i).toNat)

/-- PMC_COUNTER_WRAP: an open counter passes 2^48 - 1; a counter whose events are commands wraps with them (R431, R432). -/
def State.counterWrap (s : State) (w : CounterId) : State :=
  match w with
  | .tile t k =>
    if s.openCounter t k then s.modTile t (fun x => { x with pmc := x.pmc.set k 0#64, pmcOvf := x.pmcOvf ||| BitVec.ofNat 16 (2 ^ k.val) }) else s
  | .module i => if openModule i then { s with pmcModOvf := s.pmcModOvf ||| BitVec.ofNat 16 (2 ^ i.val) } else s

/-- PMC_COUNTER_WRAP (R431). -/
def execPmcCounterWrap (which : CounterId) (s : State) : Host.Outcome State Fault Refusal := .next (s.counterWrap which)

/-- Samples and snapshots of a context are written (R434). -/
def State.pmcOn (s : State) (c : Nat) : Bool := (c == 0 || (s.ctx c).pmcRead) && bitOf (s.reg (rPmcCfg c)) 31

/-- Writes a record or a snapshot; one that would pass the extent of its reference is lost (R434). -/
def State.pmcWrite (s : State) (c ref off : Nat) (bs : List Byte) (written : Nat) : State :=
  if (s.resolve c ref).extent < off + bs.length then s.modCtx c (fun x => { x with pmcLost := x.pmcLost + 1#32 })
  else (s.writeRef c ref off bs).modCtx c (fun x => { x with pmcProduced := x.pmcProduced + word written })

/-- COUNT of a tagged instruction: ROWS, or ROWS x ELEMS of a launch; of one that has neither field it is free (R433; log 51). -/
def tagCount (w : TileWord) (open_ : Nat) : Nat :=
  match tclass w, top w with
  | 1, 2 => tf w 70 54
  | 1, 3 | 1, 6 | 1, 7 => tf w 98 89
  | 2, 1 => min 0xFFFFFFFF (tf w 104 88 * tf w 119 105)
  | _, _ => open_ % 2 ^ 32

/-- The tile's oldest tagged instruction that has ended (R433). -/
def Tile.tagDone (x : Tile) : Option Tag := x.tags.find? (fun g => !g.id.any (fun i => x.seq.busy.any (fun b => b.1 == i)))

/-- The core of a cluster that is sampled next: the running ones in turn (R433). -/
def State.turnCore (s : State) (t cl : Nat) : Option Nat :=
  let from_ := ((s.tile t).turns.get 31 cl) + 1
  ((List.range 32).map (fun k => (from_ + k) % 32)).find? (fun i => (s.core t cl i).running)

/-- The address of the n-th instruction after the one at pc in a core's code (R433). -/
def State.pcAhead (s : State) (t cl i : Nat) : Nat → Nat → Nat
  | 0, pc => pc
  | n + 1, pc =>
    match (s.modCore t cl i (fun y => { y with pc := word pc })).coreFetch t cl i with
    | .req q => s.pcAhead t cl i n (pc + q.len)
    | _ => pc

/-- The record of a sample of this tile, and the tile once it is taken; none where no tagged instruction has ended, or the cluster runs
nothing. The PC of a prep sample lies a free number of instructions, at most 8, after the core's; the words the table does not give
it are free (R433; log 51). -/
def State.sample? (s : State) (t : Nat) (x : SampleObs) : Option (List Byte × Tile) :=
  let r := s.reg (rPmcTag t)
  let y := s.tile t
  match x with
  | .tagged queued start done =>
    y.tagDone.map (fun g =>
      (leBytes 4 (if g.pc < 2 ^ 32 then g.pc else s.free.toNat) ++ [byte t, byte (tclass g.word * 16 + top g.word), 0#8, 0#8] ++ leBytes 8 g.issued.toNat
        ++ leBytes 4 queued.toNat ++ leBytes 4 start.toNat ++ leBytes 4 done.toNat ++ leBytes 4 (tagCount g.word s.free.toNat),
        { y with tags := y.tags.erase g }))
  | .prep cl =>
    if !bitOf r 23 then none else
      (s.turnCore t cl).map (fun i =>
        (leBytes 4 (s.pcAhead t cl i (s.free.toNat % 9) (s.core t cl i).pc.toNat) ++ [byte t, 0#8, 1#8, 0#8] ++ leBytes 8 s.time.toNat
          ++ leBytes 4 (i * 2 ^ 8 + cl.val) ++ s.freeBytes 12, { y with turns := y.turns.set cl i }))

/-- PMC_SAMPLE: record k goes to slot k mod size (R433, R434). -/
def State.pmcSample (s : State) (t : Nat) (x : SampleObs) : State :=
  match s.sample? t x with
  | none => s
  | some (bs, y) =>
    match (s.tileCtx t).filter s.pmcOn with
    | some c =>
      let size := 2 ^ (min (fld (s.reg (rPmcCfg c)) 0 4) 10 + 6)
      (s.bump.setTile t y).pmcWrite c (s.reg (rPmcBuf c)) (32 * ((s.ctx c).pmcProduced.toNat % size)) bs 1
    | none => s.setTile t y

/-- PMC_SAMPLE (R433). -/
def execPmcSample (t : TileId) (x : SampleObs) (s : State) : Host.Outcome State Fault Refusal := .next (s.pmcSample t x)

/-- The 128 bytes of a tile in a snapshot (R434). -/
def State.tileSnap (s : State) (t : Nat) : State × List Byte :=
  (List.range 16).foldl (fun (r : State × List Byte) k =>
    let v := r.1.tileCount t k
    (v.1, r.2 ++ leBytes 8 (v.2 + b2n ((s.tile t).pmcOvf.toNat.testBit k) * 2 ^ 48 + fld (s.reg (rPmcSel t k)) 0 8 * 2 ^ 56))) (s, [])

/-- PMC_SNAPSHOT: every SNAP_MS (R434). -/
def State.pmcSnapshot (s : State) (c : Nat) : State :=
  if !s.pmcOn c || fld (s.reg (rPmcCfg c)) 16 15 == 0 then s else
    let ts := bitList (s.ctx c).mask.toNat 96
    let r := ts.foldl (fun (r : State × List Byte) t =>
      let v := r.1.tileSnap t
      (v.1, r.2 ++ v.2)) (s, leBytes 8 s.time.toNat ++ leBytes 2 ts.length ++ leBytes 54 0)
    r.1.pmcWrite c (s.reg (rPmcSnap c)) 0 r.2 0

/-- PMC_SNAPSHOT (R434). -/
def execPmcSnapshot (c : CtxId) (s : State) : Host.Outcome State Fault Refusal := .next (s.pmcSnapshot c)

end Sys2Proof.Machine
end

