-- ==== Sys2Proof/Machine/RegRead.lean ====
section
/-!
DEFINITION. What a read of BAR0 returns (R8 to R10, R50, R81, R84) and what it clears (access code RC). Registers are read by 32-bit
words; a 64-bit register's words lie low word first (R9).
-/
namespace Sys2Proof.Machine

/-- The word at an offset of a 64-bit value. -/
def wordAt (v off : Nat) : Nat := if off % 8 = 4 then v / 2 ^ 32 % 2 ^ 32 else v % 2 ^ 32

/-- Image code of SEC_FW_STATUS and fused security version (R59, R61). -/
def Flash.fuseSvn (f : Flash) : Nat := (f.fuses.getLast?.getD 0#16).toNat
def State.fwStatus (s : State) : Nat :=
  s.chip.svn.toNat * 2 ^ 16 + (64 - s.flash.fuses.length) * 2 ^ 8 + b2n s.chip.bOk * 16 + b2n s.chip.aOk * 8 + b2n s.chip.wdog * 4 + s.chip.image % 4

/-- SAFE_BOOT of GLB_STAGE (R53). -/
def State.safeBoot (s : State) : Bool := s.chip.stage == 1 && !s.safeBootN

/-- GLB_STAGE (R53, R54). -/
def State.glbStage (s : State) : Nat :=
  s.chip.cause.toNat * 2 ^ 24 + s.chip.unit.toNat * 2 ^ 16 + b2n s.degraded * 2 ^ 7 + b2n s.safeBoot * 2 ^ 6 + b2n s.chip.safeHold * 2 ^ 5 +
    b2n s.chip.dbgUnlock * 2 ^ 4 + s.chip.stage % 16

/-- HLT_INPUT_STATUS (R17 to R35). -/
def State.inputStatus (s : State) : Nat :=
  (s.inputs.sticky.toNat &&& 0xFF0) + b2n s.inputs.throttle * 8 + b2n s.inputs.pwrGood * 4 + s.feeds

/-- The GLB and SEC registers, which are readable from enumeration on (R50). -/
def State.earlyWord (s : State) (off : Nat) : Option Nat :=
  if off = 0x40 then some s.strapNat
  else if off = 0x44 then some s.glbStage
  else if off = 0xE00000 then some s.fwStatus
  else if off = 0xE00008 then some s.flash.fuseSvn
  else if 0xE01000 ≤ off ∧ off < 0xE01800 then
    let k := (off - 0xE01000) / 0x40
    let p := off % 0x40
    if p = 0 then some (s.reg (rPubCtl k))
    else if p = 8 ∨ p = 12 then some (wordAt (s.reg (rPubCtx k)) p)
    else if 0x10 ≤ p then some (s.reg off) else none
  else none

/-- The HLT registers. -/
def State.hltWord (s : State) (off : Nat) : Option Nat :=
  let p := s.power
  if off = 0xA00000 then some s.inputStatus
  else if off = rSleepCtl ∨ off = rPwrCtl ∨ off = rThrottleCtl ∨ off = rThermCtl ∨ off = rStCtl then some (s.reg off)
  else if off = 0xA00208 then some (p.power % 2 ^ 16 * 2 ^ 16 + p.m * 2 ^ 9 + b2n p.peakHit * 8 + b2n (p.peakHold || p.avgHold) * 4 + b2n p.therm * 2 + b2n p.capped)
  else if off = 0xA00214 then
    some (b2n p.trip * 2 ^ 31 + b2n p.inletHigh * 2 ^ 30 + b2n p.flowLow * 2 ^ 29 + p.tjMax % 256 * 2 ^ 16 + p.inlet % 256 * 2 ^ 8 + p.outlet % 256)
  else if off = 0xA00304 then some (p.lastTile.toNat * 2 ^ 24 + p.failTest.toNat * 2 ^ 16 + s.slices allTiles * 2 ^ 8 + b2n p.marginal)
  else if off = 0xA00310 then some (b2n p.replan * 2 ^ 31 + b2n s.flash.ageing * 2 ^ 30 + s.flash.planTrigger.toNat * 2 ^ 16 + s.flash.planVersion.toNat)
  else if 0xA00400 ≤ off ∧ off < 0xA00480 ∧ off % 16 = 0 then
    let d := (off - 0xA00400) / 16
    some (s.flash.vOff.get 0 d * 2 ^ 16 + s.ceiling d)
  else none

/-- Plan items late and skipped (R242). -/
def Ctx.pfWord (x : Ctx) : Nat := min x.pfLate 65535 * 2 ^ 16 + min x.pfSkipped 65535

/-- The MEM registers (R222 to R250, R318). -/
def State.memWord (s : State) (off : Nat) : Option Nat :=
  if off = 0x200000 then some (b2n s.floorShort * 2 ^ 31 + b2n s.mem.cfgErr * 2 ^ 30 + s.freePool)
  else if off = 0x200004 then some s.freeSlowCount
  else if off = 0x200010 ∨ off = 0x200014 then some (wordAt (s.reg rMemWin) off)
  else if off = rScrub ∨ off = rJcPf then some (s.reg off)
  else if 0x200100 ≤ off ∧ off < 0x200200 then some (wordAt (s.reg (off / 8 * 8)) off)
  else if 0x200400 ≤ off ∧ off < 0x200500 ∧ off % 16 < 8 then
    let st := (off - 0x200400) / 16
    some (wordAt ((s.mem.eccCorrected.get 0#32 st).toNat * 2 ^ 32 + (s.mem.eccUncorrected.get 0#16 st).toNat * 2 ^ 16 +
      min 65535 (s.flash.retired.filter (fun f => stackOf f == st)).length) off)
  else if 0x201000 ≤ off ∧ off < 0x201800 then
    let c := (off - 0x201000) / 0x20
    match off % 0x20 with
    | 0x00 => some (s.reg (rFloor c))
    | 0x04 => some (s.reg (rSlowLimit c))
    | 0x08 => some (wordAt (s.reg (rObjRange c)) off)
    | 0x0C => some (wordAt (s.reg (rObjRange c)) off)
    | 0x10 => some (s.hbmUse c)
    | 0x14 => some (s.slowUsed c)
    | 0x18 => some (s.pinnedNow c)
    | _ => some (s.ctx c).pfWord
  else if 0x202000 ≤ off ∧ off < 0x202800 then
    let c := (off - 0x202000) / 0x20
    match off % 0x20 with
    | 0x00 => some (wordAt (s.reg (rLedgerRange c)) off)
    | 0x04 => some (wordAt (s.reg (rLedgerRange c)) off)
    | 0x08 => some (wordAt (s.reg (rSeqRange c)) off)
    | 0x0C => some (wordAt (s.reg (rSeqRange c)) off)
    | 0x10 => some ((s.entriesIn (s.entryLo c) (s.entryN c)).filter (fun (e : Nat × DWord) => entryValid e.2)).length
    | 0x14 => some (s.liveSeqs c).length
    | _ => none
  else none

/-- The OPX registers (R252 to R270, R291). -/
def State.opxWord (s : State) (off : Nat) : Option Nat :=
  let f := s.fabric
  if off = rModAddr ∨ off = rRouteIdx then some (s.reg off)
  else if off = 0x800004 then some (b2n f.cfgErr * 2 ^ 31 + f.enginesOff.toNat)
  else if off = 0x800008 then some (f.dropTag * 2 ^ 16 + f.dropHops)
  else if off = 0x800018 ∨ off = 0x80001C then some (wordAt (f.routes.get 0#64 (s.reg rRouteIdx)).toNat off)
  else if off = 0x800020 then some (f.cwSpared.toNat * 2 ^ 16 + f.cwDown.toNat)
  else if 0x801000 ≤ off ∧ off < 0x801800 then
    let x := s.port ((off - 0x801000) / 0x20)
    match off % 0x20 with
    | 0x00 => some (x.peerMod * 2 ^ 16 + x.peerPort * 2 ^ 10 + b2n x.swapped * 2 ^ 9 + b2n x.conn * 2 ^ 8 + b2n x.ret * 2 ^ 7 + x.state)
    | 0x04 => some (s.reg off)
    | 0x08 => some (x.uncorr.toNat * 2 ^ 16 + x.replays.toNat)
    | 0x0C => some x.corrected.toNat
    | _ => none
  else if 0x804000 ≤ off ∧ off < 0x804400 ∧ off % 16 = 0 then some (s.reg off)
  else none

/-- The LSR registers (R287 to R290). -/
def State.lsrWord (s : State) (off : Nat) : Option Nat :=
  if 0x900000 ≤ off ∧ off < 0x900400 then
    let x := s.bay ((off - 0x900000) / 0x40)
    match off % 0x40 with
    | 0x00 => some (b2n x.lifeWarn * 2 ^ 9 + b2n x.ilk * 2 ^ 8 + x.cause * 2 ^ 4 + x.state)
    | 0x04 => some (b2n x.retire)
    | 0x08 => some (wordAt x.serial.toNat 0)
    | 0x0C => some (wordAt x.serial.toNat 4)
    | 0x10 => some x.wear.toNat
    | 0x14 => some x.life.toNat
    | 0x18 => some (x.bias.toNat * 2 ^ 16 + x.power.toNat)
    | _ => none
  else none

/-- The registers of a TRN block at offset p (R341 to R361, R387 to R415). -/
def State.trnWord (s : State) (c p : Nat) : Option Nat :=
  let x := s.ctx c
  let m := x.mile
  let off := trnPage c + p
  match p with
  | 0x08 | 0x0C | 0x10 | 0x30 | 0x40 | 0x44 => some (s.reg off)
  | 0x00 | 0x04 | 0x18 | 0x1C | 0x20 | 0x24 | 0x28 | 0x2C => some (wordAt (s.reg (off / 8 * 8)) off)
  | 0x34 => some m.recs.toNat
  | 0x38 => some (min 65535 (x.descs.filter (fun d => match d.work with
      | .coll r => r.armed.isSome && d.ending.isNone
      | _ => false)).length * 2 ^ 16 + (if m.state = 2 ∨ m.state = 3 then x.fired else 0))
  | 0x48 => some (m.failRank % 4096 * 2 ^ 20 + m.cause.toNat * 2 ^ 12 + min 255 m.staleFail * 2 ^ 4 + m.state)
  | 0x50 | 0x54 => some (wordAt m.last.toNat p)
  | 0x58 | 0x5C => some (wordAt m.shard.toNat p)
  | 0x60 | 0x64 => some (wordAt m.shadow.toNat p)
  | 0x68 => some m.expected.toNat
  | _ => if 0x80 ≤ p ∧ p < 0xA0 then some (m.digest.toNat / 2 ^ (8 * (p - 0x80)) % 2 ^ 32) else none

/-- CTX_SB_STATUS (R362, R373, R376). -/
def Ctx.sbStatus (x : Ctx) : Nat :=
  x.sb.failRank % 4096 * 2 ^ 20 + x.sb.lastCause.toNat * 2 ^ 12 +
    (match x.pair with
     | some p => b2n p.async * 2 ^ 11 + p.active * 2 ^ 10 + p.st1 * 2 ^ 8 + p.st0 * 2 ^ 6 + p.phase
     | none => 0)

/-- CTX_SB_STEP: zero while the active bank is invalid (R367). -/
def Ctx.sbStep (x : Ctx) : Nat :=
  match x.pair with
  | some p => if (if p.active = 0 then p.st0 else p.st1) = 0 then 0 else x.sb.step.toNat
  | none => 0

/-- The word of a CTX page at offset p, which is a multiple of 4 (R83, R85, R361 and the register maps). -/
def State.ctxWord (s : State) (c p : Nat) : Option Nat :=
  let x := s.ctx c
  let off := ctxPage c + p
  if p = 0x000 then some (b2n (x.state == .resetting) * 2 ^ 7 + b2n x.strict * 2 + b2n x.run)
  else if p = 0x004 then some (x.epoch.toNat * 2 ^ 16 + x.cause * 2 ^ 8 + b2n x.maskErr * 16 + b2n x.linkHold * 8 + x.state.code)
  else if p = 0x008 then some (b2n x.pmcRead * 2 + b2n (x.enable || c == 0))
  else if 0x010 ≤ p ∧ p < 0x01C then some (x.mask.toNat / 2 ^ (8 * (p - 0x10)) % 2 ^ 32)
  else if p = 0x00C ∨ p = 0x028 ∨ p = 0x300 ∨ p = 0x310 ∨ p = 0x320 ∨ p = 0x400 ∨ p = 0x410 ∨ p = 0x800 ∨ p = 0xA08 ∨ p = 0xA20 ∨ p = 0xA24
      ∨ p = 0xA28 ∨ p = 0xE10 ∨ p = 0xF08 then some (s.reg off)
  else if p / 8 * 8 = 0x020 ∨ p / 8 * 8 = 0x308 ∨ p / 8 * 8 = 0x318 ∨ p / 8 * 8 = 0x408 ∨ p / 8 * 8 = 0x418 ∨ p / 8 * 8 = 0xA00 ∨ p / 8 * 8 = 0xA10
      ∨ p / 8 * 8 = 0xF00 ∨ p / 8 * 8 = 0xF10 ∨ (0x140 ≤ p ∧ p < 0x240) ∨ (0x040 ≤ p ∧ p < 0x140 ∧ p % 16 < 8) then some (wordAt (s.reg (off / 8 * 8)) p)
  else if 0x040 ≤ p ∧ p < 0x140 then
    if p % 16 = 8 then some (s.reg off) else some ((x.rings.get {} ((p - 0x40) / 16)).fetched % 2 ^ 32)
  else if p = 0x02C then some (x.produced % 2 ^ 32)
  else if p = 0x030 then some x.staleDrop.toNat
  else if p / 8 * 8 = 0x038 then some (wordAt x.faultInfo.toNat p)
  else if p = 0x324 then some x.ovfProduced.toNat
  else if p / 8 * 8 = 0x420 then some (wordAt x.integ.toNat p)
  else if 0x600 ≤ p ∧ p < 0x800 then some (wordAt (x.stallOf s.time ((p - 0x600) / 8)).toNat p)
  else if p / 8 * 8 = 0xA30 then some (wordAt x.rollout.level p)
  else if 0xC00 ≤ p ∧ p < 0xE00 then s.trnWord c (p - 0xC00)
  else if p = 0xE00 then some x.sbStatus
  else if p / 8 * 8 = 0xE08 then some (wordAt x.sbStep p)
  else if p = 0xE18 then some x.sb.done.toNat
  else if p = 0xE1C then some x.sb.failed.toNat
  else if 0xE20 ≤ p ∧ p < 0xE40 then some (x.sb.digest.toNat / 2 ^ (8 * (p - 0xE20)) % 2 ^ 32)
  else if 0xE40 ≤ p ∧ p < 0xE60 then some (x.pair.elim 0 (fun q => q.mapDigest.toNat / 2 ^ (8 * (p - 0xE40)) % 2 ^ 32))
  else if p = 0xF18 then some x.pmcProduced.toNat
  else if p = 0xF1C then some x.pmcLost.toNat
  else none

/-- TILE_SEQ_PC: the oldest instruction not yet issued (R147, R150). -/
def Seq.oldest (q : Seq) : Nat :=
  match q.held, q.call with
  | (a, _) :: _, c => if a < 2 ^ 32 then a else a - 2 ^ 32 - c.elim 0 (fun b => b.1)
  | [], some (_, _, i) => 16 * i
  | [], none => q.pc

/-- TILE_SEQ_STATUS (R151, R156). -/
def Tile.seqStatus (x : Tile) : Nat :=
  b2n x.seq.owner.isSome * 2 ^ 31 + b2n x.seq.call.isSome * 2 ^ 30 + (if x.seq.yielded then 5 else x.seq.wait) * 2 ^ 27 + b2n x.seq.evSat * 2 ^ 26 +
    (if x.seq.wait = 3 then x.seq.waitCtr else 0) * 2 ^ 21

/-- The tile's clusters that satisfy p, as bits. -/
def Tile.clusterBits (x : Tile) (p : Cluster → Bool) : Nat := ((List.range 27).map (fun k => b2n (p (x.clusters.get {} k)) * 2 ^ k)).sum

/-- TILE_MX_HEALTH (R141, R406). -/
def State.mxHealth (s : State) (m : Matrix) : Nat :=
  let n := fun (l : List DWord) => min 255 (s.within24h l).length
  n m.undecEv * 2 ^ 24 + n m.chkEv * 2 ^ 16 + n m.arrayEv * 2 ^ 8 + b2n m.undecFenced * 8 + b2n m.undec * 4 + b2n m.chkFenced * 2 + b2n m.arrayFenced

/-- The TILE registers; TILE_PREP_BUSY shows both kinds of dispatch that R174 names. -/
def State.tileWord (s : State) (t p : Nat) : Option Nat :=
  let x := s.tile t
  match p with
  | 0x100 => some x.seqStatus
  | 0x104 => some x.seq.oldest
  | 0x110 => some (x.clusterBits (fun c => !c.idle))
  | 0x114 => some (x.clusterBits (fun c => c.desc))
  | 0x120 => some x.prepFault.toNat
  | 0x124 => some x.prepEpc.toNat
  | 0x128 => some x.prepTval.toNat
  | 0x200 => some (s.reg (rMxTol t))
  | 0x204 => some x.mx.score.toNat
  | 0x208 => some (s.mxHealth x.mx)
  | 0x210 | 0x214 => some (wordAt x.mx.blocks.toNat p)
  | 0x218 => some (x.mx.skipped * 2 ^ 16 + x.mx.mismatch)
  | 0x220 | 0x224 => some (wordAt x.mx.voteReg.toNat p)
  | _ => none

/-- A read of a PMC register; an open count becomes a free value (R431, R432; log 51). -/
def State.pmcWord (s : State) (off : Nat) : State × Option Nat :=
  if off < 0xC18000 then
    let t := (off - 0xC00000) / 0x400
    let p := off % 0x400
    if p < 0x40 ∨ p = 0x184 then (s, some (s.reg off))
    else if 0x100 ≤ p ∧ p < 0x180 then
      let v := s.tileCount t ((p - 0x100) / 8)
      (v.1, some (wordAt v.2 p))
    else if p = 0x180 then (s, some (s.tile t).pmcOvf.toNat)
    else (s, none)
  else if 0xC20000 ≤ off ∧ off < 0xC20080 then
    let v := s.modCount ((off - 0xC20000) / 8)
    (v.1, some (wordAt v.2 off))
  else if off = 0xC20100 then (s.accrue, some s.accrue.pmcModOvf.toNat)
  else (s, none)

/-- The register word at an offset of BAR0; none where the spec names no register. -/
def State.bar0Word (s : State) (off : Nat) : State × Option Nat :=
  if 0xC00000 ≤ off ∧ off < 0xD00000 then s.pmcWord off
  else (s,
    if 0x100000 ≤ off ∧ off < 0x140000 then s.ctxWord ((off - 0x100000) / 0x1000) (off % 0x1000)
    else if 0xF00000 ≤ off ∧ off < 0xF08000 then s.trnWord ((off - 0xF00000) / 0x200) (off % 0x200)
    else if 0x1000000 ≤ off ∧ off < 0x1600000 then s.tileWord ((off - 0x1000000) / 0x10000) (off % 0x10000)
    else if 0x200000 ≤ off ∧ off < 0x300000 then s.memWord off
    else if 0x800000 ≤ off ∧ off < 0x900000 then s.opxWord off
    else if 0x900000 ≤ off ∧ off < 0xA00000 then s.lsrWord off
    else if 0xA00000 ≤ off ∧ off < 0xB00000 then s.hltWord off
    else s.earlyWord off)

/-- What a read of a word clears (access code RC). The results a step record counts as discarded are those of the step, whether or not
CTX_STALE_DROP was read in it (R360). -/
def State.clearRead (s : State) (off : Nat) : State :=
  if 0x100000 ≤ off ∧ off < 0x140000 then
    let c := (off - 0x100000) / 0x1000
    if off % 0x1000 = 0x030 then s.modCtx c (fun x => { x with staleDrop := 0#32, mile := { x.mile with staleAtOpen := x.mile.staleAtOpen - x.staleDrop } })
    else if off % 0x1000 = 0xC48 then s.modMile c (fun m => { m with staleFail := 0 }) else s
  else if 0xF00000 ≤ off ∧ off < 0xF08000 ∧ off % 0x200 = 0x48 then s.modMile ((off - 0xF00000) / 0x200) (fun m => { m with staleFail := 0 })
  else if 0x201000 ≤ off ∧ off < 0x201800 ∧ off % 0x20 = 0x1C then s.modCtx ((off - 0x201000) / 0x20) (fun x => { x with pfLate := 0, pfSkipped := 0 })
  else if off = 0x800008 then { s with fabric := { s.fabric with dropTag := 0, dropHops := 0 } }
  else if 0x801000 ≤ off ∧ off < 0x801800 ∧ off % 0x20 = 0x08 then s.modPort ((off - 0x801000) / 0x20) (fun x => { x with uncorr := 0#16, replays := 0#16 })
  else if 0x801000 ≤ off ∧ off < 0x801800 ∧ off % 0x20 = 0x0C then s.modPort ((off - 0x801000) / 0x20) (fun x => { x with corrected := 0#32 })
  else if 0x1000000 ≤ off ∧ off < 0x1600000 ∧ off % 0x10000 = 0x218 then
    s.modMx ((off - 0x1000000) / 0x10000) (fun m => { m with skipped := 0, mismatch := 0 })
  else s

/-- GLB and SEC, which are open before stage 4 (R50). -/
def earlyBlock (off : Nat) : Bool := decide (off < 0x100000) || (decide (0xE00000 ≤ off) && decide (off < 0xF00000))

/-- The offset in the BAR0 of physical function 0 that an access of a function reaches: virtual function n has the page of context n
(R81). -/
def bar0Offset (f : Func) (off : Nat) : Option Nat :=
  match f with
  | .pf => some off
  | .vf n => if off < 0x1000 then some (ctxPage n + off) else none

/-- Reads the 32-bit word at an offset: all ones before stage 4 outside GLB and SEC (R50); free where the spec names no register
(log 52). -/
def State.readWord (s : State) (off : Nat) : State × Nat :=
  if s.chip.stage ≠ 4 ∧ !earlyBlock off then (s.countErr, 0xFFFFFFFF)
  else
    match s.bar0Word off with
    | (s', some v) => (s'.clearRead off, v % 2 ^ 32)
    | (s', none) => (s'.bump, s'.free.toNat % 2 ^ 32)

end Sys2Proof.Machine
end

