-- ==== Sys2Proof/Machine/Regs.lean ====
section
/-!
DEFINITION. Register writes and reads through BAR0 (R8 to R10, R50, R81, R83, R84): registers without behaviour of their own store their
writable bits; the others do what their own commands do.
-/
namespace Sys2Proof.Machine

/-- The value that a word write forms: a 32-bit register's value, the low word of a 64-bit register (which is latched), or the
whole 64-bit value (R9). -/
inductive Formed where
  | word (v : Nat)
  | low (v : Nat)
  | whole (v : Nat)

/-- Clears sticky bits of HLT_INPUT_STATUS (R34). SMB_ALERT_N is released once none of REV_A, REV_B and MGMT_STUCK, which assert it, is set;
the spec does not say when it is released (log 96). -/
def State.clearSticky (s : State) (v : Nat) : State :=
  let left := s.inputs.sticky &&& ~~~(word (v &&& 0xFF0))
  { s with inputs := { s.inputs with sticky := left, smbAlert := s.inputs.smbAlert && left &&& 0xC20#32 != 0#32 } }.refreshFault

/-- STICKY_CAUSE_CLEAR (R34). -/
def execStickyCauseClear (f : Func) (v : Word) (s : State) : Host.Outcome State Fault Refusal :=
  .next (s.ownerWrite f (fun s => s.clearSticky v.toNat))

/-- PMC_SEL_k: a count that is open keeps a free value when its selection changes (R431; log 51). -/
def State.writePmcSel (s : State) (t k v : Nat) : State := (s.tileCount t k).1.setReg (rPmcSel t k) (v &&& 0x800000FF)

/-- The HLT registers (R34, R64, R416 to R427). -/
def State.writeHlt (s : State) (off v : Nat) : State :=
  if off = 0xA00000 then s.clearSticky v
  else if off = rSleepCtl then s.setReg off (v &&& 0x03FFFFFF)
  else if off = rPwrCtl then s.setReg off (v &&& 0xFFFF)
  else if off = rThrottleCtl then s.setReg off (v &&& 0x3FFFFF)
  else if off = 0xA00208 then if bitOf v 3 then { s with power := { s.power with peakHit := false } } else s
  else if off = rThermCtl then s.setReg off (v &&& 0xFF)
  else if off = 0xA00214 then if bitOf v 31 then { s with power := { s.power with trip := false } }.refreshFault else s
  else if off = rStCtl then s.setReg off (v &&& 0x8000FFFF)
  else if off = 0xA00304 then if bitOf v 0 then { s with power := { s.power with marginal := false } } else s
  else if off = 0xA00310 then if bitOf v 31 then s.replan 6 else s
  else s

/-- The MEM registers of 32 bits. -/
def State.writeMem32 (s : State) (off v : Nat) : State :=
  if off = 0x200000 then if bitOf v 30 then { s with mem := { s.mem with cfgErr := false } } else s
  else if off = rScrub then s.setReg off (v &&& 0x8000FFFF)
  else if off = rJcPf then s.setReg off (v &&& 0x800000FF)
  else if 0x201000 ≤ off ∧ off < 0x201800 then
    if off % 0x20 = 0 then s.writeFloor ((off - 0x201000) / 0x20) (word v)
    else if off % 0x20 = 4 then s.setReg off (v &&& 0xFFFFFF) else s
  else s

/-- The MEM registers of 64 bits. -/
def State.writeMem64 (s : State) (off v : Nat) : State :=
  if off = rMemWin then s.setReg off (v % 2 ^ 52)
  else if 0x200100 ≤ off ∧ off < 0x200200 then
    if off % 16 = 0 then s.writeSlowBase ((off - 0x200100) / 16) (dword v) else s.writeSlowSize ((off - 0x200100) / 16) (dword v)
  else if 0x201000 ≤ off ∧ off < 0x201800 ∧ off % 0x20 = 8 then s.writeObjRange ((off - 0x201000) / 0x20) (dword v)
  else if 0x202000 ≤ off ∧ off < 0x202800 ∧ off % 0x20 = 0 then s.writeLedgerRange ((off - 0x202000) / 0x20) (dword v)
  else if 0x202000 ≤ off ∧ off < 0x202800 ∧ off % 0x20 = 8 then s.writeSeqRange ((off - 0x202000) / 0x20) (dword v)
  else s

/-- The OPX, LSR and TILE registers, and PMC registers of 32 bits. -/
def State.writeUnit (s : State) (off v : Nat) : State :=
  if off = rModAddr then s.writeModAddr (word v)
  else if off = 0x800004 then if bitOf v 31 then { s with fabric := { s.fabric with cfgErr := false } } else s
  else if off = rRouteIdx then s.setReg off (v &&& 0xFFF)
  else if 0x801000 ≤ off ∧ off < 0x801800 ∧ off % 0x20 = 4 then s.writePortCtl ((off - 0x801000) / 0x20) (word v)
  else if 0x804000 ≤ off ∧ off < 0x804400 ∧ off % 16 = 0 then s.writeTag ((off - 0x804000) / 16) (word v)
  else if 0x900000 ≤ off ∧ off < 0x900400 ∧ off % 0x40 = 4 then if bitOf v 0 then s.retire ((off - 0x900000) / 0x40) else s
  else if 0xC00000 ≤ off ∧ off < 0xC18000 then
    let t := (off - 0xC00000) / 0x400
    let p := off % 0x400
    if p < 0x40 then s.writePmcSel t (p / 4) v
    else if p = 0x180 then s.modTile t (fun x => { x with pmcOvf := x.pmcOvf &&& ~~~(BitVec.ofNat 16 v) })
    else if p = 0x184 then s.setReg off (v &&& 0x9F9F0000)
    else s
  else if off = 0xC20100 then { s with pmcModOvf := s.pmcModOvf &&& ~~~(BitVec.ofNat 16 v) }
  else if 0x1000000 ≤ off ∧ off < 0x1600000 then
    let t := (off - 0x1000000) / 0x10000
    let p := off % 0x10000
    if p = 0x200 then s.setReg off v
    else if p = 0x208 then if bitOf v 2 then s.modMx t (fun m => { m with undec := false }) else s
    else if p = 0x100 then if bitOf v 26 then s.modSeq t (fun q => { q with evSat := false }) else s
    else if p = 0x120 then if bitOf v 31 then s.modTile t (fun x => { x with prepFault := x.prepFault &&& 0x7FFFFFFF#32 }) else s
    else s
  else s

/-- Publisher key slots; HASH and CTX change only while VALID is 0 (R380). -/
def State.writeSec32 (s : State) (off v : Nat) : State :=
  if 0xE01000 ≤ off ∧ off < 0xE01800 then
    let k := (off - 0xE01000) / 0x40
    if off % 0x40 = 0 then s.writePubCtl k (word v)
    else if 0x10 ≤ off % 0x40 ∧ !bitOf (s.reg (rPubCtl k)) 31 then s.setReg off v else s
  else s

/-- Stores the writable bits of a set-up register of the CTX page, only while the context is Idle. -/
def State.setIdle (s : State) (c off v : Nat) : State := if (s.ctx c).state == .idle then s.setReg off v else s

/-- A 32-bit register of a TRN block at offset p; a ring that is enabled starts its count from 0 (R360, R361). -/
def State.writeTrn32 (s : State) (c p v : Nat) : State :=
  let off := trnPage c + p
  if (s.ctx c).state != .idle then s
  else if p = 0x08 then s.setReg off (v &&& 0xC0001FFF)
  else if p = 0x0C ∨ p = 0x10 then s.setReg off v
  else if p = 0x30 then
    (if bitOf v 31 && !bitOf (s.reg off) 31 then s.modMile c (fun m => { m with recs := 0#32 }) else s).setReg off (v &&& 0x8000000F)
  else if p = 0x40 then s.setReg off (v &&& 0x8000007F)
  else if p = 0x44 then s.setReg off (v &&& 0xFFFF)
  else s

/-- The 64-bit registers of a TRN block. -/
def trn64 (p : Nat) : Bool := p == 0x00 || p == 0x18 || p == 0x20 || p == 0x28

/-- CTX_CTL: RUN and STRICT are set, then RESUME and RESET act (R85, R107). -/
def State.writeCtxCtl (s : State) (c v : Nat) : State :=
  let s1 := s.modCtx c (fun x => { x with strict := bitOf v 1 })
  let s2 := if bitOf v 0 then s1.setRun c else s1.clearRun c
  let s3 := if bitOf v 6 then s2.resume c else s2
  if bitOf v 7 then s3.resetCtx c else s3

/-- CTX_GRANT, from physical function 0 (R84). -/
def State.writeGrant (s : State) (c v : Nat) : State :=
  let s1 := s.modCtx c (fun x => { x with pmcRead := bitOf v 1 })
  if bitOf v 0 then s1.enableCtx c else s1.disableCtx c

/-- The 32-bit registers of a CTX page that the context writes, at offset p. -/
def State.writeCtx32 (s : State) (c p v : Nat) : State :=
  let off := ctxPage c + p
  if p = 0x000 then s.writeCtxCtl c v
  else if p = 0x00C then s.setReg off v
  else if p = 0x028 then s.writeCqCfg c (word v)
  else if 0x040 ≤ p ∧ p < 0x140 ∧ p % 16 = 8 then s.writeRingCfg c ((p - 0x40) / 16) (word v)
  else if p = 0x300 then s.writeNumCtl c (word v)
  else if p = 0x310 then s.setIdle c off (v &&& 0x1FFF)
  else if p = 0x320 then
    if (s.ctx c).state == .idle then
      (if bitOf v 31 && !bitOf (s.reg off) 31 then s.modCtx c (fun x => { x with ovfProduced := 0#32 }) else s).setReg off (v &&& 0x8000000F)
    else s
  else if p = 0x400 then s.setIdle c off (v &&& 0xFFFF)
  else if p = 0x410 then s.setIdle c off (v &&& 0x1FF)
  else if p = 0x800 then s.writeKvLayout c (word v)
  else if p = 0xA08 then if v % 2 ^ 19 ≤ 262144 then s.setIdle c off (v % 2 ^ 19) else s
  else if 0xC00 ≤ p ∧ p < 0xE00 then s.writeTrn32 c (p - 0xC00) v
  else if p = 0xE10 then s.setIdle c off (v &&& 0xFFFF)
  else if p = 0xF08 then
    if (s.ctx c).state == .idle then
      (if bitOf v 31 && !bitOf (s.reg off) 31 then s.modCtx c (fun x => { x with pmcProduced := 0#32 }) else s).setReg off (v &&& 0xFFFF000F)
    else s
  else s

/-- The 64-bit registers of a CTX page that the context writes, at offset p: ring bases while their ring is off (R86), the others while
it is Idle. -/
def State.writeCtx64 (s : State) (c p v : Nat) : State :=
  let off := ctxPage c + p
  if p = 0x020 then if s.cqOn c then s else s.setReg off v
  else if 0x040 ≤ p ∧ p < 0x140 then if s.ringOn c ((p - 0x40) / 16) then s else s.setReg off v
  else if 0xC00 ≤ p ∧ p < 0xE00 then s.setIdle c (trnPage c + (p - 0xC00)) v
  else s.setIdle c off v

/-- The registers of a CTX page of 64 bits. -/
def ctx64 (p : Nat) : Bool :=
  p == 0x020 || p == 0x308 || p == 0x318 || p == 0x408 || p == 0x418 || p == 0xA00 || p == 0xA10 || p == 0xF00 || p == 0xF10
    || (decide (0x040 ≤ p ∧ p < 0x140) && p % 16 == 0) || (decide (0x140 ≤ p ∧ p < 0x240) && p % 8 == 0) || (decide (0xC00 ≤ p ∧ p < 0xE00) && trn64 (p - 0xC00))

/-- A 64-bit register that can be written starts at an offset of BAR0. -/
def wide64 (off : Nat) : Bool :=
  if 0x100000 ≤ off ∧ off < 0x140000 then ctx64 (off % 0x1000)
  else if 0xF00000 ≤ off ∧ off < 0xF08000 then trn64 (off % 0x200)
  else if 0x200000 ≤ off ∧ off < 0x300000 then
    off == rMemWin || (decide (0x200100 ≤ off ∧ off < 0x200200) && off % 8 == 0) || (decide (0x201000 ≤ off ∧ off < 0x201800) && off % 0x20 == 8)
      || (decide (0x202000 ≤ off ∧ off < 0x202800) && (off % 0x20 == 0 || off % 0x20 == 8))
  else if 0xC00000 ≤ off ∧ off < 0xC18000 then decide (0x100 ≤ off % 0x400 ∧ off % 0x400 < 0x180) && off % 8 == 0
  else off == 0x800018 || (decide (0xE01000 ≤ off ∧ off < 0xE01800) && off % 0x40 == 8)

/-- A tenant-written register is written by the function that holds its context (R84); MASK_ERR by whoever reaches it. -/
def State.ctxRegWrite (s : State) (f : Func) (c : Nat) (g : State → State) : State := if s.holds f c then g s else s

/-- Writes a 64-bit register. -/
def State.write64At (s : State) (f : Func) (off v : Nat) : State :=
  if 0x100000 ≤ off ∧ off < 0x140000 then s.ctxRegWrite f ((off - 0x100000) / 0x1000) (fun s => s.writeCtx64 ((off - 0x100000) / 0x1000) (off % 0x1000) v)
  else if 0xF00000 ≤ off ∧ off < 0xF08000 then s.ctxRegWrite f ((off - 0xF00000) / 0x200) (fun s => s.setIdle ((off - 0xF00000) / 0x200) off v)
  else if 0x200000 ≤ off ∧ off < 0x300000 then s.writeMem64 off v
  else if off = 0x800018 then s.writeRoute (dword v)
  else if 0xC00000 ≤ off ∧ off < 0xC18000 then
    s.modTile ((off - 0xC00000) / 0x400) (fun x => { x with pmc := x.pmc.set ((off % 0x400 - 0x100) / 8) (dword (v % 2 ^ 48)) })
  else
    let k := (off - 0xE01000) / 0x40
    if bitOf (s.reg (rPubCtl k)) 31 then s else s.setReg off v

/-- Writes a 32-bit register, or a word of CTX_TILE_MASK (R83). -/
def State.write32At (s : State) (f : Func) (off v : Nat) : State :=
  if 0x100000 ≤ off ∧ off < 0x140000 then
    let c := (off - 0x100000) / 0x1000
    let p := off % 0x1000
    let owner := f == .pf
    if p = 0x004 then if bitOf v 4 then s.modCtx c (fun x => { x with maskErr := false }) else s
    else if p = 0x008 then if owner then s.writeGrant c v else s
    else if p = 0x010 ∨ p = 0x014 then
      if owner then s.modCtx c (fun x => { x with maskLatch := dword (setFld x.maskLatch.toNat (8 * (p - 0x10)) 32 v) }) else s
    else if p = 0x018 then if owner then s.applyMask c (word v) else s
    else if p = 0xA20 then if owner then s.writeTgCtl c (word v) else s
    else if p = 0xA24 then if owner then s.writeTgRate c (word v) else s
    else if p = 0xA28 then if owner then s.writeTgDepth c (word v) else s
    else s.ctxRegWrite f c (fun s => s.writeCtx32 c p v)
  else if 0xF00000 ≤ off ∧ off < 0xF08000 then
    s.ctxRegWrite f ((off - 0xF00000) / 0x200) (fun s => s.writeTrn32 ((off - 0xF00000) / 0x200) (off % 0x200) v)
  else if 0x200000 ≤ off ∧ off < 0x300000 then s.writeMem32 off v
  else if 0xA00000 ≤ off ∧ off < 0xB00000 then s.writeHlt off v
  else if 0xE00000 ≤ off ∧ off < 0xF00000 then s.writeSec32 off v
  else s.writeUnit off v

/-- The context of whose page an offset is. -/
def pageCtx (off : Nat) : Option Nat :=
  if 0x100000 ≤ off ∧ off < 0x140000 then some ((off - 0x100000) / 0x1000)
  else if 0xF00000 ≤ off ∧ off < 0xF08000 then some ((off - 0xF00000) / 0x200)
  else none

/-- A function may write the tenant-written register at an offset (R84). -/
def State.mayWrite (s : State) (f : Func) (off : Nat) : Bool := (pageCtx off).all (s.holds f)

/-- Writes the 32-bit word at an offset: of a 64-bit register the low word waits for the high word, which applies both (R9). A high
word joins the low word last written there by a function that may, whenever that was, and zero if there was none (log 95). -/
def State.writeWord (s : State) (f : Func) (off v : Nat) : State :=
  if s.chip.stage ≠ 4 ∧ !earlyBlock off then s.countErr
  else if wide64 off then (if s.mayWrite f off then { s with latches := s.latches.set off (word v) } else s)
  else if off % 8 = 4 ∧ wide64 (off - 4) then s.write64At f (off - 4) ((s.latches.get 0#32 (off - 4)).toNat + v * 2 ^ 32)
  else s.write32At f off v

/-- A register access by its width (R9). -/
def State.access (s : State) (f : Func) (off : Nat) (a : RegAccess) : State :=
  match a with
  | .write32 v => s.writeWord f off v.toNat
  | .write64 v => if s.chip.stage ≠ 4 ∧ !earlyBlock off then s.countErr else (s.writeWord f off (v.toNat % 2 ^ 32)).writeWord f (off + 4) (v.toNat / 2 ^ 32)
  | .read32 => (s.readWord off).1.emit (.readData (leBytes 4 (s.readWord off).2))
  | .read64 =>
    if s.chip.stage ≠ 4 ∧ !earlyBlock off then s.countErr.emit (.readData (List.replicate 8 0xFF#8)) else
    let r := (s.readWord off).1.readWord (off + 4)
    r.1.emit (.readData (leBytes 4 (s.readWord off).2 ++ leBytes 4 r.2))

/-- REGISTER_WRITE (R8, R9; log 9). -/
def execRegisterWrite (f : Func) (off : Nat) (acc : RegAccess) (s : State) : Host.Outcome State Fault Refusal :=
  .next (match bar0Offset f off with
    | some o => s.access f o acc
    | none => s)

/-- BAR0_BAD_ACCESS: narrower than 32 bits or not aligned: a write is discarded, a read returns all ones (R10). -/
def execBar0BadAccess (write : Bool) (_ : Nat) (size : Nat) (s : State) : Host.Outcome State Fault Refusal :=
  .next (if write then s.countErr else s.countErr.emit (.readData (List.replicate size 0xFF#8)))

end Sys2Proof.Machine
end

