-- ==== Sys2Proof/Machine/Query.lean ====
section
/-!
DEFINITION. QUERY (R99, R225, R335, R415). Records whose layout the spec does not give are encodings of Config (log 8).
-/
namespace Sys2Proof.Machine

def isQuery (what : Nat) (d : Desc) : Bool := d.opcode == 15 && d.num 16 2 == what

/-- The checks of QUERY (R99, R102, R225). -/
def queryChk (what c : Nat) (s : State) (d : Desc) : Chk :=
  { reserved := [(18, 2), (40, 24)]
    format := [allOnes d 20 4, badRef d 24, (what == 4 && decide (524288 ≤ d.num 32 8), 32)]
    auth := [(what == 6 && c != 0, 16), (what == 4 && c != 0 && !s.inRange c (d.num 32 8), 32)]
    bounds := [(decide ((s.resolve c (d.num 24 8)).extent < d.num 20 4), 20)] }

/-- A QUERY writes the first LENGTH bytes of its record; RESULT is the whole length (R99). -/
def State.runQuery (s : State) (c : Nat) (d : Desc) (bs : List Byte) : State :=
  (s.touchRefs c [d.num 24 8]).putResult c d (d.num 24 8) (bs.take (d.num 20 4)) (endOk bs.length)

/-- A QUERY of a WHAT whose record is `rec` of the state, context and descriptor. -/
def State.query (s : State) (c q : Nat) (p : Word) (what : Nat) (record : State → Nat → Desc → List Byte) : State :=
  s.startDesc c q p (isQuery what) (fun _ => false) (queryChk what c) (fun s d => s.runQuery c d (record s c d))

/-- The CTX page, without side effects (R99); words the spec gives no register are free (log 52). -/
def State.ctxPageBytes (s : State) (c : Nat) : List Byte :=
  ((List.range 1024).map (fun i => leBytes 4 ((s.ctxWord c (4 * i)).getD (Config.freeWord (s.fresh * 2 ^ 41 + i)).toNat))).flatten

/-- QUERY CTX_PAGE (R99). -/
def execQueryCtxPage (c : CtxId) (q : RingId) (p : Word) (s : State) : Host.Outcome State Fault Refusal :=
  .next (s.bump.query c q p 1 (fun t c _ => t.ctxPageBytes c))

/-- QUERY MODULE_STAGE (R99). -/
def execQueryModuleStage (c : CtxId) (q : RingId) (p : Word) (s : State) : Host.Outcome State Fault Refusal :=
  .next (s.query c q p 2 (fun s _ _ => Config.encodeModuleStage (word s.glbStage) s.chip.strap))

def Sleep.code : Sleep → Nat
  | .running => 0
  | .gated => 1
  | .doze => 2
  | .off => 3

/-- QUERY TILE_STATE (R99). -/
def execQueryTileState (c : CtxId) (q : RingId) (p : Word) (s : State) : Host.Outcome State Fault Refusal :=
  .next (s.query c q p 3 (fun s c _ => Config.encodeTileStates ((bitList (s.ctx c).mask.toNat 96).map (fun t => (t, (s.tile t).sleep.code, s.tileFenced t)))))

/-- POISONED: set by a quarantine until LIFT clears it, or a line of the object is poisoned (R225, R247, R249). -/
def State.objPoisoned (s : State) (o : Obj) : Bool :=
  o.poisoned || s.mem.poison.any (fun l => decide (o.ubase ≤ 64 * l) && decide (64 * l < o.ubase + blockBytes * o.blocks))

/-- The 32 bytes of an object table entry; a free one is zero (R225, R363). -/
def State.objEntry (s : State) (c id : Nat) : List Byte :=
  match s.obj? (s.bankOf c id) with
  | some o =>
    leBytes 8 o.ubase ++ leBytes 8 o.size ++ [byte o.ctx, byte o.state, byte o.cls, byte (b2n o.pin + 2 * b2n o.readOnly + 4 * b2n (s.objPoisoned o) + 8 * b2n (0 < o.promoting))] ++
      leBytes 2 o.stackMask.toNat ++ leBytes 2 0 ++ leBytes 4 (o.frames.filter isHbm).length ++ leBytes 4 o.touch.toNat
  | none => leBytes 32 0

/-- QUERY OBJECT_ENTRY (R225). -/
def execQueryObjectEntry (c : CtxId) (q : RingId) (p : Word) (s : State) : Host.Outcome State Fault Refusal :=
  .next (s.query c q p 4 (fun s c d => s.objEntry c (d.num 32 8)))

/-- QUERY EPOCH (R99, R110, R112). -/
def execQueryEpoch (c : CtxId) (q : RingId) (p : Word) (s : State) : Host.Outcome State Fault Refusal :=
  .next (s.query c q p 5 (fun s c _ => Config.encodeEpoch (s.ctx c).epoch (s.ctx c).staleDrop))

/-- The bytes of the health log (R56). -/
def State.logBytes (s : State) : List Byte := (s.flash.log.map (fun e => Config.encodeLog e.kind e.args)).flatten

/-- QUERY HEALTH_LOG, from a byte offset (R99). -/
def execQueryHealthLog (c : CtxId) (q : RingId) (p : Word) (s : State) : Host.Outcome State Fault Refusal :=
  .next (s.query c q p 6 (fun s _ d => s.logBytes.drop (d.num 32 8)))

/-- The outcome that the module knows of a step (R415): of the step in progress its state, else what it kept. -/
def Mile.outcomeOf (m : Mile) (step : Nat) : Nat :=
  if m.step.toNat = step ∧ m.state = 2 then 4
  else if m.step.toNat = step ∧ m.state = 3 then 5
  else if m.step.toNat = step ∧ m.state = 5 then 6
  else (m.outcomes.find? (fun o => o.step.toNat == step)).elim 0 (fun o => o.outcome)

/-- The 64 bytes of QUERY MILEPOST (R415). -/
def Mile.stepBytes (m : Mile) (step : Nat) : List Byte :=
  let o := m.outcomes.find? (fun o => o.step.toNat == step)
  let busy := m.step.toNat == step && (m.state == 2 || m.state == 3 || m.state == 5)
  leBytes 8 step ++ [byte (m.outcomeOf step), byte m.state, o.elim 0#8 (fun o => o.cause), 0#8] ++
    leBytes 4 (if busy then m.attempt.toNat else o.elim 0 (fun o => o.attempt.toNat)) ++ leBytes 8 m.last.toNat ++ leBytes 8 m.shard.toNat ++ leBytes 8 m.shadow.toNat ++
    leBytes 2 (o.elim 65535 (fun o => if o.cause = 0#8 then 65535 else o.failRank)) ++ leBytes 2 m.odd ++ leBytes 4 0 ++ leBytes 16 (m.digest.toNat % 2 ^ 128)

/-- QUERY MILEPOST (R415). -/
def execQueryMilepost (c : CtxId) (q : RingId) (p : Word) (s : State) : Host.Outcome State Fault Refusal :=
  .next (s.query c q p 7 (fun s c d => (s.ctx c).mile.stepBytes (d.num 32 8)))

/-- QUERY TOLLGATE (R335). -/
def execQueryTollgate (c : CtxId) (q : RingId) (p : Word) (s : State) : Host.Outcome State Fault Refusal :=
  .next (s.query c q p 8 (fun s c _ => leBytes 8 (s.ctx c).rollout.level ++ leBytes 4 (s.reg (rTgRate c)) ++ leBytes 4 (s.reg (rTgDepth c)) ++ leBytes 4 (s.reg (rTgCtl c)) ++ leBytes 4 0))

end Sys2Proof.Machine
end

