-- ==== Sys2Proof/Machine/Undef.lean ====
section
/-!
DEFINITION. Descriptors that no row runs: an opcode that R13 does not define, or an operation that its opcode's body does not define.
-/
namespace Sys2Proof.Machine

/-- The operations that a body with an OP or WHAT field at offset 16 defines, by opcode: the field's size and the highest value; the
lowest is 1. -/
def opRange (op : Nat) : Option (Nat × Nat) :=
  match op with
  | 0x4 => some (1, 8)
  | 0x6 => some (1, 7)
  | 0xA => some (1, 2)
  | 0xB => some (1, 2)
  | 0xC => some (1, 3)
  | 0xD => some (1, 4)
  | 0xE => some (1, 8)
  | 0xF => some (2, 8)
  | 0x10 => some (1, 3)
  | _ => none

/-- OP or WHAT holds a value that the body does not define. -/
def opUndefined (d : Desc) : Bool :=
  match opRange d.opcode with
  | some (n, top) => d.num 16 n == 0 || decide (top < d.num 16 n)
  | none => false

/-- The reserved bytes of those bodies. -/
def bodyReserved (op : Nat) : List (Nat × Nat) :=
  match op with
  | 0x4 => [(19, 1), (48, 16)]
  | 0x6 => [(19, 1), (42, 22)]
  | 0xA => [(28, 36)]
  | 0xB => [(17, 7), (34, 2), (56, 8)]
  | 0xC => [(17, 1), (32, 32)]
  | 0xD => [(45, 3), (56, 8)]
  | 0xE => [(48, 16)]
  | 0xF => [(18, 2), (40, 24)]
  | 0x10 => [(19, 1), (36, 4), (60, 4)]
  | _ => []

/-- The reserved bits of those bodies. -/
def bodyReservedBits (d : Desc) : List (Bool × Nat) :=
  match d.opcode with
  | 0x4 => [(decide (8 ≤ d.num 18 1), 18)]
  | 0x6 => [(decide (8 ≤ d.num 18 1), 18), (decide (2 ^ 20 ≤ d.num 20 4), 20)]
  | 0xA => [(decide (2 ≤ d.num 17 1), 17)]
  | 0xD => [(decide (2 ≤ d.num 17 1), 17), (decide (2 ^ 20 ≤ d.num 20 4), 20), (decide (2 ^ 20 ≤ d.num 36 4), 36), (decide (2 ^ 20 ≤ d.num 40 4), 40)]
  | 0xE => [(decide (8 ≤ d.num 17 1), 17), (decide (4096 ≤ d.num 18 2), 18)]
  | 0x10 => [(decide (4 ≤ d.num 17 1), 17)]
  | _ => []

/-- What the checks of R102 find in such a descriptor: check 1 for the opcode, check 2 for reserved bytes, check 3 for the operation. -/
def undefChk (_ : State) (d : Desc) : Chk :=
  { reserved := bodyReserved d.opcode, reservedBits := bodyReservedBits d, format := [(opUndefined d, 16)] }

/-- DESCRIPTOR_UNDEFINED_OPCODE (R13, R102). -/
def execDescriptorUndefinedOpcode (c : CtxId) (q : RingId) (p : Word) (s : State) : Host.Outcome State Fault Refusal :=
  .next (s.startDesc c q p (fun d => !opcodeDefined d.opcode || opUndefined d) (fun _ => false) undefChk (fun s _ => s))

end Sys2Proof.Machine
end

