-- ==== Sys2Proof/Machine/Sleep.lean ====
section
/-!
DEFINITION. Tile sleep and the compute PLLs of the dies (R66 to R71).
-/
namespace Sys2Proof.Machine


/-- Nothing runs on a tile: no instruction in flight, no DMA, no prep dispatch, and its program, if it has one, waits (R66). -/
def State.tileIdle (s : State) (t : Nat) : Bool :=
  let x := s.tile t
  s.tileSafe t true && x.slice != .running && !x.waking && s.prepSafe t
    && (x.seq.owner.isNone || x.seq.wait != 0)

/-- A tile in no mask is powered off while OFF_EN is 1 (R66). -/
def State.mayOff (s : State) (t : Nat) : Bool := (s.tileCtx t).isNone && bitOf (s.reg rSleepCtl) 25

/-- TILE_GATE: an idle running tile is gated (R66, R69). -/
def State.gate (s : State) (t : Nat) : State :=
  if (s.tile t).sleep == .running && s.tileIdle t then
    (if s.mayOff t then s.modTile t (fun x => x.powerUp .off) else s.modTile t (fun x => { x with sleep := .gated }))
  else s

/-- TILE_GATE (R66). -/
def execTileGate (t : TileId) (s : State) : Host.Outcome State Fault Refusal := .next (s.gate t)

/-- TILE_DOZE: with nothing queued for it the tile turns off its matrix and prep domains; its store is held (R66; log 53). -/
def State.doze (s : State) (t : Nat) : State :=
  if ((s.tile t).sleep == .running || (s.tile t).sleep == .gated) && s.tileIdle t && (s.tile t).seq.owner.isNone
      && !(s.tile t).clusters.any (fun c => c.2.desc) && fld (s.reg rSleepCtl) 0 16 != 0 then
    (if s.mayOff t then s.modTile t (fun x => x.powerUp .off) else s.modTile t (fun x => { x with sleep := .doze, clusters := [] }))
  else s

/-- TILE_DOZE (R66). -/
def execTileDoze (t : TileId) (s : State) : Host.Outcome State Fault Refusal := .next (s.doze t)

/-- The tiles of a die. -/
def dieTiles (d : Nat) : List Nat := (List.range 12).map (fun k => 12 * d + k)

/-- DIE_PLL_STOP: every tile of the die is in Doze or Off and none is waking (R68). -/
def State.pllStop (s : State) (d : Nat) : State :=
  if bitOf (s.reg rSleepCtl) 24 && (dieTiles d).all (fun t => !(s.tile t).waking && ((s.tile t).sleep == .doze || (s.tile t).sleep == .off)) then
    { s with pll := s.pll.set d pllStopped }
  else s

/-- DIE_PLL_STOP (R68). -/
def execDiePllStop (d : DieId) (s : State) : Host.Outcome State Fault Refusal := .next (s.pllStop d)

/-- DIE_PLL_LOCK: the PLL that a wake restarted has locked (R68). -/
def State.pllLock (s : State) (d : Nat) : State :=
  if (dieTiles d).any (fun t => (s.tile t).waking) then { s with pll := s.pll.set d pllLocked } else s

/-- DIE_PLL_LOCK (R68). -/
def execDiePllLock (d : DieId) (s : State) : Host.Outcome State Fault Refusal := .next (s.pllLock d)

/-- TILE_WAKE_DONE: a sleeping tile with work, on a die whose PLL is locked, runs again; nothing queued is lost (R66, R69). -/
def State.wake (s : State) (t : Nat) : State :=
  if (s.tile t).sleep != .running && ((s.tile t).waking || (s.tile t).seq.owner.isSome) && s.clockOn (2 + t / 12) && !s.dieRailOff (t / 12) then
    (s.modTile t (fun x => { x with sleep := .running, waking := false })).startDma t
  else s

/-- TILE_WAKE_DONE (R69). -/
def execTileWakeDone (t : TileId) (s : State) : Host.Outcome State Fault Refusal := .next (s.wake t)

end Sys2Proof.Machine
end

