-- ==== Sys2Proof/Machine/Resets.lean ====
section
/-!
DEFINITION. The reset kinds of R72 but for the context reset, the loss and return of paths to the host (R113), and the way into and
out of stage 0 (R49 to R54).
-/
namespace Sys2Proof.Machine

/-- The images that BOOT_SRC and a committed image make the boot ROM try, in order (R29, R59, R60). -/
def State.bootOrder (s : State) : List ImageSlot :=
  let src := fld s.strapNat 14 2
  if src < 2 then [] else
    let byStrap := if src = 3 then [ImageSlot.a, .b] else [.b, .a]
    match s.flash.nextBoot with
    | some i => i :: byStrap.filter (fun j => j != i)
    | none => byStrap

/-- The image to try next. -/
def State.nextImage (s : State) : Option ImageSlot := s.bootOrder.find? (fun i => !s.chip.tried.contains i)

/-- CAUSE of stage 0 while no image runs: once an image has failed and none is left to try it names the failure, whatever BOOT_SRC
(R59; table of GLB_STAGE). -/
def State.bootCause (s : State) : Byte :=
  if !s.chip.rom || s.nextImage.isSome then 0x00#8
  else if s.bootOrder.isEmpty && !s.chip.recFailed then 0x0E#8
  else if s.chip.wdog then 0x02#8 else 0x01#8

/-- Feeds suffice for the class (R21). -/
def State.feedsOk (s : State) : Bool := s.feeds != 0 && !(s.oneFeed && decide (3600 < s.pwrClass))

/-- The level of PWR_GOOD; a rail is module-level if it feeds a domain of no die (R32; log 54). -/
def State.pgLevel (s : State) : Bool :=
  s.chip.auxOn && s.inputs.switches && s.feeds != 0 && !s.inputs.domainsOff.any (fun d => (domainDie d).isNone)
def State.setPg (s : State) : State := { s with inputs := { s.inputs with pwrGood := s.pgLevel } }

/-- The causes of a stage 0 that no failed self-test, trip or hold keeps (R54; table of GLB_STAGE). -/
def bootWait (cause : Byte) : Bool := cause == 0x00#8 || cause == 0x01#8 || cause == 0x02#8 || cause == 0x0B#8 || cause == 0x0E#8

/-- Stage 2 begins once its condition holds (R48, R49, R53). -/
def State.begin2 (s : State) : State :=
  if s.chip.stage = 1 ∧ s.inputs.pwrGood ∧ s.safeBootN ∧ s.feedsOk then { s with chip := { s.chip with stage := 2 } } else s

/-- The stages begin again: stage 1 is complete if an image runs, else the boot ROM goes on (R49, R59, R72). A feed that does not suffice
keeps stage 0, with CLASS_FEED and FAULT_N (R21). -/
def State.restartStages (s : State) : State :=
  if s.feeds != 0 && !s.feedsOk then { (s.setSticky 6).assertFault with chip := { s.chip with stage := 0, cause := 0x0B#8, unit := 255#8 } }
  else if s.chip.image ≠ 0 then { s with chip := { s.chip with stage := 1, cause := 0#8, unit := 255#8 } }.begin2
  else { s with chip := { s.chip with stage := 0, cause := s.bootCause, unit := 255#8 } }

/-- A laser bay loses its supply: a cartridge in service is checked again before it lights (R42, R49). -/
def Bay.powerOff (x : Bay) : Bay := if x.lit then { x with state := bayCheck, ramping := false, retire := false } else x

/-- What remains of a port: its connector switch and what its fibre shows. -/
def Port.powerOff (x : Port) : Port := { conn := x.conn, ret := x.ret }

/-- What remains of a tile: its fence causes and event times, which the health log holds (R56, R72, R141). -/
def Tile.powerOff (x : Tile) : Tile :=
  { mx := { arrayEv := x.mx.arrayEv, chkEv := x.mx.chkEv, undecEv := x.mx.undecEv, undec := x.mx.undec, chkFenced := x.mx.chkFenced, arrayFenced := x.mx.arrayFenced, undecFenced := x.mx.undecFenced } }

/-- Registers that a module reset keeps: those of the HLT, PMC and SEC blocks and of the memory windows and scrub (R72; log 55). -/
def keptReg (off : Nat) : Bool :=
  decide (off = rMemWin ∨ off = rScrub ∨ off = rJcPf) || (decide (0xA00000 ≤ off) && decide (off < 0xF00000))

/-- What remains of a bay when everything volatile clears: the closed latch, the cartridge's orientation and its wear (R42, R72, R287). -/
def Bay.volatileClear (x : Bay) : Bay :=
  if x.state = bayOut ∧ x.cause = 1 then { state := bayOut, cause := 1, ilk := x.ilk, wear := x.wear }
  else { state := if x.state = bayEmpty then bayEmpty else bayCheck, ilk := x.ilk, wear := x.wear }

/-- What a module reset clears (R72): contexts, tiles, memory, placement, links, performance counters. -/
def State.clearModule (s : State) : State :=
  { s with
    pll := []
    regs := s.regs.filter (fun r => keptReg r.1)
    latches := []
    ctxs := State.reset.ctxs
    tiles := s.tiles.map (fun (x : Nat × Tile) => (x.1, x.2.powerOff))
    mem := { eccRows := s.mem.eccRows }
    ledger := {}
    fabric := {
      ports := s.fabric.ports.map (fun (x : Nat × Port) => (x.1, x.2.powerOff))
      bays := s.fabric.bays.map (fun (x : Nat × Bay) => (x.1, x.2.powerOff))
      enginesOff := s.fabric.enginesOff
      cwSpares := s.fabric.cwSpares
      cwSpared := s.fabric.cwSpared
      cwDown := s.fabric.cwDown }
    pmcMod := []
    pmcModOvf := 0#16
    pmcTime := s.time
    nextFetch := [] }

/-- The module returns to stage 0, with its compute, memory and optical domains off; no record is written (R17, R51, R52, R54, R73). -/
def State.toStage0 (s : State) (cause unit : Byte) : State :=
  let s1 := s.clearModule
  { s1 with chip := { s1.chip with stage := 0, cause := cause, unit := unit } }

/-- The port that R78 chooses, or both with HOST_SPLIT 0 (R79). -/
def State.choosePorts (s : State) : State :=
  { s with hostA := { s.hostA with active := !s.hostSplit || s.hostA.cable }, hostB := { s.hostB with active := !s.hostSplit || !s.hostA.cable } }

/-- A port reset clears the port's link and the settings of its functions, NumVFs included (R72). -/
def HostPortSt.cleared (p : HostPortSt) : HostPortSt := { cable := p.cable, perst := p.perst, active := p.active }

/-- A link that was up goes down; its port is lost until it returns (R113). -/
def HostPortSt.down (p : HostPortSt) : HostPortSt := { p with link := false, lost := p.lost || p.link }

/-- LINK_HOLD of a context follows its path; when a path returns, held transfers go on, and held records and then pending messages go out
(R113). -/
def State.ctxPath (s : State) (c : Nat) : State :=
  let x := s.ctx c
  if !s.pathUp x.func then (s.setCtx c { x with linkHold := true }).resumeColls c
  else
    let s1 := ((s.setCtx c { x with linkHold := false, msiPending := [] }).resumeColls c).flushRecords c
    x.msiPending.foldl (fun (s : State) v => s.raiseVec c v) s1

/-- The same for every context. -/
def State.paths (s : State) : State := allCtxs.foldl State.ctxPath s

/-- Every context whose function changes is reset, and changes it at the end of that reset (R82, R85). -/
def State.refunction (s : State) : State :=
  allCtxs.foldl (fun (s : State) c => if (s.ctx c).func = s.funcOf c then s else s.resetCtx c) s

/-- Every context without a path to the host is reset (R72, R113). -/
def State.resetPathless (s : State) : State :=
  allCtxs.foldl (fun (s : State) c => if s.pathUp (s.ctx c).func then s else s.resetCtx c) s

/-- A port reset (R72, R82). -/
def State.portReset (s : State) (h : HPort) : State :=
  ((s.modHostPort h HostPortSt.cleared).paths.refunction).resetPathless

/-- A module reset (R72): both ports are reset with it and the active port is chosen (R78). Stage 0 is held until a thermal trip has
cooled (R420) or main input is back and PERST released (R17). -/
def State.moduleReset (s : State) : State :=
  let s0 := s.clearModule
  let s1 := { s0 with
    chip := { s0.chip with stage := 0, safeHold := false, portsChosen := true }
    hostA := s.hostA.cleared
    hostB := s.hostB.cleared
    power := { s.power with hotReset := s.power.hot } }.choosePorts
  if s1.power.hot ∧ !s1.power.hotCool then s1
  else
    let s2 := { s1 with power := { s1.power with hot := false, hotReset := false, hotCool := false } }
    (if s2.inputs.tripHold then s2 else s2.restartStages).refreshFault

/-- What an auxiliary power-on leaves, and with aux at false what the loss of P12V_AUX leaves (R56, R72, R424): flash and fuses, what is
plugged in, the cartridges and the levels of the PERST inputs. A rail latched off is released, though main input was never removed (R23,
R72; log 129). -/
def State.volatileClear (s : State) (aux : Bool) : State :=
  { State.reset with
    chip := { auxOn := aux }
    flash := s.flash
    hostA := { cable := s.hostA.cable, perst := s.hostA.perst }
    hostB := { cable := s.hostB.cable, perst := s.hostB.perst }
    tiles := s.tiles.map (fun (x : Nat × Tile) => (x.1, { mx := { chkFenced := x.2.mx.chkFenced, arrayFenced := x.2.mx.arrayFenced, undecFenced := x.2.mx.undecFenced } }))
    fabric := {
      ports := s.fabric.ports.map (fun (x : Nat × Port) => (x.1, x.2.powerOff))
      bays := s.fabric.bays.map (fun (x : Nat × Bay) => (x.1, x.2.volatileClear)) }
    host := s.host
    fresh := s.fresh
    out := s.out
    pending := s.pending }

end Sys2Proof.Machine
end

