-- ==== Sys2Proof/Machine/Start.lean ====
section
/-!
DEFINITION. Staged start, power inputs, trips and thermal shutdown (R17 to R24, R28, R29, R48 to R59, R420).
-/
namespace Sys2Proof.Machine

/-- AUX_POWER_ON (R72): everything volatile clears. -/
def execAuxPowerOn (s : State) : Host.Outcome State Fault Refusal := .next (s.volatileClear true)

/-- P12V_AUX_LOSS: PWR_GOOD falls, nothing volatile is kept, a DBG unlock ends (R32, R63, R72). -/
def execP12vAuxLoss (s : State) : Host.Outcome State Fault Refusal := .next (s.volatileClear false)

/-- ALWAYS_ON_READY: CD00 runs (R49). -/
def execAlwaysOnReady (s : State) : Host.Outcome State Fault Refusal :=
  .next (if s.chip.auxOn then { s with chip := { s.chip with alwaysOn := true } } else s)

/-- GLB_STRAP from the strap inputs: BOOT_SRC, SAFE_BOOT_N, PWR_CLASS, SLOT_ID, HOST_SPLIT, MGMT_ADDR, then STRAP_ERR (R28, R29). -/
def strapWord (pins : BitVec 15) : Word := word (2 * pins.toNat + b2n (fld pins.toNat 10 2 == 0))

/-- One feed does not suffice: CLASS_FEED and FAULT_N (R21); before stage 4 the module is in stage 0 (R51). A stage 0 that a failed
self-test or a trip holds keeps its CAUSE and UNIT (R54). -/
def State.classFeed (s : State) : State :=
  let s1 := (s.setSticky 6).assertFault
  if s1.chip.stage = 4 ∨ (s1.chip.stage = 0 ∧ !bootWait s1.chip.cause) then s1 else s1.toStage0 0x0B#8 255#8

/-- STRAP_SAMPLE: the straps are latched once (R28); feeds that are already live are held against the class (R21). -/
def State.strapSample (s : State) (pins : BitVec 15) : State :=
  if s.chip.alwaysOn ∧ !s.chip.strapped then
    let s1 := { s with chip := { s.chip with strapped := true, strap := strapWord pins } }.choosePorts
    if s1.feeds != 0 && !s1.feedsOk then s1.classFeed else s1
  else s

/-- STRAP_SAMPLE (R28). -/
def execStrapSample (pins : BitVec 15) (s : State) : Host.Outcome State Fault Refusal := .next (s.strapSample pins)

/-- STAGE_0_COMPLETE: the boot ROM runs; with no image to try it waits for one (R29, R49, R59). The management bus is up, and events that
waited for it are reported (R19). -/
def State.stage0Done (s : State) : State :=
  if s.chip.strapped ∧ !s.chip.rom then
    let s1 := { s with chip := { s.chip with rom := true } }
    (if s1.chip.cause = 0#8 then { s1 with chip := { s1.chip with cause := s1.bootCause } } else s1).sendReports
  else s

/-- STAGE_0_COMPLETE (R49). -/
def execStage0Complete (s : State) : Host.Outcome State Fault Refusal := .next s.stage0Done

/-- The boot ROM may start an image: stage 0, no image runs, and nothing holds stage 0 (R17, R21, R54, R59, R420). -/
def State.mayBoot (s : State) : Bool :=
  s.chip.rom && s.chip.stage == 0 && s.chip.image == 0 && (s.chip.cause == 0x00#8 || s.chip.cause == 0x01#8 || s.chip.cause == 0x02#8 || s.chip.cause == 0x0E#8)

/-- An image verifies under the fused key and its security version is at least the fused one (R59). -/
def State.imageOk (s : State) (sigOk : Bool) (svn : Half) : Bool := sigOk && decide (s.flash.fuseSvn ≤ svn.toNat)

/-- IMAGE of SEC_FW_STATUS (R59). -/
def slotCode : ImageSlot → Nat
  | .a => 1
  | .b => 2

/-- Records that an image verified at this start (SEC_FW_STATUS). -/
def Chip.verified (x : Chip) (i : ImageSlot) : Chip :=
  match i with
  | .a => { x with aOk := true }
  | .b => { x with bOk := true }

/-- An image did not start: the next one is tried, or stage 0 is kept (R59). -/
def State.imageFailed (s : State) (i : ImageSlot) : State :=
  let s1 := { s with chip := { s.chip with tried := s.chip.tried ++ [i] } }.logEv 12 [slotCode i]
  { s1 with chip := { s1.chip with cause := s1.bootCause } }

/-- An image runs: stage 1 is complete, and stage 2 begins where it may (R49, R53, R59). -/
def State.imageRuns (s : State) (image : Nat) (svn : Half) : State :=
  { s with chip := { s.chip with image := image, svn := svn, stage := 1, cause := 0#8, unit := 255#8 } }.begin2

/-- FIRMWARE_READY: the image that the boot ROM tries verifies and is ready, or fails its verification (R59). -/
def State.firmwareReady (s : State) (i : ImageSlot) (sigOk : Bool) (svn : Half) : State :=
  if !(s.mayBoot && s.nextImage == some i) then s
  else if s.imageOk sigOk svn then { s with chip := s.chip.verified i }.imageRuns (slotCode i) svn
  else s.imageFailed i

/-- FIRMWARE_READY (R59). -/
def execFirmwareReady (img : ImageSlot) (sigOk : Bool) (svn : Half) (s : State) : Host.Outcome State Fault Refusal :=
  .next (s.firmwareReady img sigOk svn)

/-- A recovery image failed: the module stays in stage 0 and takes another by either path, whatever BOOT_SRC (R59). -/
def State.recoveryFailed (s : State) (wdog : Bool) : State :=
  let s1 := { s with chip := { s.chip with recFailed := true, wdog := s.chip.wdog || wdog } }.logEv 12 [3]
  { s1 with chip := { s1.chip with cause := s1.bootCause } }

/-- A path by which the boot ROM takes a recovery image: either once an image has failed, else the one that BOOT_SRC selects (R29, R59). -/
def State.recoveryOpen (s : State) (path : MgmtPath) : Bool :=
  let byStrap := fld s.strapNat 14 2
  s.nextImage.isNone && (!s.bootOrder.isEmpty || s.chip.recFailed || (byStrap == 1 && path == .mailbox) || (byStrap == 0 && path == .bus))

/-- FIRMWARE_READY_TIMEOUT: an image did not signal readiness within 2 s (R59); with none named, a verified recovery image. -/
def State.readyTimeout (s : State) (img : Option ImageSlot) : State :=
  match img with
  | some i => if s.mayBoot && s.nextImage == some i then { s with chip := { s.chip.verified i with wdog := true } }.imageFailed i else s
  | none => if s.mayBoot && (s.recoveryOpen .mailbox || s.recoveryOpen .bus) then s.recoveryFailed true else s

/-- FIRMWARE_READY_TIMEOUT (R59). -/
def execFirmwareReadyTimeout (img : Option ImageSlot) (s : State) : Host.Outcome State Fault Refusal := .next (s.readyTimeout img)

/-- A recovery image that arrived by a path that is up is verified and runs from RAM (R29, R48, R57, R59). -/
def State.recover (s : State) (path : MgmtPath) (sigOk : Bool) (svn : Half) : State :=
  if !(s.mayBoot && s.recoveryOpen path && s.mgmtUp path) then s
  else if s.imageOk sigOk svn then s.imageRuns 3 svn
  else s.recoveryFailed false

/-- RECOVERY_IMAGE (R59). -/
def execRecoveryImage (path : MgmtPath) (sigOk : Bool) (svn : Half) (s : State) : Host.Outcome State Fault Refusal :=
  .next (s.recover path sigOk svn)


/-- Feeds that are within range with correct polarity join the live ones (R19 to R22, R32). -/
def State.feedsIn (s : State) (a b : Bool) : State :=
  let s1 := { s with inputs := { s.inputs with
    feedA := s.inputs.feedA || a
    feedB := s.inputs.feedB || b
    revA := s.inputs.revA && !a
    revB := s.inputs.revB && !b } }
  let s2 := if s1.feedsOk then { s1 with inputs := { s1.inputs with lostInService := false } } else s1
  s2.refreshFault

/-- The input switches of the live feeds close (R16, R19, R32). A rail that tripped comes back if main input was removed, which the model
takes as: no live feed was left on either connector (R23; log 93). -/
def State.switchOn (s : State) : State :=
  let back := s.inputs.removed && s.feeds != 0
  let s1 := { s with inputs := { s.inputs with
    switchA := s.inputs.feedA || s.inputs.switchA && !s.inputs.revA
    switchB := s.inputs.feedB || s.inputs.switchB && !s.inputs.revB
    removed := s.inputs.removed && !back
    railsOff := if back then [] else s.inputs.railsOff
    domainsOff := if back then [] else s.inputs.domainsOff } }
  s1.setPg.refreshFault

/-- Main power is there: stage 2 begins, or a stage 0 held for the feeds is left, or the module starts again after an input trip once
PERST was released (R17, R21, R49). -/
def State.powered (s : State) : State :=
  if s.inputs.tripHold then
    (if s.inputs.tripPerst && s.feeds != 0 then
      ({ s with inputs := { s.inputs with tripHold := false, tripPerst := false } }.switchOn).moduleReset else s)
  else
    let s1 := s.switchOn
    if !s1.feedsOk then (if s1.chip.stage = 4 then s1 else s1.classFeed)
    else if s1.chip.stage = 0 ∧ s1.chip.cause = 0x0B#8 then s1.restartStages
    else s1.begin2

/-- MAIN_INPUT_GOOD: the capacitance of the listed inputs is charged (R20, R21, R32). -/
def execMainInputGood (feedA feedB : Bool) (s : State) : Host.Outcome State Fault Refusal :=
  .next (if s.chip.alwaysOn ∧ (feedA || feedB) then (s.feedsIn feedA feedB).powered else s)

/-- The unit that a failed self-test names is fenced and so left out of the self-test (R54, R55): UNIT 0 to 95 a tile, 0x70 to 0x77 a
die. -/
def State.unitExcluded (s : State) (unit : Nat) : Bool :=
  if unit < 96 then s.tileFenced unit else decide (112 ≤ unit ∧ unit < 120) && s.flash.dieFence.toNat.testBit (unit - 112)

/-- Stage 3 begins: the ports leave OFF (R255). -/
def State.begin3 (s : State) : State := (List.range 64).foldl State.leaveOff { s with chip := { s.chip with stage := 3 } }

/-- STAGE_2_COMPLETE: stage 2 passed, or a self-test failed (R54); no fenced unit takes part (R55). -/
def execStage2Complete (failure : Option (Byte × Byte)) (s : State) : Host.Outcome State Fault Refusal :=
  .next (if s.chip.stage ≠ 2 then s else
    match failure with
    | some (cause, unit) => if s.unitExcluded unit.toNat then s.begin3 else (s.toStage0 cause unit).assertFault
    | none => s.begin3)

/-- Stage 4: engines without a cartridge are off, and vector 0 of physical function 0 is raised (R44, R50, R55). -/
def State.fullFunction (s : State) : State :=
  let s1 := { s with chip := { s.chip with stage := 4 }, fabric := { s.fabric with enginesOff := 0#8 } }
  let s2 := (List.range 8).foldl (fun (s : State) d => if s.engineLit d then s else s.engineDown d) s1
  s2.refreshFault.raiseVec 0 0

/-- STAGE_3_COMPLETE (R49, R54). -/
def execStage3Complete (failedDie : Option DieId) (s : State) : Host.Outcome State Fault Refusal :=
  .next (if s.chip.stage ≠ 3 then s else
    match failedDie with
    | some d => if s.unitExcluded (112 + d.val) then s.fullFunction else (s.toStage0 0x09#8 (byte (112 + d.val))).assertFault
    | none => s.fullFunction)

/-- An input trip on a connector (R17, R18, R52). -/
def State.inputTrip (s : State) (overV feedB : Bool) : State :=
  let quiet := !overV && s.hostA.perst && s.hostB.perst
  let s1 := { s with
    inputs := { s.inputs with
      feedA := s.inputs.feedA && feedB
      feedB := s.inputs.feedB && !feedB
      switchA := false
      switchB := false
      removed := s.inputs.removed || !s.live (!feedB)
      pwrGood := false
      tripHold := true
      tripPerst := false
      lostInService := false }
    hostA := s.hostA.cleared
    hostB := s.hostB.cleared }
  let s2 := (s1.setSticky (if overV then 8 else 9)).toStage0 0x0C#8 255#8
  if quiet then s2 else s2.assertFault

/-- INPUT_TRIP (R17): under-voltage is the fall of a live feed, over-voltage acts on either connector while the always-on logic runs. -/
def execInputTrip (overV feedB : Bool) (s : State) : Host.Outcome State Fault Refusal :=
  .next (if s.live feedB || (overV && s.chip.alwaysOn) then s.inputTrip overV feedB else s)

/-- REVERSE_POLARITY: the connector is no feed and its switch is open; the always-on logic reports it (R19, R20). -/
def State.reversed (s : State) (feedB : Bool) : State :=
  let s1 := { s with inputs := { s.inputs with
    switchA := s.inputs.switchA && feedB
    switchB := s.inputs.switchB && !feedB
    revA := s.inputs.revA || !feedB
    revB := s.inputs.revB || feedB
    smbAlert := true } }
  (((s1.setSticky (if feedB then 10 else 11)).logEv 11 [b2n feedB]).assertFault).report 11 [b2n feedB]

/-- REVERSE_POLARITY (R19). -/
def execReversePolarity (feedB : Bool) (s : State) : Host.Outcome State Fault Refusal :=
  .next (if s.chip.alwaysOn ∧ !s.live feedB then s.reversed feedB else s)

/-- A feed is lost while the other stays: m goes to RATIO and the cap to the lower of the throttle cap and 3,600 W, and the next ticks
hold the one-feed limits (R22); before stage 4 R51 applies. -/
def State.feedLost (s : State) (feedB : Bool) : State :=
  let s1 := { s with inputs := { s.inputs with feedA := s.inputs.feedA && feedB, feedB := s.inputs.feedB && !feedB } }
  let high := decide (3600 < s.pwrClass)
  if s.chip.stage = 4 then
    let s2 := s1.toRatio (min s1.throttleCap 3600)
    let s3 := { s2 with inputs := { s2.inputs with lostInService := true } }.assertFault
    if high then s3.setSticky 6 else s3
  else if high then s1.classFeed else s1

/-- FEED_LOST (R22, R51); the loss of the last feed is an under-voltage trip (R17). -/
def execFeedLost (feedB : Bool) (s : State) : Host.Outcome State Fault Refusal :=
  .next (if !s.live feedB then s else if s.live (!feedB) then s.feedLost feedB else s.inputTrip false feedB)

/-- FEED_RESTORED: the lost feed returns and the class limits apply again (R22). -/
def execFeedRestored (feedB : Bool) (s : State) : Host.Outcome State Fault Refusal :=
  .next (if s.chip.alwaysOn ∧ s.live (!feedB) ∧ !s.live feedB then (s.feedsIn (!feedB) feedB).powered else s)

/-- A die without power: what runs on its tiles ends with INTERNAL and its tiles are off; its ports are dark (R23, R406). -/
def State.dieOut (s : State) (d : Nat) : State :=
  let s1 := (dieTiles d).foldl (fun (s : State) t => (s.tileFault t stInternal 0#16 none).modTile t (fun x => x.powerUp .off)) s
  let waiting := fun (x : Desc) => match x.work with
    | .exec r => x.ending.isNone && r.running == 0#96 && r.ending.isNone && (dieTiles d).any (fun t => r.allTiles.toNat.testBit t)
    | _ => false
  let s2 := { s1 with ctxs := s1.ctxs.map (fun (x : Nat × Ctx) => (x.1, { x.2 with descs := x.2.descs.map (fun y =>
    if waiting y then { y with work := y.work.mapRun (fun r => r.endWithFirst (endWith stInternal)) } else y) })) }
  if s.inputs.domainsOff.contains (386 + 3 * d) then s2.leavePorts (diePorts d) 0 else s2

/-- The host interface loses its power: both links are down (R23, R113). -/
def State.hostOut (s : State) : State := { s with hostA := s.hostA.down, hostB := s.hostB.down }.paths

/-- HBM, Causeway and time base lose their power: no die works, and every descriptor in progress ends with INTERNAL (R23; log 54). -/
def State.memOut (s : State) : State :=
  let s1 := (List.range 8).foldl State.dieOut s
  let s2 := allCtxs.foldl (fun (s : State) c => (s.ctx c).descs.foldl (fun (s : State) d =>
    if d.start.isSome && d.ending.isNone then s.cancelWork c d stInternal else s) s) s1
  { s2 with mem := { s2.mem with data := [], poison := [], migs := [] } }

/-- RAIL_OVER_CURRENT: the rail is latched off with the domains it feeds (R23, R32, R52; log 54). -/
def State.railTrip (s : State) (rail : Nat) (domains : List Nat) : State :=
  let s1 := { s with inputs := { s.inputs with
    railsOff := if s.inputs.railsOff.contains rail then s.inputs.railsOff else s.inputs.railsOff ++ [rail]
    domainsOff := s.inputs.domainsOff ++ domains.filter (fun d => !s.inputs.domainsOff.contains d) } }
  let s2 := (((s1.setSticky 7).logEv 2 [rail]).assertFault).setPg
  if 1 ≤ s2.chip.stage ∧ s2.chip.stage ≤ 3 then s2.toStage0 0x0D#8 255#8
  else if s2.chip.stage = 4 then
    let s3 := (List.range 8).foldl (fun (s : State) d => if domains.any (fun x => domainDie x == some d) then s.dieOut d else s) s2
    let s4 := if domains.contains pdMem then s3.memOut else s3
    if domains.contains pdHost then s4.hostOut else s4
  else s2

/-- RAIL_OVER_CURRENT (R23). -/
def execRailOverCurrent (rail : Nat) (domains : List Nat) (s : State) : Host.Outcome State Fault Refusal :=
  .next (if s.inputs.switches then s.railTrip rail domains else s)

/-- THERMAL_TRIP: the main domains and every laser bay go off and stage 0 is held (R52, R73, R420). -/
def execThermalTrip (s : State) : Host.Outcome State Fault Refusal :=
  .next ({ (s.toStage0 0x0A#8 255#8) with power := { s.power with trip := true, hot := true, hotReset := false, hotCool := false } }.assertFault)

/-- JUNCTION_BELOW_100_C: after a trip and a module reset the module starts again (R420); before the module reset the fall is noted. -/
def State.cooled (s : State) : State :=
  if !s.power.hot then s
  else if !s.power.hotReset then { s with power := { s.power with hotCool := true } }
  else
    let s1 := { s with power := { s.power with hot := false, hotReset := false, hotCool := false } }
    (if s1.inputs.tripHold then s1 else s1.restartStages).refreshFault

/-- JUNCTION_BELOW_100_C (R420). -/
def execJunctionBelow100C (s : State) : Host.Outcome State Fault Refusal := .next s.cooled

end Sys2Proof.Machine
end

