-- ==== Sys2Proof/Machine/Hosts.lean ====
section
/-!
DEFINITION. Events of the host ports: PERST_N, enumeration, function-level resets, SR-IOV, REFCLK and links (R33 to R37, R72, R78 to R82,
R106, R113).
-/
namespace Sys2Proof.Machine

/-- PERST_ASSERT: a module reset if every enumerated port is in reset then, else a port reset (R72). The active port of that module reset is
chosen at its end, the release (R37, R78; log 60). -/
def State.perstAssert (s : State) (h : HPort) : State :=
  let s1 := s.modHostPort h (fun p => { p with perst := true })
  if !(s.hostPort h).enumerated then s1
  else if (!s1.hostA.enumerated || s1.hostA.perst) && (!s1.hostB.enumerated || s1.hostB.perst) then
    { s1.moduleReset with chip := { s1.moduleReset.chip with portsChosen := false } }
  else s1.portReset h

/-- PERST_ASSERT (R72). -/
def execPerstAssert (h : HPort) (s : State) : Host.Outcome State Fault Refusal := .next (s.perstAssert h)

/-- PERST_RELEASE: the cables are read, and the active port is chosen once for each module reset and power-on (R37, R78). After an input trip the
release of an input that was asserted lets the module start once main input is back (R17; log 60). -/
def State.perstRelease (s : State) (h : HPort) (cableA cableB : Bool) : State :=
  let s1 := { s with hostA := { s.hostA with cable := cableA }, hostB := { s.hostB with cable := cableB } }.modHostPort h (fun p => { p with perst := false })
  let s2 := if s1.chip.portsChosen then s1 else { s1 with chip := { s1.chip with portsChosen := true } }.choosePorts
  if s2.inputs.tripHold ∧ (s.hostPort h).perst then { s2 with inputs := { s2.inputs with tripPerst := true } }.powered else s2

/-- PERST_RELEASE (R33). -/
def execPerstRelease (h : HPort) (cableA cableB : Bool) (s : State) : Host.Outcome State Fault Refusal := .next (s.perstRelease h cableA cableB)

/-- A port may enumerate: out of reset, PWR_GOOD high, active, with a cable (R33, R37, R78). -/
def State.mayEnumerate (s : State) (h : HPort) : Bool :=
  let p := s.hostPort h
  !p.perst && s.inputs.pwrGood && p.active && p.cable && !s.railCut pdHost

/-- HOST_PORT_ENUMERATED (R33): the link trained, so REFCLK is there (R35); the host has set the link and BAR4 up (R75, R76; log 15). -/
def State.enumerate (s : State) (h : HPort) (setup : LinkSetup) : State :=
  if s.mayEnumerate h then
    let s1 := s.modHostPort h (fun p => { p with enumerated := true, link := true, lost := false, setup := setup })
    { s1 with inputs := { s1.inputs with refclkLost := false }, mem := { s1.mem with barW := 2 ^ (30 + setup.bar4.val) } }.paths
  else s

/-- HOST_PORT_ENUMERATED (R33). -/
def execHostPortEnumerated (h : Enumeration) (s : State) : Host.Outcome State Fault Refusal := .next (s.enumerate h.port h.setup)

/-- FUNCTION_LEVEL_RESET: of a virtual function, its context; of physical function 0, context 0, and VF Enable of the port is cleared
(R72, R106). -/
def State.flr (s : State) (h : HPort) (f : Func) : State :=
  if !(s.hostPort h).presents f then s else
    match f with
    | .vf n => s.resetCtx n
    | .pf => ((s.modHostPort h (fun p => { p with vfEnable := false })).resetCtx 0).refunction.paths

/-- FUNCTION_LEVEL_RESET (R72). -/
def execFunctionLevelReset (h : HPort) (f : Func) (s : State) : Host.Outcome State Fault Refusal := .next (s.flr h f)

/-- SRIOV_NUMVFS_WRITE: every context that changes function is reset (R79, R82). -/
def execSriovNumvfsWrite (h : HPort) (enable : Bool) (n : CtxId) (s : State) : Host.Outcome State Fault Refusal :=
  .next (if (s.hostPort h).presents .pf then ((s.modHostPort h (fun p => { p with vfEnable := enable, numVfs := n })).refunction).paths else s)


/-- REFCLK_LOSS (R35). -/
def execRefclkLoss (s : State) : Host.Outcome State Fault Refusal :=
  .next (let s1 := { s with hostA := s.hostA.down, hostB := s.hostB.down, inputs := { s.inputs with refclkLost := true } }
    (s1.setSticky 4).paths)

/-- HOST_LINK_DOWN (R113). -/
def execHostLinkDown (h : HPort) (s : State) : Host.Outcome State Fault Refusal := .next (s.modHostPort h HostPortSt.down).paths

/-- HOST_LINK_UP: a link returns on a port that is still enumerated (R113); REFCLK is there again (R35). -/
def State.linkUp (s : State) (h : HPort) : State :=
  let s1 := { s with inputs := { s.inputs with refclkLost := false } }
  if (s.hostPort h).enumerated ∧ (s.hostPort h).lost ∧ !s.railCut pdHost then (s1.modHostPort h (fun p => { p with link := true, lost := false })).paths else s1

/-- HOST_LINK_UP (R113). -/
def execHostLinkUp (h : HPort) (s : State) : Host.Outcome State Fault Refusal := .next (s.linkUp h)

/-- HOST_PATH_LOST_TIMEOUT: the path of some context, Off or not, has been lost for 1 s. Each port whose link is still down is reset, then
the contexts that are left without a path or change function (R113). -/
def State.pathLost (s : State) : State :=
  if !s.ctxs.any (fun x => x.2.linkHold) then s else
    let down := fun (p : HostPortSt) => if p.lost then p.cleared else p
    (({ s with hostA := down s.hostA, hostB := down s.hostB }.paths).refunction).resetPathless

/-- HOST_PATH_LOST_TIMEOUT (R113). -/
def execHostPathLostTimeout (s : State) : Host.Outcome State Fault Refusal := .next s.pathLost

end Sys2Proof.Machine
end

