-- ==== Sys2Proof/Machine/Mgmt.lean ====
section
/-!
DEFINITION. The management bus, MCTP, PLDM and SPDM, the test port and the host mailbox (R25 to R27, R45, R57 to R63).
-/
namespace Sys2Proof.Machine

/-- The bus interface is reset; a dynamic address is lost with it (R26, R27; log 56). -/
def Mgmt.busReset (x : Mgmt) : Mgmt := { x with busResets := x.busResets + 1, dynAddr := none }

/-- MGMT_HOLD_RELEASE (R26). -/
def execMgmtHoldRelease (s : State) : Host.Outcome State Fault Refusal := .next { s with mgmt := s.mgmt.busReset }

/-- MGMT_STUCK (R27). -/
def execMgmtStuck (s : State) : Host.Outcome State Fault Refusal :=
  .next ({ s with mgmt := { s.mgmt.busReset with stuck := true }, inputs := { s.inputs with smbAlert := true } }.setSticky 5)

/-- MGMT_LINE_RELEASED (R27): what waited for the bus is reported (R19). -/
def execMgmtLineReleased (s : State) : Host.Outcome State Fault Refusal := .next { s with mgmt := { s.mgmt with stuck := false } }.sendReports

/-- The static address: 0x60 plus MGMT_ADDR (R25). -/
def State.mgmtAddr (s : State) : BitVec 7 := BitVec.ofNat 7 (0x60 + fld s.strapNat 1 3)

/-- MGMT_DYNAMIC_ADDRESS (R25). -/
def execMgmtDynamicAddress (addr : BitVec 7) (s : State) : Host.Outcome State Fault Refusal :=
  .next (if s.busUp then { s with mgmt := { s.mgmt with dynAddr := some addr } } else s)

/-- MCTP_CONTROL (R57). -/
def execMctpControl (path : MgmtPath) (msg : List Byte) (s : State) : Host.Outcome State Fault Refusal :=
  .next (if s.mgmtUp path then s.emit (.mgmt (Config.mctpAnswer msg)) else s)

/-- Number and reading of a sensor (R57); numbers are the model's (log 8). -/
def State.sensor (s : State) : Sensor → Nat × Nat
  | .junction => (0, s.power.tjMax)
  | .inlet => (1, s.power.inlet)
  | .outlet => (2, s.power.outlet)
  | .voltage b => (3 + b2n b, Config.analogue (4 * s.fresh + 0 + 2 ^ 40 * b2n b))
  | .current b => (5 + b2n b, Config.analogue (4 * s.fresh + 1 + 2 ^ 40 * b2n b))
  | .power b => (7 + b2n b, Config.analogue (4 * s.fresh + 2 + 2 ^ 40 * b2n b))
  | .feedState => (9, s.feeds)
  | .stage => (10, s.chip.stage)

/-- PLDM_MONITORING (R57). -/
def execPldmMonitoring (path : MgmtPath) (sensor : Sensor) (s : State) : Host.Outcome State Fault Refusal :=
  .next (if s.mgmtUp path then s.bump.emit (.mgmt (Config.pldmReading (s.sensor sensor).1 (s.sensor sensor).2)) else s)

/-- A chunk of an image goes to RAM while no image runs, else to the flash part that does not hold the running image (R59, R60); under a
recovery image to the part that BOOT_SRC does not try first (log 57). -/
def State.imageWrite (s : State) (off : Nat) (data : List Byte) : State :=
  if s.chip.image = 0 then { s with mgmt := { s.mgmt with recovery := s.mgmt.recovery.writeN off data } }
  else if s.chip.image = 1 ∨ (s.chip.image = 3 ∧ fld s.strapNat 14 2 ≠ 2) then { s with flash := { s.flash with imageB := s.flash.imageB.writeN off data } }
  else { s with flash := { s.flash with imageA := s.flash.imageA.writeN off data } }

/-- The part that `imageWrite` writes while an image runs. -/
def State.spare (s : State) : ImageSlot := if s.chip.image = 1 ∨ (s.chip.image = 3 ∧ fld s.strapNat 14 2 ≠ 2) then .b else .a

/-- PLDM_FIRMWARE_UPDATE: the data is written and the request answered (R57); the image that an update leaves in flash takes effect at the
next start (R60; log 57). -/
def execPldmFirmwareUpdate (off : Via Nat) (data : List Byte) (s : State) : Host.Outcome State Fault Refusal :=
  .next (if s.mgmtUp off.path then
    let s1 := s.imageWrite off.req data
    (if s.chip.image = 0 then s1 else { s1 with flash := { s1.flash with nextBoot := some s.spare } }).emit (.mgmt (Config.pldmUpdate off.req data))
  else s)

/-- The bytes of the running image: a flash part's, or those of the recovery image in RAM (R59). -/
def State.runningImage (s : State) : Mem :=
  match s.chip.image with
  | 1 => s.flash.imageA
  | 2 => s.flash.imageB
  | 3 => s.mgmt.recovery
  | _ => []

/-- The bytes of an image, at most 64 MiB (R59, R62). -/
def imageBytes (m : Mem) : List Byte := m.readN 0 (min (2 ^ 26) (Config.imageLen m))

/-- Contents of a measurement index and the stage it is available from (R62). -/
def State.measure (s : State) (i : Nat) : Nat × List Byte :=
  match i with
  | 1 => (0, sha384 Config.bootRom)
  | 2 => (1, sha384 (imageBytes s.runningImage))
  | 3 => (1, [byte s.chip.image] ++ leBytes 2 s.chip.svn.toNat ++ leBytes 2 s.flash.fuseSvn)
  | 4 => (0, leBytes 4 s.strapNat)
  | 5 => (0, (s.flash.fuses.map (fun f => leBytes 2 f.toNat)).flatten ++ [byte (b2n s.chip.dbgUnlock)])
  | 6 => (1, leBytes 2 s.flash.planVersion.toNat)
  | _ => (3, (s.fabric.bays.map (fun (b : Nat × Bay) => if b.2.state = 0 then [] else leBytes 8 b.2.serial.toNat)).flatten)

/-- A measurement: all zero before its index is available (R62). -/
def State.measurement (s : State) (i : Nat) : List Byte :=
  if (s.measure i).1 ≤ s.chip.stage then (s.measure i).2 else (s.measure i).2.map (fun _ => 0#8)

/-- A signed measurement (R62). -/
def State.signedMeasurement (s : State) (i : Nat) : List Byte := s.measurement i ++ Config.deviceSign (s.measurement i)

/-- An answer sealed under the session's keys and the next message number (R62, DSP0277). -/
def State.sendSealed (s : State) (plain : List Byte) : State :=
  { s with mgmt := { s.mgmt with sealed := s.mgmt.sealed + 1 } }.emit (.mgmt (Config.spdmSeal s.mgmt.session s.mgmt.sealed plain))

/-- SPDM_GET_MEASUREMENTS of an index, as a secured message or not: the measurement and its signature by the device identity key; a
secured message only in a session whose handshake has completed (R62). -/
def execSpdmGetMeasurements (index : Via (Bool × Nat)) (s : State) : Host.Outcome State Fault Refusal :=
  .next (if !s.mgmtUp index.path then s
    else if index.req.1 then (if s.mgmt.spdm = 2 then s.sendSealed (s.signedMeasurement index.req.2) else s)
    else s.emit (.mgmt (s.signedMeasurement index.req.2)))

/-- The module's random data and exchange key in a KEY_EXCHANGE answer: 32 and 96 bytes, free (R62, DSP0274; log 8). -/
def State.exchangeData (s : State) : List Byte := s.freeBytes 128

/-- SPDM_KEY_EXCHANGE: a session begins; the answer is the module's part of the exchange and a signature over certificate slot 0 and the
exchange so far, which becomes the session's transcript (R62). -/
def State.keyExchange (s : State) (msg : List Byte) : State :=
  let soFar := Config.certSlot0 ++ msg ++ s.exchangeData
  { s.bump with mgmt := { s.mgmt with spdm := 1, session := soFar ++ Config.deviceSign soFar, sealed := 0 } }.emit
    (.mgmt (s.exchangeData ++ Config.deviceSign soFar))

/-- SPDM_KEY_EXCHANGE (R62). -/
def execSpdmKeyExchange (msg : Via (List Byte)) (s : State) : Host.Outcome State Fault Refusal :=
  .next (if s.mgmtUp msg.path then s.keyExchange msg.req else s)

/-- SPDM_FINISH: the handshake completes and its answer closes the transcript, or the session ends (R62). -/
def State.finishSession (s : State) (macOk : Bool) : State :=
  let answer := Config.spdmFinish s.mgmt.session macOk
  { s with mgmt := { s.mgmt with
    spdm := if macOk then 2 else 0
    session := if macOk then s.mgmt.session ++ answer else [] } }.emit (.mgmt answer)

/-- SPDM_FINISH (R62). -/
def execSpdmFinish (macOk : Via Bool) (s : State) : Host.Outcome State Fault Refusal :=
  .next (if s.mgmtUp macOk.path ∧ s.mgmt.spdm = 1 then s.finishSession macOk.req else s)

/-- UNLOCK_NONCE (R63). -/
def execUnlockNonce (path : MgmtPath) (s : State) : Host.Outcome State Fault Refusal :=
  .next (if s.mgmtUp path then
    let n := Config.nonce s.mgmt.nonceCount
    let s1 := { s with mgmt := { s.mgmt with nonces := s.mgmt.nonces ++ [n], nonceCount := s.mgmt.nonceCount + 1 } }
    (match path with
      | .mailbox => s1.emit (.mailbox stOk.toNat (leBytes 8 n.toNat))
      | .bus => s1.emit (.mgmt (leBytes 8 n.toNat)))
    else s)

/-- Every tile is in reset: stage 0, where no tile is powered (R45, R54). -/
def State.tilesInReset (s : State) : Bool := s.chip.stage == 0 && allTiles.all (fun t => (s.tile t).sleep == .off)

/-- DBG_UNLOCK: `age` is the time in seconds since the nonce was issued (R63). -/
def execDbgUnlock (sigOk : Bool) (serial nonce : DWord) (age : Nat) (s : State) : Host.Outcome State Fault Refusal :=
  .next (if s.chip.rom && s.tilesInReset && sigOk && serial == Config.serial && s.mgmt.nonces.contains nonce && decide (age ≤ 60)
    then { s with chip := { s.chip with dbgUnlock := true } } else s)

/-- What an instruction shifts out; EXTEST acts as BYPASS outside stage 0 with all tiles in reset, a locked private instruction has
no effect, and what an unlocked one does is not in the spec (R45, R63). The cells that SAMPLE/PRELOAD and EXTEST shift out are free. -/
def State.dbg (s : State) (op : DbgOp) : Host.Outcome State Fault Refusal :=
  match op with
  | .bypass => .next (s.emit (.dbg 0#32))
  | .samplePreload => .next (s.bump.emit (.dbg (BitVec.truncate 32 s.free)))
  | .extest => .next (if s.tilesInReset then s.bump.emit (.dbg (BitVec.truncate 32 s.free)) else s.emit (.dbg 0#32))
  | .idcode => .next (s.emit (.dbg 0x1816A0C3#32))
  | .privateTest _ => if s.chip.dbgUnlock then .refused .privateTestInstruction else .next s

/-- DBG_INSTRUCTION (R45, R63). -/
def execDbgInstruction (op : DbgOp) (s : State) : Host.Outcome State Fault Refusal := s.dbg op

/-- A mailbox command completes with a status word and data (R58). -/
def State.mailbox (s : State) (code : Nat) (status : Word) (data : List Byte) : State :=
  { s with mgmt := { s.mgmt with command := word code, status := status, buffer := data } }.emit (.mailbox status.toNat data)

/-- A mailbox command takes effect from a stage on; before, it completes with STATE and no effect (R58). -/
def State.mailboxCmd (s : State) (code stage : Nat) (f : State → State) : State :=
  if !s.mailboxUp then s else if s.chip.stage < stage then s.mailbox code (word stState.toNat) [] else f s

def mbOk : Word := word stOk.toNat

/-- MAILBOX_GET_STATUS (R58). -/
def execMailboxGetStatus (s : State) : Host.Outcome State Fault Refusal :=
  .next (s.mailboxCmd 1 0 (fun s => s.mailbox 1 mbOk
    (leBytes 4 s.glbStage ++ leBytes 4 s.strapNat ++ leBytes 4 s.fwStatus ++ leBytes 4 s.flash.fuseSvn ++ leBytes 4 s.inputStatus)))

/-- MAILBOX_GET_IDENTITY (R29, R58). -/
def execMailboxGetIdentity (s : State) : Host.Outcome State Fault Refusal :=
  .next (s.mailboxCmd 2 0 (fun s => s.mailbox 2 mbOk
    (Config.identity s.chip.image s.chip.svn ++ leBytes 8 Config.serial.toNat ++ [byte (fld s.strapNat 5 6)])))

/-- The bytes of the health log (R56). -/
def Flash.logBytes (f : Flash) : List Byte := (f.log.map (fun e => Config.encodeLog e.kind e.args)).flatten

/-- MAILBOX_READ_LOG: up to 4 KiB from an offset (R58). -/
def execMailboxReadLog (off : Nat) (s : State) : Host.Outcome State Fault Refusal :=
  .next (s.mailboxCmd 3 0 (fun s => s.mailbox 3 mbOk ((s.flash.logBytes.drop off).take 4096)))

/-- MAILBOX_IMAGE_WRITE (R60). -/
def execMailboxImageWrite (off : Nat) (data : List Byte) (s : State) : Host.Outcome State Fault Refusal :=
  .next (s.mailboxCmd 4 0 (fun s => (s.imageWrite off data).mailbox 4 mbOk []))

/-- The effect of IMAGE_COMMIT: while an image runs the written image is marked as the next to boot if it verifies; while none runs and
the mailbox takes a recovery image it is one, which runs from RAM or fails; else it is verified, and a failure logged (R59, R60). -/
def State.commitImage (s : State) (sigOk : Bool) (svn : Half) : State :=
  if s.chip.image = 0 ∧ s.mayBoot ∧ s.recoveryOpen .mailbox then s.recover .mailbox sigOk svn
  else if !s.imageOk sigOk svn then s.logEv 12 [4]
  else if s.chip.image = 0 then s
  else { s with flash := { s.flash with nextBoot := some s.spare } }

/-- IMAGE_COMMIT completes; the status word of a failed verification is not stated and free (R59). -/
def State.imageCommit (s : State) (sigOk : Bool) (svn : Half) : State :=
  if s.imageOk sigOk svn then (s.commitImage sigOk svn).mailbox 5 mbOk []
  else (s.commitImage sigOk svn).bump.mailbox 5 (BitVec.truncate 32 s.free) []

/-- MAILBOX_IMAGE_COMMIT (R59). -/
def execMailboxImageCommit (sigOk : Bool) (svn : Half) (s : State) : Host.Outcome State Fault Refusal :=
  .next (s.mailboxCmd 5 0 (fun s => s.imageCommit sigOk svn))

/-- RESTART: a module reset after which the boot ROM verifies an image again (R60, R72). -/
def State.restart (s : State) : State :=
  { s with chip := { s.chip with image := 0, svn := 0#16, aOk := false, bOk := false, wdog := false, tried := [], recFailed := false } }.moduleReset

/-- MAILBOX_RESTART (R72). -/
def execMailboxRestart (s : State) : Host.Outcome State Fault Refusal := .next (s.mailboxCmd 6 1 (fun s => (s.mailbox 6 mbOk []).restart))

/-- ADVANCE_SVN: the next unused fuse word takes the running image's version if it is greater (R61). -/
def State.advanceSvn (s : State) : State :=
  if s.flash.fuseSvn < s.chip.svn.toNat ∧ s.flash.fuses.length < 64 then
    { s with flash := { s.flash with fuses := s.flash.fuses ++ [s.chip.svn] } }.mailbox 7 mbOk []
  else s.mailbox 7 (word stState.toNat) []

/-- MAILBOX_ADVANCE_SVN (R61). -/
def execMailboxAdvanceSvn (s : State) : Host.Outcome State Fault Refusal := .next (s.mailboxCmd 7 1 State.advanceSvn)

end Sys2Proof.Machine
end

