-- ==== Sys2Proof/Machine/Dispatch.lean ====
section
/-!
DEFINITION. One arm per command, each one call of its meaning.
-/
namespace Sys2Proof.Machine

/-- The effect of a command on everything but the queue. -/
def exec (i : Instr) (s : State) : Host.Outcome State Fault Refusal :=
  match i with
  | .auxPowerOn => Sys2Proof.Machine.execAuxPowerOn s
  | .alwaysOnReady => Sys2Proof.Machine.execAlwaysOnReady s
  | .strapSample pins => Sys2Proof.Machine.execStrapSample pins s
  | .stage0Complete => Sys2Proof.Machine.execStage0Complete s
  | .firmwareReady img sigOk svn => Sys2Proof.Machine.execFirmwareReady img sigOk svn s
  | .firmwareReadyTimeout img => Sys2Proof.Machine.execFirmwareReadyTimeout img s
  | .recoveryImage path sigOk svn => Sys2Proof.Machine.execRecoveryImage path sigOk svn s
  | .mainInputGood feedA feedB => Sys2Proof.Machine.execMainInputGood feedA feedB s
  | .stage2Complete failure => Sys2Proof.Machine.execStage2Complete failure s
  | .stage3Complete failedDie => Sys2Proof.Machine.execStage3Complete failedDie s
  | .inputTrip overV feedB => Sys2Proof.Machine.execInputTrip overV feedB s
  | .reversePolarity feedB => Sys2Proof.Machine.execReversePolarity feedB s
  | .feedLost feedB => Sys2Proof.Machine.execFeedLost feedB s
  | .feedRestored feedB => Sys2Proof.Machine.execFeedRestored feedB s
  | .railOverCurrent rail domains => Sys2Proof.Machine.execRailOverCurrent rail domains s
  | .mgmtHoldRelease => Sys2Proof.Machine.execMgmtHoldRelease s
  | .mgmtStuck => Sys2Proof.Machine.execMgmtStuck s
  | .mgmtLineReleased => Sys2Proof.Machine.execMgmtLineReleased s
  | .mgmtDynamicAddress addr => Sys2Proof.Machine.execMgmtDynamicAddress addr s
  | .mctpControl path msg => Sys2Proof.Machine.execMctpControl path msg s
  | .pldmMonitoring path sensor => Sys2Proof.Machine.execPldmMonitoring path sensor s
  | .pldmFirmwareUpdate off data => Sys2Proof.Machine.execPldmFirmwareUpdate off data s
  | .spdmGetMeasurements index => Sys2Proof.Machine.execSpdmGetMeasurements index s
  | .spdmKeyExchange msg => Sys2Proof.Machine.execSpdmKeyExchange msg s
  | .spdmFinish macOk => Sys2Proof.Machine.execSpdmFinish macOk s
  | .unlockNonce path => Sys2Proof.Machine.execUnlockNonce path s
  | .dbgUnlock sigOk serial nonce age => Sys2Proof.Machine.execDbgUnlock sigOk serial nonce age s
  | .dbgInstruction op => Sys2Proof.Machine.execDbgInstruction op s
  | .throttleAssert => Sys2Proof.Machine.execThrottleAssert s
  | .throttleRelease => Sys2Proof.Machine.execThrottleRelease s
  | .perstAssert h => Sys2Proof.Machine.execPerstAssert h s
  | .perstRelease h cableA cableB => Sys2Proof.Machine.execPerstRelease h cableA cableB s
  | .hostPortEnumerated h => Sys2Proof.Machine.execHostPortEnumerated h s
  | .functionLevelReset h f => Sys2Proof.Machine.execFunctionLevelReset h f s
  | .sriovNumvfsWrite h enable n => Sys2Proof.Machine.execSriovNumvfsWrite h enable n s
  | .refclkLoss => Sys2Proof.Machine.execRefclkLoss s
  | .hostLinkDown h => Sys2Proof.Machine.execHostLinkDown h s
  | .hostLinkUp h => Sys2Proof.Machine.execHostLinkUp h s
  | .hostPathLostTimeout => Sys2Proof.Machine.execHostPathLostTimeout s
  | .mailboxGetStatus => Sys2Proof.Machine.execMailboxGetStatus s
  | .mailboxGetIdentity => Sys2Proof.Machine.execMailboxGetIdentity s
  | .mailboxReadLog off => Sys2Proof.Machine.execMailboxReadLog off s
  | .mailboxImageWrite off data => Sys2Proof.Machine.execMailboxImageWrite off data s
  | .mailboxImageCommit sigOk svn => Sys2Proof.Machine.execMailboxImageCommit sigOk svn s
  | .mailboxRestart => Sys2Proof.Machine.execMailboxRestart s
  | .mailboxAdvanceSvn => Sys2Proof.Machine.execMailboxAdvanceSvn s
  | .bar0BadAccess write off size => Sys2Proof.Machine.execBar0BadAccess write off size s
  | .registerWrite f off acc => Sys2Proof.Machine.execRegisterWrite f off acc s
  | .tileGate t => Sys2Proof.Machine.execTileGate t s
  | .tileDoze t => Sys2Proof.Machine.execTileDoze t s
  | .diePllStop d => Sys2Proof.Machine.execDiePllStop d s
  | .diePllLock d => Sys2Proof.Machine.execDiePllLock d s
  | .tileWakeDone t => Sys2Proof.Machine.execTileWakeDone t s
  | .ctxTileMaskApply f c hi => Sys2Proof.Machine.execCtxTileMaskApply f c hi s
  | .ctxEnable f c => Sys2Proof.Machine.execCtxEnable f c s
  | .ctxDisable f c => Sys2Proof.Machine.execCtxDisable f c s
  | .ctxRunSet f c => Sys2Proof.Machine.execCtxRunSet f c s
  | .ctxRunClear f c => Sys2Proof.Machine.execCtxRunClear f c s
  | .ctxResume f c => Sys2Proof.Machine.execCtxResume f c s
  | .ctxReset f c => Sys2Proof.Machine.execCtxReset f c s
  | .ctxResetDone c => Sys2Proof.Machine.execCtxResetDone c s
  | .ctxRingCfgWrite f c q v => Sys2Proof.Machine.execCtxRingCfgWrite f c q v s
  | .ctxCqCfgWrite f c v => Sys2Proof.Machine.execCtxCqCfgWrite f c v s
  | .ringDb f c q v host => Sys2Proof.Machine.execRingDb f c q v host s
  | .cqDb f c v => Sys2Proof.Machine.execCqDb f c v s
  | .descriptorFetch c n => Sys2Proof.Machine.execDescriptorFetch c n s
  | .descriptorUndefinedOpcode c q p => Sys2Proof.Machine.execDescriptorUndefinedOpcode c q p s
  | .descriptorComplete c q p => Sys2Proof.Machine.execDescriptorComplete c q p s
  | .coalesceTimeout c => Sys2Proof.Machine.execCoalesceTimeout c s
  | .descriptorTimeout c q p => Sys2Proof.Machine.execDescriptorTimeout c q p s
  | .fence c q p => Sys2Proof.Machine.execFence c q p s
  | .copy c q p => Sys2Proof.Machine.execCopy c q p s
  | .execStart c q p => Sys2Proof.Machine.execExecStart c q p s
  | .execFaultStop c q p => Sys2Proof.Machine.execExecFaultStop c q p s
  | .queryCtxPage c q p => Sys2Proof.Machine.execQueryCtxPage c q p s
  | .queryModuleStage c q p => Sys2Proof.Machine.execQueryModuleStage c q p s
  | .queryTileState c q p => Sys2Proof.Machine.execQueryTileState c q p s
  | .queryObjectEntry c q p => Sys2Proof.Machine.execQueryObjectEntry c q p s
  | .queryEpoch c q p => Sys2Proof.Machine.execQueryEpoch c q p s
  | .queryHealthLog c q p => Sys2Proof.Machine.execQueryHealthLog c q p s
  | .queryMilepost c q p => Sys2Proof.Machine.execQueryMilepost c q p s
  | .queryTollgate c q p => Sys2Proof.Machine.execQueryTollgate c q p s
  | .mload t k => Sys2Proof.Machine.execMload t k s
  | .shadowLoadDone t => Sys2Proof.Machine.execShadowLoadDone t s
  | .swapFront t => Sys2Proof.Machine.execSwapFront t s
  | .mpass t k => Sys2Proof.Machine.execMpass t k s
  | .passInputStart t => Sys2Proof.Machine.execPassInputStart t s
  | .blockCheckDone t obs => Sys2Proof.Machine.execBlockCheckDone t obs s
  | .voteDone t run1 run2 => Sys2Proof.Machine.execVoteDone t run1 run2 s
  | .passCommit t => Sys2Proof.Machine.execPassCommit t s
  | .streamBlockCommit t => Sys2Proof.Machine.execStreamBlockCommit t s
  | .mdrain t k => Sys2Proof.Machine.execMdrain t k s
  | .drainStart t => Sys2Proof.Machine.execDrainStart t s
  | .drainComplete t stats => Sys2Proof.Machine.execDrainComplete t stats s
  | .mclear t k => Sys2Proof.Machine.execMclear t k s
  | .mstat t k => Sys2Proof.Machine.execMstat t k s
  | .maccr t k => Sys2Proof.Machine.execMaccr t k s
  | .maccw t k => Sys2Proof.Machine.execMaccw t k s
  | .vlaunch t k => Sys2Proof.Machine.execVlaunch t k s
  | .vlaunchStart t => Sys2Proof.Machine.execVlaunchStart t s
  | .vlaunchComplete t => Sys2Proof.Machine.execVlaunchComplete t s
  | .vtap t k => Sys2Proof.Machine.execVtap t k s
  | .dget t k => Sys2Proof.Machine.execDget t k s
  | .dput t k => Sys2Proof.Machine.execDput t k s
  | .dmove t k => Sys2Proof.Machine.execDmove t k s
  | .dmaTransferComplete t idx => Sys2Proof.Machine.execDmaTransferComplete t idx s
  | .esignal t k => Sys2Proof.Machine.execEsignal t k s
  | .esignalRemoteArrive t src ctr => Sys2Proof.Machine.execEsignalRemoteArrive t src ctr s
  | .efence t k => Sys2Proof.Machine.execEfence t k s
  | .efenceCount t idx => Sys2Proof.Machine.execEfenceCount t idx s
  | .ewait t k => Sys2Proof.Machine.execEwait t k s
  | .ewaitRetire t => Sys2Proof.Machine.execEwaitRetire t s
  | .endInsn t k => Sys2Proof.Machine.execEndInsn t k s
  | .tileProgramEnd t => Sys2Proof.Machine.execTileProgramEnd t s
  | .yieldInsn t k => Sys2Proof.Machine.execYieldInsn t k s
  | .callInsn t k => Sys2Proof.Machine.execCallInsn t k s
  | .tileWatchdog t => Sys2Proof.Machine.execTileWatchdog t s
  | .pdispatch t k => Sys2Proof.Machine.execPdispatch t k s
  | .pdispatchStart t => Sys2Proof.Machine.execPdispatchStart t s
  | .prepTrap t cl idx => Sys2Proof.Machine.execPrepTrap t cl idx s
  | .pxNext t cl idx => Sys2Proof.Machine.execPxNext t cl idx s
  | .pxSkip t cl idx => Sys2Proof.Machine.execPxSkip t cl idx s
  | .pxUni t cl idx => Sys2Proof.Machine.execPxUni t cl idx s
  | .hfAdd t cl idx => Sys2Proof.Machine.execHfAdd t cl idx s
  | .hfSub t cl idx => Sys2Proof.Machine.execHfSub t cl idx s
  | .hfMul t cl idx => Sys2Proof.Machine.execHfMul t cl idx s
  | .hfDiv t cl idx => Sys2Proof.Machine.execHfDiv t cl idx s
  | .hfSqrt t cl idx => Sys2Proof.Machine.execHfSqrt t cl idx s
  | .hfMin t cl idx => Sys2Proof.Machine.execHfMin t cl idx s
  | .hfMax t cl idx => Sys2Proof.Machine.execHfMax t cl idx s
  | .hfExp t cl idx => Sys2Proof.Machine.execHfExp t cl idx s
  | .hfLog t cl idx => Sys2Proof.Machine.execHfLog t cl idx s
  | .hfLt t cl idx => Sys2Proof.Machine.execHfLt t cl idx s
  | .hfLe t cl idx => Sys2Proof.Machine.execHfLe t cl idx s
  | .hfEq t cl idx => Sys2Proof.Machine.execHfEq t cl idx s
  | .hfCvtSW t cl idx => Sys2Proof.Machine.execHfCvtSW t cl idx s
  | .hfCvtWS t cl idx => Sys2Proof.Machine.execHfCvtWS t cl idx s
  | .ltLd t cl idx => Sys2Proof.Machine.execLtLd t cl idx s
  | .ltAdd t cl idx => Sys2Proof.Machine.execLtAdd t cl idx s
  | .plMap t cl idx => Sys2Proof.Machine.execPlMap t cl idx s
  | .plLdl t cl idx => Sys2Proof.Machine.execPlLdl t cl idx s
  | .plLdh t cl idx => Sys2Proof.Machine.execPlLdh t cl idx s
  | .plSt t cl idx => Sys2Proof.Machine.execPlSt t cl idx s
  | .scPut t cl idx => Sys2Proof.Machine.execScPut t cl idx s
  | .scWait t cl idx => Sys2Proof.Machine.execScWait t cl idx s
  | .dgInit t cl idx => Sys2Proof.Machine.execDgInit t cl idx s
  | .dgBlk t cl idx => Sys2Proof.Machine.execDgBlk t cl idx s
  | .hxDone t cl idx => Sys2Proof.Machine.execHxDone t cl idx s
  | .hxSig t cl idx => Sys2Proof.Machine.execHxSig t cl idx s
  | .hxTime t cl idx => Sys2Proof.Machine.execHxTime t cl idx s
  | .hxTimeh t cl idx => Sys2Proof.Machine.execHxTimeh t cl idx s
  | .overflowRepeat c q p => Sys2Proof.Machine.execOverflowRepeat c q p s
  | .ctxNumCtlWrite f c v => Sys2Proof.Machine.execCtxNumCtlWrite f c v s
  | .placeCreate c q p => Sys2Proof.Machine.execPlaceCreate c q p s
  | .placeRelease c q p => Sys2Proof.Machine.execPlaceRelease c q p s
  | .placePromote c q p => Sys2Proof.Machine.execPlacePromote c q p s
  | .placeDemote c q p => Sys2Proof.Machine.execPlaceDemote c q p s
  | .placeRehome c q p => Sys2Proof.Machine.execPlaceRehome c q p s
  | .placeSetFlags c q p => Sys2Proof.Machine.execPlaceSetFlags c q p s
  | .placeLift c q p => Sys2Proof.Machine.execPlaceLift c q p s
  | .releaseFramesFree obj => Sys2Proof.Machine.execReleaseFramesFree obj s
  | .migrationSwitch obj blk => Sys2Proof.Machine.execMigrationSwitch obj blk s
  | .frameCleared frame => Sys2Proof.Machine.execFrameCleared frame s
  | .prefetchPlan c q p => Sys2Proof.Machine.execPrefetchPlan c q p s
  | .bar4Read off n => Sys2Proof.Machine.execBar4Read off n s
  | .bar4Write off data => Sys2Proof.Machine.execBar4Write off data s
  | .eccCorrected st row frame => Sys2Proof.Machine.execEccCorrected st row frame s
  | .uncorrectableError addr => Sys2Proof.Machine.execUncorrectableError addr s
  | .patrolScrub errors => Sys2Proof.Machine.execPatrolScrub errors s
  | .slowReadFail addr n retryOk => Sys2Proof.Machine.execSlowReadFail addr n retryOk s
  | .memSlowSizeWrite f n v => Sys2Proof.Machine.execMemSlowSizeWrite f n v s
  | .memSlowBaseWrite f n v => Sys2Proof.Machine.execMemSlowBaseWrite f n v s
  | .memCtxObjRangeWrite f c v => Sys2Proof.Machine.execMemCtxObjRangeWrite f c v s
  | .memCtxFloorWrite f c v => Sys2Proof.Machine.execMemCtxFloorWrite f c v s
  | .memCtxLedgerWrite f c v => Sys2Proof.Machine.execMemCtxLedgerWrite f c v s
  | .memCtxSeqWrite f c v => Sys2Proof.Machine.execMemCtxSeqWrite f c v s
  | .ctxKvLayoutWrite f c v => Sys2Proof.Machine.execCtxKvLayoutWrite f c v s
  | .causewayCrcRetry l => Sys2Proof.Machine.execCausewayCrcRetry l s
  | .causewayLaneSpare l => Sys2Proof.Machine.execCausewayLaneSpare l s
  | .causewayLinkDown l => Sys2Proof.Machine.execCausewayLinkDown l s
  | .portConnectorOpen d => Sys2Proof.Machine.execPortConnectorOpen d s
  | .portReturnLost p => Sys2Proof.Machine.execPortReturnLost p s
  | .portConnectorClose d => Sys2Proof.Machine.execPortConnectorClose d s
  | .portProbeBurst p => Sys2Proof.Machine.execPortProbeBurst p s
  | .portProbeSeen p serial farPort => Sys2Proof.Machine.execPortProbeSeen p serial farPort s
  | .portCrossedPair p serial farPort => Sys2Proof.Machine.execPortCrossedPair p serial farPort s
  | .portLoopDetect p => Sys2Proof.Machine.execPortLoopDetect p s
  | .portTrainDone p peerMod peerPort => Sys2Proof.Machine.execPortTrainDone p peerMod peerPort s
  | .portTrainFail p => Sys2Proof.Machine.execPortTrainFail p s
  | .portHoldExpire p => Sys2Proof.Machine.execPortHoldExpire p s
  | .portFailExpire p => Sys2Proof.Machine.execPortFailExpire p s
  | .opxPortDisable f p v => Sys2Proof.Machine.execOpxPortDisable f p v s
  | .frameData p fecOk hdr payload payCrc => Sys2Proof.Machine.execFrameData p fecOk hdr payload payCrc s
  | .frameReady p r => Sys2Proof.Machine.execFrameReady p r s
  | .frameCredit p vc n slot => Sys2Proof.Machine.execFrameCredit p vc n slot s
  | .frameAck p seq => Sys2Proof.Machine.execFrameAck p seq s
  | .frameNak p seq => Sys2Proof.Machine.execFrameNak p seq s
  | .frameCtrl p payload => Sys2Proof.Machine.execFrameCtrl p payload s
  | .frameAckTimeout p seq => Sys2Proof.Machine.execFrameAckTimeout p seq s
  | .opxModuleAddrWrite f v => Sys2Proof.Machine.execOpxModuleAddrWrite f v s
  | .opxRouteMaskWrite f v => Sys2Proof.Machine.execOpxRouteMaskWrite f v s
  | .opxCtxTagWrite f c v => Sys2Proof.Machine.execOpxCtxTagWrite f c v s
  | .reduceScatter c q p => Sys2Proof.Machine.execReduceScatter c q p s
  | .allGather c q p => Sys2Proof.Machine.execAllGather c q p s
  | .allReduce c q p => Sys2Proof.Machine.execAllReduce c q p s
  | .broadcast c q p => Sys2Proof.Machine.execBroadcast c q p s
  | .send c q p => Sys2Proof.Machine.execSend c q p s
  | .recv c q p => Sys2Proof.Machine.execRecv c q p s
  | .qsend c q p => Sys2Proof.Machine.execQsend c q p s
  | .qrecv c q p => Sys2Proof.Machine.execQrecv c q p s
  | .collectiveTimeout c q p => Sys2Proof.Machine.execCollectiveTimeout c q p s
  | .qsendTimeout c q p => Sys2Proof.Machine.execQsendTimeout c q p s
  | .queueFlushMarker c queue seq => Sys2Proof.Machine.execQueueFlushMarker c queue seq s
  | .bayLatchClose b orientOhm => Sys2Proof.Machine.execBayLatchClose b orientOhm s
  | .cartridgeAuthenticated b proof record => Sys2Proof.Machine.execCartridgeAuthenticated b proof record s
  | .cartridgeRampDone d => Sys2Proof.Machine.execCartridgeRampDone d s
  | .bayInterlockOpen b => Sys2Proof.Machine.execBayInterlockOpen b s
  | .cartridgeSenseFault b => Sys2Proof.Machine.execCartridgeSenseFault b s
  | .cartridgeOverPower b => Sys2Proof.Machine.execCartridgeOverPower b s
  | .cartridgeOverTemp b => Sys2Proof.Machine.execCartridgeOverTemp b s
  | .wearHourly b load1000 temp10 bias power => Sys2Proof.Machine.execWearHourly b load1000 temp10 bias power s
  | .lsrBayRetire f b => Sys2Proof.Machine.execLsrBayRetire f b s
  | .ledgerEdit c q p => Sys2Proof.Machine.execLedgerEdit c q p s
  | .ledgerEditApply c q p => Sys2Proof.Machine.execLedgerEditApply c q p s
  | .serveStep c q p => Sys2Proof.Machine.execServeStep c q p s
  | .servePlanEntry c q p => Sys2Proof.Machine.execServePlanEntry c q p s
  | .serveSample c q p => Sys2Proof.Machine.execServeSample c q p s
  | .adapterBind c q p => Sys2Proof.Machine.execAdapterBind c q p s
  | .adapterUnbind c q p => Sys2Proof.Machine.execAdapterUnbind c q p s
  | .prefixPin c q p => Sys2Proof.Machine.execPrefixPin c q p s
  | .prefixRelease c q p => Sys2Proof.Machine.execPrefixRelease c q p s
  | .tollgateCredit c => Sys2Proof.Machine.execTollgateCredit c s
  | .ctxTgCtlWrite f c v => Sys2Proof.Machine.execCtxTgCtlWrite f c v s
  | .ctxTgDepthWrite f c v => Sys2Proof.Machine.execCtxTgDepthWrite f c v s
  | .ctxTgRateWrite f c v => Sys2Proof.Machine.execCtxTgRateWrite f c v s
  | .switchbackDeclare c q p => Sys2Proof.Machine.execSwitchbackDeclare c q p s
  | .switchbackToRollout c q p => Sys2Proof.Machine.execSwitchbackToRollout c q p s
  | .switchbackToLearner c q p => Sys2Proof.Machine.execSwitchbackToLearner c q p s
  | .switchbackDrop c q p => Sys2Proof.Machine.execSwitchbackDrop c q p s
  | .sbAgreeFrame c rank step digest => Sys2Proof.Machine.execSbAgreeFrame c rank step digest s
  | .sbConfirmFrame c rank digest => Sys2Proof.Machine.execSbConfirmFrame c rank digest s
  | .sbFlip c => Sys2Proof.Machine.execSbFlip c s
  | .sbAbort c rank status stage => Sys2Proof.Machine.execSbAbort c rank status stage s
  | .sbTimerExpire c => Sys2Proof.Machine.execSbTimerExpire c s
  | .loadSigned c q p => Sys2Proof.Machine.execLoadSigned c q p s
  | .secPubCtlWrite f k v => Sys2Proof.Machine.execSecPubCtlWrite f k v s
  | .milepostOpen c q p => Sys2Proof.Machine.execMilepostOpen c q p s
  | .milepostCommit c q p => Sys2Proof.Machine.execMilepostCommit c q p s
  | .milepostAbandon c q p => Sys2Proof.Machine.execMilepostAbandon c q p s
  | .failFrame c step attempt cause rank => Sys2Proof.Machine.execFailFrame c step attempt cause rank s
  | .digestFrame c kind rank digest => Sys2Proof.Machine.execDigestFrame c kind rank digest s
  | .commitResult c ranks => Sys2Proof.Machine.execCommitResult c ranks s
  | .commitTimerExpire c => Sys2Proof.Machine.execCommitTimerExpire c s
  | .shadowSetup c q p => Sys2Proof.Machine.execShadowSetup c q p s
  | .shadowAdvance c q p => Sys2Proof.Machine.execShadowAdvance c q p s
  | .shadowWaymark c q p => Sys2Proof.Machine.execShadowWaymark c q p s
  | .shadowRestore c q p => Sys2Proof.Machine.execShadowRestore c q p s
  | .shadowFillSend c q p => Sys2Proof.Machine.execShadowFillSend c q p s
  | .shadowFillRecv c q p => Sys2Proof.Machine.execShadowFillRecv c q p s
  | .shadowTakeover c q p => Sys2Proof.Machine.execShadowTakeover c q p s
  | .shadowExpel c q p => Sys2Proof.Machine.execShadowExpel c q p s
  | .powerTick x => Sys2Proof.Machine.execPowerTick x s
  | .peakClamp => Sys2Proof.Machine.execPeakClamp s
  | .averageClamp => Sys2Proof.Machine.execAverageClamp s
  | .clampRelease average => Sys2Proof.Machine.execClampRelease average s
  | .thermalTrip => Sys2Proof.Machine.execThermalTrip s
  | .flowLow => Sys2Proof.Machine.execFlowLow s
  | .pathMonitorRead slacks => Sys2Proof.Machine.execPathMonitorRead slacks s
  | .plan24h => Sys2Proof.Machine.execPlan24h s
  | .hltReplanWrite f => Sys2Proof.Machine.execHltReplanWrite f s
  | .selftestRound => Sys2Proof.Machine.execSelftestRound s
  | .selftestSliceStart t => Sys2Proof.Machine.execSelftestSliceStart t s
  | .selftestSliceEnd t r => Sys2Proof.Machine.execSelftestSliceEnd t r s
  | .selftestSlice c q p obs => Sys2Proof.Machine.execSelftestSlice c q p obs s
  | .selftestStress c q p obs => Sys2Proof.Machine.execSelftestStress c q p obs s
  | .selftestPortLoop c q p obs => Sys2Proof.Machine.execSelftestPortLoop c q p obs s
  | .pmcCounterWrap which => Sys2Proof.Machine.execPmcCounterWrap which s
  | .pmcSample t x => Sys2Proof.Machine.execPmcSample t x s
  | .pmcSnapshot c => Sys2Proof.Machine.execPmcSnapshot c s
  | .p12vAuxLoss => Sys2Proof.Machine.execP12vAuxLoss s
  | .junctionBelow100C => Sys2Proof.Machine.execJunctionBelow100C s
  | .stickyCauseClear f v => Sys2Proof.Machine.execStickyCauseClear f v s
  | .prepCoreInstruction t cl idx => Sys2Proof.Machine.execPrepCoreInstruction t cl idx s
  | .illegalTileInstruction t k => Sys2Proof.Machine.execIllegalTileInstruction t k s
  | .fillNoProgressTimeout c q p => Sys2Proof.Machine.execFillNoProgressTimeout c q p s
  | .sliceDigestFormed c => Sys2Proof.Machine.execSliceDigestFormed c s
  | .weightDigestFormed c => Sys2Proof.Machine.execWeightDigestFormed c s

end Sys2Proof.Machine
end

