-- ==== Sys2Proof/Safety.lean ====
section
/-!
DEFINITION. What counts as a safe run, and the terms that statements about descriptors and tile instructions use.
-/
namespace Sys2Proof.Machine

/-- The completion ring of a context takes n more records: it is on, a path is up, no record write has failed since the last RESUME, there is
room, and the host denies the function nothing and lists its memory in canonical form (R86, R92, R106). -/
def State.cqTakes (s : State) (c n : Nat) : Prop :=
  s.cqOn c = true ∧ s.pathUp (s.ctx c).func = true ∧ (s.ctx c).cqHold = false ∧ (s.ctx c).produced + n ≤ (s.ctx c).consumed + s.cqSize c ∧
    n ≤ s.cqSize c ∧ s.denied (s.ctx c).func = [] ∧ s.host.data.wf = true

/-- Host memory of t holds these records one after another in the completion ring of a context, from its produced count in s on: each at
that count modulo the size, with PHASE and EPOCH (R91, R100). -/
def State.RecordsIn (s t : State) (c : Nat) (rs : List Rec) : Prop :=
  ∀ i r, rs[i]? = some r → t.host.data.readN (s.reg (rCqBase c) + 32 * (((s.ctx c).produced + i) % s.cqSize c)) 32 =
    recBytes r (phaseOf ((s.ctx c).produced + i) (s.cqSize c)) (s.ctx c).epoch

/-- Vector v of a context was raised last: its message was sent, or it is pending while no path is up or the host masks it (R93, R113). -/
def State.Raised (s t : State) (c v : Nat) : Prop :=
  v ∈ (t.ctx c).msiPending ∨ t.out.getLast? = some (.msix (s.homePort (s.ctx c).func) (s.ctx c).func ((s.ctx c).vectorNo c v))

/-- The other host connector. -/
def otherPort : HPort → HPort
  | .a => .b
  | .b => .a

/-- n steps from s all answer a next state. -/
def safeFor : Nat → State → Prop
  | 0, _ => True
  | n + 1, s => ∃ t, step s = .next t ∧ safeFor n t

/-- The descriptor with its start order and time, as its operation sees it. -/
def State.begun (s : State) (d : Desc) : Desc := d.begun s.nextStart s.time

/-- The named descriptor of a ring does nothing yet, may start, passes the checks of R102, its memories have power, and it needs no path to
the host that is down. -/
def State.Passes (s : State) (c q : Nat) (p : Word) (d : Desc) (chk : State → Desc → Chk) : Prop :=
  s.desc? c q p = some d ∧ d.work = .idle ∧ s.mayStart c d = true ∧ (s.beginDesc c d).check c (s.begun d) (chk (s.beginDesc c d) (s.begun d)) = none
    ∧ (s.beginDesc c d).memLost (s.begun d) = false ∧ (s.beginDesc c d).noPath c (s.begun d) = false

/-- The named descriptor may start and fails a check, with that ending. -/
def State.Fails (s : State) (c q : Nat) (p : Word) (d : Desc) (chk : State → Desc → Chk) (e : Ending) : Prop :=
  s.desc? c q p = some d ∧ s.mayStart c d = true ∧ (s.beginDesc c d).check c (s.begun d) (chk (s.beginDesc c d) (s.begun d)) = some e

/-- In t the descriptor of a ring and submit position has ended with e. -/
def State.Ended (t : State) (c : Nat) (d : Desc) (e : Ending) : Prop :=
  ∃ y, (t.ctx c).find d.ring d.pos = some y ∧ y.ending = some e

/-- The instruction w at address a stands at place k of tile t's issue window, is of that class and operation, and may pass those held
before it (R130, R147). -/
def State.AtIssue (s : State) (t k cls op a : Nat) (w : TileWord) : Prop :=
  s.window t k = .insn a w ∧ tclass w = cls ∧ top w = op ∧ passes ((s.tile t).seq.held.take k) w = true

/-- A sequencer once the instruction at place k has left its window (R147, R150). -/
def Seq.left (q : Seq) (k : Nat) : Seq := if k < q.held.length then { q with held := q.held.eraseIdx k } else q.next

/-- A sequencer once it has numbered an instruction for a unit of R152. -/
def Seq.numbered (q : Seq) (unit : Nat) : Seq := { q with nextId := q.nextId + 1, busy := q.busy ++ [(q.nextId, unit)] }

/-- A sequencer once an issued instruction has completed (R152). -/
def Seq.without (q : Seq) (id : Nat) : Seq := { q with busy := q.busy.filter (fun b => b.1 != id) }

/-- In u tile t is x but for its counts of R431, and nothing else of s has changed. -/
def State.TileIs (s u : State) (t : Nat) (x : Tile) : Prop :=
  u = { s with tiles := u.tiles } ∧ (∀ k, k ≠ t → u.tile k = s.tile k) ∧ u.tile t = { x with pmc := (u.tile t).pmc, pmcOvf := (u.tile t).pmcOvf }

/-- In u the instruction w at address a has left the window of tile t, which is x but for its counts of R431 and, with TAG_EN, a tag on a
matrix or vector instruction (R433); nothing else of s has changed but the counter of free values. -/
def State.Issues (s u : State) (t a : Nat) (w : TileWord) (x : Tile) : Prop :=
  u = { s with tiles := u.tiles, fresh := u.fresh } ∧ (∀ k, k ≠ t → u.tile k = s.tile k) ∧
    u.tile t = { x with pmc := (u.tile t).pmc, pmcOvf := (u.tile t).pmcOvf, tags := (u.tile t).tags } ∧
    ((u.tile t).tags = x.tags ∨ bitOf (s.reg (rPmcTag t)) 31 = true ∧ (tclass w = 1 ∨ tclass w = 2) ∧
      ∃ id, (u.tile t).tags = x.tags ++ [⟨id, a, w, s.time⟩])

/-- In u the sequencer of tile t is to finish what it had issued, and no other part of a tile has changed (R98, R131). -/
def State.Finishes (s u : State) (t : Nat) : Prop :=
  (∀ k, k ≠ t → u.tile k = s.tile k) ∧ u.tile t = { s.tile t with seq := { (s.tile t).seq with finish := true } }

/-- In u the run of tile t ends with a tile program fault: SECONDARY is the code and UNIT the tile (R98, R101). -/
def State.FaultsWith (s u : State) (t : Nat) (code : Half) : Prop :=
  ∃ o r e, s.tileRun t = some (o, r) ∧ u.run? o = some { r with ending := some e } ∧ e.status = statusOf code ∧ e.secondary = code ∧ e.unit = half t

/-- Core (cl, i) of tile t stands at extension instruction n of R176. -/
def State.AtExt (s : State) (t cl i n : Nat) (q : CoreReq) : Prop :=
  s.coreFetch t cl i = .req q ∧ q.len = 4 ∧ extOp q.w = some n

/-- In u the core is x, and nothing else of s has changed but counts of R431. -/
def State.CoreIs (s u : State) (t cl i : Nat) (x : Core) : Prop :=
  u = { s with tiles := u.tiles } ∧ (∀ k, k ≠ t → u.tile k = s.tile k) ∧
    u.tile t = { s.tile t with clusters := (u.tile t).clusters, pmc := (u.tile t).pmc, pmcOvf := (u.tile t).pmcOvf } ∧
    (∀ c, c ≠ cl → u.cluster t c = s.cluster t c) ∧ u.cluster t cl = { s.cluster t cl with cores := (u.cluster t cl).cores } ∧
    (∀ j, j ≠ i → u.core t cl j = s.core t cl j) ∧ u.core t cl i = x

/-- In u the core has written v to rd and goes on at its next instruction; nothing else has changed. -/
def State.CoreRet (s u : State) (q : CoreReq) (v : Word) : Prop :=
  s.CoreIs u q.t q.cl q.i { q.core.set (iRd q.w) v with pc := q.core.pc + word q.len }

/-- In t a new margin plan is in force, made for that trigger (R422 to R424). -/
def State.Planned (s t : State) (trigger : Byte) : Prop :=
  t.flash.planVersion = s.flash.planVersion + 1#16 ∧ t.flash.planTrigger = trigger ∧ t.flash.history.length ≤ max 1024 s.flash.history.length ∧
    t.flash.history.getLast? = some ⟨s.flash.planVersion + 1#16, trigger, t.flash.vOff, t.flash.fCeil, t.flash.refresh⟩ ∧ (∀ d, d < 8 → t.flash.vOff.get 0 d ≤ 50 ∧ t.flash.vOff.get 0 d % 5 = 0) ∧
    t.mem = s.mem ∧ t.ledger = s.ledger

/-- In u the trap of core (cl, i) of tile t with that cause is recorded, the dispatch's clusters have stopped, and the run ends with
PREP_FAULT (R175). -/
def State.CoreTraps (s u : State) (t cl i cause : Nat) : Prop :=
  (u.tile t).prepFault = word (2 ^ 31 + cl * 2 ^ 21 + i * 2 ^ 16 + cause) ∧ (u.tile t).prepEpc = (s.core t cl i).pc ∧
    (∀ c ∈ (s.tile t).dispatchClusters cl, (u.cluster t c).dispatch = none ∧ ∀ x ∈ (u.cluster t c).cores, x.2.running = false) ∧ s.FaultsWith u t scPrepFault

/-- No block is moving, and no PLACE and no plan item in progress moves one. -/
def State.noMoves (s : State) : Prop := s.mem.migs = [] ∧ ∀ x ∈ s.ctxs, x.2.pfJobs = [] ∧ ∀ d ∈ x.2.descs, ∀ r, d.work ≠ .place r

/-- No retired frame backs a block. -/
def State.noRetiredBlocks (s : State) : Prop := ∀ f ∈ s.flash.retired, ∀ x ∈ s.mem.objs, f ∉ x.2.frames

/-- No retired frame backs a block, and the next spare frame stands ready for the frame that is retired next (R244). -/
def State.spareReady (s : State) : Prop :=
  s.noRetiredBlocks ∧
  s.flash.retired.length < 128 ∧ 128 + s.flash.retired.length ∉ s.flash.retired ∧ 128 + s.flash.retired.length ∉ s.usedFrames

/-- At least n frames of the pool that lie in stacks of the mask are free (R219, R230, R244). -/
def State.hbmFree (s : State) (mask n : Nat) : Prop :=
  ∃ l : List Nat, l.Nodup ∧ n ≤ l.length ∧ ∀ f ∈ l, s.poolFrame f = true ∧ f ∉ s.usedFrames ∧ mask.testBit (stackOf f) = true

/-- In t a PLACE moves these blocks of an object, to frames fs that were free: it is in progress, the object is o, and no byte of device
memory has changed (R226, R228, R229). -/
def State.Moves (s t : State) (c : Nat) (d : Desc) (id : Nat) (o : Obj) (bs fs : List Nat) : Prop :=
  fs.length = bs.length ∧ fs.Nodup ∧ (∀ f ∈ fs, f ∉ s.usedFrames) ∧ t.mem.migs = s.mem.migs ++ (bs.zip fs).map (fun x => ⟨id, x.1, x.2, []⟩) ∧
    (∃ y r, (t.ctx c).find d.ring d.pos = some y ∧ y.ending = none ∧ y.start = some s.nextStart ∧ y.work = .place r ∧ r.job.flight = bs ∧ r.job.left = []) ∧
    t.obj? id = some o ∧ (∀ k, k ≠ id → t.obj? k = s.obj? k) ∧ t.mem.data = s.mem.data

/-- No descriptor of any context is a COLLECTIVE in progress. -/
def State.noColls (s : State) : Prop := ∀ x ∈ s.ctxs, ∀ d ∈ x.2.descs, ∀ r, d.work ≠ .coll r

/-- No COLLECTIVE waits for a path to the host (R113). -/
def State.noHeld (s : State) : Prop := ∀ x ∈ s.ctxs, ∀ d ∈ x.2.descs, ∀ r, d.work = .coll r → r.held = false

/-- No context has a turn of the Switchback in progress. -/
def State.noTurns (s : State) : Prop := ∀ x ∈ s.ctxs, ∀ p, x.2.pair = some p → p.turn = none

/-- No COLLECTIVE and no turn is in progress, so that a frame that leaves completes nothing. -/
def State.quiet (s : State) : Prop := s.noColls ∧ s.noTurns

/-- The ACK (type 4) or NAK (type 5) of a link sequence number that a port sends (R264). -/
def State.answer (s : State) (p type : Nat) (seq : Half) : Out := .frame p (sealHdr (s.linkHdr p type 0 0) seq) [] (crc32c [])

/-- A port once the FEC of a frame has been counted (R264). -/
def Port.counted (x : Port) (f : Fec) : Port :=
  { x with
    corrected := word (satAdd 0xFFFFFFFF x.corrected.toNat f.corrected)
    uncorr := if f.ok = true then x.uncorr else half (satAdd 65535 x.uncorr.toNat 1) }

/-- A frame with that header that port p, in UP, may read: no codeword was uncorrectable and HDR_CRC holds (R264). -/
def State.intact (s : State) (p : Nat) (fec : Fec) (h : HdrWord) : Prop :=
  (s.port p).state = 4 ∧ fec.ok = true ∧ hdrCrcOk h = true

/-- Such a frame that is also the next of the link sequence (R264). -/
def State.accepts (s : State) (p : Nat) (fec : Fec) (h : HdrWord) : Prop :=
  s.intact p fec h ∧ hdrLinkSeq h = (s.port p).recvSeq.toNat

/-- In t port p has answered a frame with x, and nothing but its counts of R264 has changed. -/
def State.onlyAnswers (s t : State) (p : Nat) (fec : Fec) (x : Out) : Prop :=
  t = { s with fabric := { s.fabric with ports := t.fabric.ports }, out := s.out ++ [x] } ∧ t.port p = (s.port p).counted fec ∧
    ∀ k, k ≠ p → t.port k = s.port k

/-- The frame is for this module, intact, and of context c (R265, R266, R269). -/
def State.reaches (s : State) (c : Nat) (h : HdrWord) (bs : List Byte) (crc : Word) : Prop :=
  s.isMe (hdrDst h) = true ∧ s.ctxOfTag (hdrTag h) = some c ∧ crc32c bs = crc

/-- Whether rank me of n receives data from rank k in a COLLECTIVE (R272, R274, R275). -/
def receives (op n me root : Nat) (arrival : Bool) (k : Nat) : Prop :=
  k < n ∧ k ≠ me ∧ (op = 2 ∨ op = 3 ∨ (op = 1 ∧ (arrival = true ∨ k = (me + n - 1) % n)) ∨ (op = 4 ∧ k = root) ∨ (op = 6 ∧ k = root))

/-- The frames that the module has yet to deliver: those that wait for a port, and those a port has queued or holds for its replay (R264,
R277). -/
def State.heldFrames (s : State) : List Frame :=
  s.fabric.waiting ++ (s.fabric.ports.map (fun (p : Nat × Port) => p.2.queued ++ p.2.replay)).flatten

/-- In t frames that carry m, in parts of at most 4,096 bytes, for a transfer of group g go to a module, with the tag, address and epoch that
context c had in s and 4 hops (R262, R268, R269). -/
def State.carries (s t : State) (c dst g seq : Nat) (m : Ctrl) : Prop :=
  ∀ x ∈ frameParts (m.bytes.length / 4096 + 1) 0 m.bytes, ∃ f ∈ t.heldFrames, hdrType f.hdr = m.type ∧ hdrVc f.hdr = m.vc ∧ hdrHops f.hdr = 4 ∧
    hdrTag f.hdr = s.tag c ∧ hdrSrc f.hdr = s.moduleAddr ∧ hdrDst f.hdr = dst % 2 ^ 12 ∧ hdrEpoch f.hdr = (s.ctx c).epoch.toNat ∧
    hdrGroup f.hdr = g % 2 ^ 16 ∧ hdrSeq f.hdr = seq % 2 ^ 32 ∧ hdrOff f.hdr = x.1 ∧ f.payload = x.2 ∧ f.crc = crc32c x.2

/-- In t a COLLECTIVE of group g has begun: it has its start order, the group's SEQ is one higher, and READY with that SEQ has gone to every
rank that this one receives from (R272, R273). -/
def State.CollBegins (s t : State) (c : Nat) (d : Desc) (op : Nat) (g : Group) : Prop :=
  let n := (s.ctx c).collSeq.get 0 (d.num 20 2)
  (∃ y, (t.ctx c).find d.ring d.pos = some y ∧ y.start = some s.nextStart) ∧ (t.ctx c).collSeq.get 0 (d.num 20 2) = n + 1 ∧
    (∀ k, k ≠ d.num 20 2 → (t.ctx c).collSeq.get 0 k = (s.ctx c).collSeq.get 0 k) ∧ (t.ctx c).epoch = (s.ctx c).epoch ∧
    ∀ k, receives op g.ranks.length g.me (d.num 22 2) (bitOf (collFlags d) 0) k →
      s.carries t c (g.ranks.getD k 0) (d.num 20 2) n (.ready op (d.num 17 1) (d.num 40 8))

/-- In t bay b holds x, its partner y, and no other bay has changed. -/
def State.BaysAre (s t : State) (b : Nat) (x y : Bay) : Prop :=
  t.bay b = x ∧ t.bay (partnerOf b) = y ∧ ∀ k, k ≠ b → k ≠ partnerOf b → t.bay k = s.bay k

/-- In t the present cartridge of bay b is OUT with that cause; its partner in service is SOLO, and without one the engine's ports are
OFF and FAULT_N is asserted (R286, R289, R291). -/
def State.GoesOut (s t : State) (b cause : Nat) : Prop :=
  let y := s.bay (partnerOf b)
  s.BaysAre t b { s.bay b with state := bayOut, cause := cause, ramping := false }
      (if (s.bay b).lit = true ∧ y.lit = true then { y with state := baySolo, ramping := false } else y) ∧
    ((s.bay b).lit = true → y.lit = false → t.engineOff (b / 2) = true ∧ t.inputs.faultN = true ∧ ∀ p : PortId, p.val / 8 = b / 2 → (t.port p).state = 0)

/-- In t the row and the version of sequence q are those of s. -/
def State.SameRow (s t : State) (q : Nat) : Prop :=
  { t.seqEntry q with editWait := false } = { s.seqEntry q with editWait := false }

/-- In t the edit has ended with OK for one record and no freed entry, sequence q is e, and no other row has changed. -/
def State.OneEdit (s t : State) (c : Nat) (d : Desc) (q : Nat) (e : SeqEntry) : Prop :=
  t.Ended c d { status := stOk, result := 1#64 } ∧ { t.seqEntry q with editWait := false } = { e with editWait := false } ∧ (∀ k, k ≠ q → s.SameRow t k)

/-- The descriptor is a LEDGER_EDIT whose wait is over and whose one record is x, with the version it asks for. -/
def State.EditOf (s : State) (c q : Nat) (p : Word) (d : Desc) (x : EditRec) : Prop :=
  ∃ r, s.desc? c q p = some d ∧ d.work = .edit r ∧ r.pin = false ∧ r.recs = [x] ∧ (s.ctx c).editReady d r = true ∧
    (x.check = true → x.version = (s.seqEntry x.seq).version)

/-- The descriptor is a SERVE_STEP in progress. -/
def State.ServeOf (s : State) (c q : Nat) (p : Word) (d : Desc) (v : ServeRun) : Prop :=
  s.desc? c q p = some d ∧ d.work = .serve v ∧ d.ending = none ∧ v.admitted = true

/-- The fuse words are at most 64 and strictly rising (R61, R64). -/
def State.FusesRise (s : State) : Prop := s.flash.fuses.Pairwise (fun x y => x < y) ∧ s.flash.fuses.length ≤ 64

/-- Every table is in its canonical form: bytes of device and host memory at rising addresses and none of them zero, objects at rising
IDs, and ledger entries at rising numbers, none of them EMPTY (R223, R224, R301). -/
def State.Canonical (s : State) : Prop :=
  Mem.wf s.mem.data = true ∧ Mem.wf s.host.data = true ∧ s.mem.objs.Pairwise (fun x y => x.1 < y.1) ∧
    s.ledger.entries.Pairwise (fun x y => x.1 < y.1) ∧ ∀ x ∈ s.ledger.entries, x.2 ≠ 0#64

end Sys2Proof.Machine
end

