-- ==== Sys2Proof/Certificates/Slice0/Obligations.lean ====
section
/-!
DEFINITION. The statements about the model: for each family of commands what they do (each answers a next state, and what it holds), what
they leave unchanged, and the rules of the whole machine.
-/
open Sys2Proof Sys2Proof.Machine

/-- For every command c, list rest and state s whose queue is c followed by rest, a step of s is exec of c on s with the queue rest. On an empty queue the step idles for one nanosecond of the global time base while CD22 runs, which is from stage 2 on (R65; log 13), and changes nothing else. Every command other than a private test instruction answers a next state in every state, and such an instruction does so while it is locked; once unlocked it stops under its own name, since the spec gives it no effect (R63). -/
def Obligations.StepRunsTheFrontCommand : Prop :=
  (∀ (c : Instr) (rest : List Instr) (s : State), s.pending = c :: rest → step s = exec c { s with pending := rest }) ∧
  (∀ s : State, s.pending = [] → s.clockOn 22 = true → step s = .next { s with time := s.time + 1#64 }) ∧
  (∀ s : State, s.pending = [] → s.clockOn 22 = false → step s = .next s) ∧
  (∀ s : State, s.clockOn 22 = true ↔ 2 ≤ s.chip.stage ∧ pdMem ∉ s.inputs.domainsOff) ∧
  (∀ (c : Instr) (s : State), (∀ k, c = .dbgInstruction (.privateTest k) → s.chip.dbgUnlock = false) → ∃ t, exec c s = .next t) ∧
  (∀ (k : Nat) (s : State), s.chip.dbgUnlock = true → exec (.dbgInstruction (.privateTest k)) s = .refused .privateTestInstruction)

/-- Right after reset GLB_STAGE reads 0x00FF0000 (no cause, no unit, stage 0), GLB_STRAP and HLT_INPUT_STATUS read 0, context 0 is Idle and every other context Off, every tile is powered off with an empty store, memory lists nothing, every port is OFF, every bay is empty, no command waits, and the fuse words rise and every table is canonical (the two invariants that every step keeps). That GLB_STRAP reads 0 before it is sampled is log 4, that tile stores and the registers without a reset value are 0 is log 3, and that flash and fuses begin blank is log 5: the model's choices. -/
def Obligations.ResetIsAuxiliaryPowerOn : Prop :=
  State.reset.glbStage = 0x00FF0000 ∧ State.reset.strapNat = 0 ∧ State.reset.inputStatus = 0 ∧ (State.reset.ctx 0).state = .idle ∧
  (∀ c, 0 < c → (State.reset.ctx c).state = .off) ∧ (∀ t, (State.reset.tile t).sleep = .off ∧ (State.reset.tile t).store = []) ∧
  State.reset.mem.data = [] ∧ (∀ p, (State.reset.port p).state = 0) ∧ (∀ b, (State.reset.bay b).state = 0) ∧ State.reset.pending = [] ∧
  State.reset.FusesRise ∧ State.reset.Canonical

/-- AUX_POWER_ON and P12V_AUX_LOSS answer a next state that keeps flash and fuses, host memory and the queue, and in which the volatile state of start, inputs, management, contexts, registers, memory and ledger is that of reset (without the auxiliary supply after the loss). ALWAYS_ON_READY sets only that CD00 runs. The first STRAP_SAMPLE latches bits 15:1 of GLB_STRAP from the pins and sets STRAP_ERR exactly for PWR_CLASS 0b00, and a later one changes nothing. One feed live then in a class above 3,600 W keeps stage 0 with CLASS_FEED and FAULT_N (R21; that the feeds are judged at STRAP_SAMPLE is the model's reading, log 22). STAGE_0_COMPLETE starts the boot ROM and reports on the bus what waited for it; with BOOT_SRC 0b00 or 0b01 it waits with CAUSE 0x0E, else CAUSE is 0. CAUSE is stated for a start that nothing holds. -/
def Obligations.PowerOnAndStraps : Prop :=
  (∀ s : State, ∃ t, exec .auxPowerOn s = .next t ∧ t.flash = s.flash ∧ t.host = s.host ∧ t.pending = s.pending ∧ t.chip = {} ∧ t.inputs = {} ∧
    t.mgmt = {} ∧ t.power = {} ∧ t.ctxs = State.reset.ctxs ∧ t.regs = [] ∧ t.mem = {} ∧ t.ledger = {} ∧ t.time = 0#64) ∧
  (∀ s : State, ∃ t, exec .p12vAuxLoss s = .next t ∧ t.flash = s.flash ∧ t.host = s.host ∧ t.pending = s.pending ∧ t.chip = { auxOn := false } ∧
    t.inputs = {} ∧ t.mgmt = {} ∧ t.power = {} ∧ t.ctxs = State.reset.ctxs ∧ t.regs = [] ∧ t.mem = {} ∧ t.ledger = {}) ∧
  (∀ s : State, s.chip.auxOn = true → exec .alwaysOnReady s = .next { s with chip := { s.chip with alwaysOn := true } }) ∧
  (∀ (pins : BitVec 15) (s : State), s.chip.alwaysOn = true → s.chip.strapped = false → ∃ t, exec (.strapSample pins) s = .next t ∧
    t.chip.strapped = true ∧ t.strapNat / 2 = pins.toNat ∧ (t.strapNat % 2 = 1 ↔ pins.toNat / 2 ^ 10 % 4 = 0) ∧
    ((s.feeds = 0 ∨ s.feeds = 3 ∨ t.pwrClass ≤ 3600) → t = { s with chip := t.chip, hostA := t.hostA, hostB := t.hostB }) ∧
    (s.oneFeed = true → 3600 < t.pwrClass → s.chip.stage = 0 → bootWait s.chip.cause = true →
      t.chip.stage = 0 ∧ t.chip.cause = 0x0B#8 ∧ t.inputs.sticky.getLsbD 6 = true ∧ t.inputs.faultN = true)) ∧
  (∀ (pins : BitVec 15) (s : State), s.chip.strapped = true → exec (.strapSample pins) s = .next s) ∧
  (∀ s : State, s.chip.strapped = true → s.chip.rom = false → s.chip.cause = 0#8 → s.chip.tried = [] → s.chip.recFailed = false →
    ∃ t, exec .stage0Complete s = .next t ∧
      t = { s with chip := { s.chip with rom := true, cause := if s.strapNat / 2 ^ 14 % 4 < 2 then 0x0E#8 else 0#8 }, mgmt := t.mgmt, out := t.out } ∧
      (s.mgmt.stuck = false → t.mgmt = { s.mgmt with reports := [] } ∧ t.out = s.out ++ s.mgmt.reports.map (fun e => .mgmt (Config.busReport e.kind e.args))) ∧
      (s.mgmt.stuck = true → t.mgmt = s.mgmt ∧ t.out = s.out))

/-- While the boot ROM may start an image and img is the next one to try, FIRMWARE_READY with a good signature and a security version not below the fused one answers a state in which that image runs, CAUSE is 0, and the stage is 2 exactly if PWR_GOOD is high, SAFE_BOOT_N is 1 and the feeds suffice, else 1; with a bad signature or too low a version no image runs, the stage stays 0 and the image is not tried again. FIRMWARE_READY_TIMEOUT sets WDOG and the image is not tried again; with no image left CAUSE is 0x02. RECOVERY_IMAGE, by a path that is up and that takes one (either once an image has failed, else the one BOOT_SRC selects), runs from RAM (IMAGE 3) under the same rule; one that fails, in its verification or by its timeout, leaves stage 0 with CAUSE 0x01 or 0x02 and both paths open. -/
def Obligations.FirmwareStarts : Prop :=
  (∀ (img : ImageSlot) (svn : Half) (s : State), s.mayBoot = true → s.nextImage = some img → s.flash.fuseSvn ≤ svn.toNat →
    ∃ t, exec (.firmwareReady img true svn) s = .next t ∧ t.chip.image = slotCode img ∧ t.chip.svn = svn ∧ t.chip.cause = 0#8 ∧
      (t.chip.stage = if s.inputs.pwrGood = true ∧ s.safeBootN = true ∧ s.feedsOk = true then 2 else 1) ∧ t = { s with chip := t.chip }) ∧
  (∀ (img : ImageSlot) (sigOk : Bool) (svn : Half) (s : State), s.mayBoot = true → s.nextImage = some img → (sigOk = false ∨ svn.toNat < s.flash.fuseSvn) →
    ∃ t, exec (.firmwareReady img sigOk svn) s = .next t ∧ t.chip.image = 0 ∧ t.chip.stage = 0 ∧ img ∈ t.chip.tried ∧ t.nextImage ≠ some img) ∧
  (∀ (img : ImageSlot) (s : State), s.mayBoot = true → s.nextImage = some img →
    ∃ t, exec (.firmwareReadyTimeout (some img)) s = .next t ∧ t.chip.image = 0 ∧ t.chip.stage = 0 ∧ t.chip.wdog = true ∧ img ∈ t.chip.tried ∧
      (t.nextImage = none → t.chip.cause = 0x02#8)) ∧
  (∀ (path : MgmtPath) (svn : Half) (s : State), s.mayBoot = true → s.recoveryOpen path = true → s.mgmtUp path = true → s.flash.fuseSvn ≤ svn.toNat →
    ∃ t, exec (.recoveryImage path true svn) s = .next t ∧ t.chip.image = 3 ∧ t.chip.svn = svn ∧
      (t.chip.stage = if s.inputs.pwrGood = true ∧ s.safeBootN = true ∧ s.feedsOk = true then 2 else 1) ∧ t = { s with chip := t.chip }) ∧
  (∀ (path : MgmtPath) (sigOk : Bool) (svn : Half) (s : State), s.mayBoot = true → s.recoveryOpen path = true → s.mgmtUp path = true →
    (sigOk = false ∨ svn.toNat < s.flash.fuseSvn) → ∃ t, exec (.recoveryImage path sigOk svn) s = .next t ∧ t.chip.image = 0 ∧ t.chip.stage = 0 ∧
      (t.chip.cause = 0x01#8 ∨ t.chip.cause = 0x02#8) ∧ ∀ p, t.recoveryOpen p = true) ∧
  (∀ (path : MgmtPath) (s : State), s.mayBoot = true → s.recoveryOpen path = true → ∃ t, exec (.firmwareReadyTimeout none) s = .next t ∧
    t.chip.image = 0 ∧ t.chip.stage = 0 ∧ t.chip.wdog = true ∧ t.chip.cause = 0x02#8 ∧ ∀ p, t.recoveryOpen p = true) ∧
  (∀ s : State, s.mayBoot = true → s.bootOrder ≠ [] → s.nextImage = none → ∀ p, s.recoveryOpen p = true)

/-- With no trip held: MAIN_INPUT_GOOD on both feeds makes both live and closes both switches; PWR_GOOD rises unless a module-level rail is still latched off; rails that tripped come back exactly if main input had been removed. On one feed alone in a class above 3,600 W, before stage 4, it sets CLASS_FEED and asserts FAULT_N, and the module is in stage 0: with CAUSE 0x0B, or with the CAUSE and UNIT it had where a failed self-test or a trip holds it. STAGE_2_COMPLETE in stage 2 moves on to stage 3, or with a failure of a unit that is not fenced to stage 0 with that CAUSE and UNIT and FAULT_N; STAGE_3_COMPLETE in stage 3 reaches stage 4, or with a failed die that is not fenced stage 0 with CAUSE 0x09, UNIT 112 + d and FAULT_N. A return to stage 0 leaves memory empty, every context but the owner Off and writes no record. That a hold for CLASS_FEED keeps the CAUSE and UNIT of a failed self-test or trip is log 22, that main input counts as restored with any live feed is log 93, and that a fenced unit is left out of the self-test is R55 as log 20 reads it: the model's readings. -/
def Obligations.MainInputAndStages : Prop :=
  (∀ s : State, s.chip.auxOn = true → s.chip.alwaysOn = true → s.inputs.tripHold = false →
    ∃ t, exec (.mainInputGood true true) s = .next t ∧ t.inputs.feedA = true ∧ t.inputs.feedB = true ∧ t.inputs.switchA = true ∧ t.inputs.switchB = true ∧
      t.inputs.railsOff = (if s.inputs.removed = true then [] else s.inputs.railsOff) ∧ t.inputs.removed = false ∧
      ((s.inputs.removed = true ∨ s.inputs.domainsOff = []) → t.inputs.pwrGood = true) ∧ t.flash = s.flash ∧ t.host = s.host) ∧
  (∀ s : State, s.chip.auxOn = true → s.chip.alwaysOn = true → s.inputs.tripHold = false → s.inputs.feedA = false → s.inputs.feedB = false → 3600 < s.pwrClass →
    s.chip.stage ≠ 4 → ∃ t, exec (.mainInputGood true false) s = .next t ∧ t.chip.stage = 0 ∧ t.inputs.sticky.getLsbD 6 = true ∧ t.inputs.faultN = true ∧ t.feeds = 1 ∧
      (if s.chip.stage = 0 ∧ bootWait s.chip.cause = false then t.chip = s.chip else t.chip.cause = 0x0B#8 ∧ t.chip.unit = 255#8)) ∧
  (∀ s : State, s.chip.stage = 2 → ∃ t, exec (.stage2Complete none) s = .next t ∧ t.chip.stage = 3 ∧ t.flash = s.flash ∧ t.ctxs = s.ctxs ∧ t.mem = s.mem) ∧
  (∀ (cause unit : Byte) (s : State), s.chip.stage = 2 → s.unitExcluded unit.toNat = false → ∃ t, exec (.stage2Complete (some (cause, unit))) s = .next t ∧
      t.chip.stage = 0 ∧ t.chip.cause = cause ∧ t.chip.unit = unit ∧ t.inputs.faultN = true ∧ t.ctxs = State.reset.ctxs ∧ t.mem.data = [] ∧ t.out = s.out) ∧
  (∀ (cause unit : Byte) (s : State), s.chip.stage = 2 → s.unitExcluded unit.toNat = true →
      exec (.stage2Complete (some (cause, unit))) s = exec (.stage2Complete none) s) ∧
  (∀ s : State, s.chip.stage = 3 → ∃ t, exec (.stage3Complete none) s = .next t ∧ t.chip.stage = 4) ∧
  (∀ (d : DieId) (s : State), s.chip.stage = 3 → s.flash.dieFence.toNat.testBit d = false → ∃ t, exec (.stage3Complete (some d)) s = .next t ∧
      t.chip.stage = 0 ∧ t.chip.cause = 0x09#8 ∧ t.chip.unit.toNat = 112 + d.val ∧ t.inputs.faultN = true ∧ t.ctxs = State.reset.ctxs ∧ t.mem.data = [] ∧
      t.out = s.out) ∧
  (∀ (d : DieId) (s : State), s.chip.stage = 3 → s.flash.dieFence.toNat.testBit d = true → exec (.stage3Complete (some d)) s = exec (.stage3Complete none) s)

/-- For every state in which the connector is a live feed, INPUT_TRIP for under-voltage answers a next state in which FAULT_N is asserted if PERST_A_N or PERST_B_N was not asserted, and in which FAULT_N is as it was, with nothing further reported on it, if both were. -/
def Obligations.UnderVoltageTripFault : Prop :=
  ∀ (feedB : Bool) (s : State), s.live feedB = true → ∃ t, exec (.inputTrip false feedB) s = .next t ∧
    ((s.hostA.perst = false ∨ s.hostB.perst = false) → t.inputs.faultN = true) ∧
    (s.hostA.perst = true → s.hostB.perst = true → t.inputs.faultN = s.inputs.faultN)

/-- INPUT_TRIP on a live feed, or for over-voltage on any connector while the always-on logic runs, opens both switches, drops PWR_GOOD, sets OV or UV and returns to stage 0 with CAUSE 0x0C, held until a restart. RAIL_OVER_CURRENT while main input is on latches the rail off, sets OCP, logs the rail and asserts FAULT_N; in stages 1 to 3 it returns to stage 0 with CAUSE 0x0D; in stage 4 the loss of PD410 takes both host links down, and that of PD411 empties device memory and stops the time base (log 54). THERMAL_TRIP sets TRIP, asserts FAULT_N and returns to stage 0 with CAUSE 0x0A, held as hot. In each of these returns contexts are as after reset, memory is empty and nothing is sent to the host. JUNCTION_BELOW_100_C ends the hold only after a module reset; before one it only notes the fall. -/
def Obligations.TripsReturnToStageZero : Prop :=
  (∀ (overV feedB : Bool) (s : State), (s.live feedB = true ∨ (overV = true ∧ s.chip.alwaysOn = true)) → ∃ t, exec (.inputTrip overV feedB) s = .next t ∧
    t.inputs.switchA = false ∧ t.inputs.switchB = false ∧ t.inputs.pwrGood = false ∧ t.live feedB = false ∧ t.live (!feedB) = s.live (!feedB) ∧
    t.inputs.tripHold = true ∧ t.chip.stage = 0 ∧ t.chip.cause = 0x0C#8 ∧ t.inputs.sticky.getLsbD (if overV = true then 8 else 9) = true ∧
    t.ctxs = State.reset.ctxs ∧ t.mem.data = [] ∧ t.out = s.out ∧ t.flash = s.flash ∧ t.mgmt = s.mgmt) ∧
  (∀ (rail : Nat) (domains : List Nat) (s : State), s.inputs.switches = true → 1 ≤ s.chip.stage → s.chip.stage ≤ 3 →
    ∃ t, exec (.railOverCurrent rail domains) s = .next t ∧ rail ∈ t.inputs.railsOff ∧ (∀ d ∈ domains, d ∈ t.inputs.domainsOff) ∧ t.inputs.sticky.getLsbD 7 = true ∧
      t.inputs.faultN = true ∧ t.flash.log = s.flash.log ++ [⟨2, [rail]⟩] ∧ t.chip.stage = 0 ∧ t.chip.cause = 0x0D#8 ∧ t.ctxs = State.reset.ctxs ∧ t.out = s.out) ∧
  (∀ (rail : Nat) (domains : List Nat) (s : State), s.inputs.switches = true → s.chip.stage = 4 → ∃ t, exec (.railOverCurrent rail domains) s = .next t ∧
    rail ∈ t.inputs.railsOff ∧ t.inputs.sticky.getLsbD 7 = true ∧ t.inputs.faultN = true ∧ t.chip.stage = 4 ∧
      (pdHost ∈ domains → t.hostA.link = false ∧ t.hostB.link = false ∧ t.inputs.pwrGood = false) ∧
      (pdMem ∈ domains → t.mem.data = [] ∧ t.clockOn 22 = false)) ∧
  (∀ s : State, ∃ t, exec .thermalTrip s = .next t ∧ t.chip.stage = 0 ∧ t.chip.cause = 0x0A#8 ∧ t.power.trip = true ∧ t.power.hot = true ∧ t.inputs.faultN = true ∧
    t.ctxs = State.reset.ctxs ∧ t.mem.data = [] ∧ t.out = s.out ∧ t.flash = s.flash) ∧
  (∀ s : State, s.power.hot = true → s.power.hotReset = false →
    exec .junctionBelow100C s = .next { s with power := { s.power with hotCool := true } }) ∧
  (∀ s : State, s.power.hot = true → s.power.hotReset = true → ∃ t, exec .junctionBelow100C s = .next t ∧ t.power.hot = false)

/-- With both feeds live in stage 4, FEED_LOST leaves the other feed live, asserts FAULT_N, sets CLASS_FEED in a class above 3,600 W, sets m to RATIO, or to the floor of R417 where that is higher (log 50), lowers the cap in force to the lower of the throttle cap and 3,600 W, and keeps contexts, tiles and memory. Before stage 4 in class 3,600 W it only records the feed. FEED_RESTORED with the other feed live in stage 4 makes both live and ends the cause. REVERSE_POLARITY of a connector that is not live sets REV_A or REV_B, asserts SMB_ALERT_N and FAULT_N, logs the event, leaves the connector's switch open and reports the event on the management bus, or keeps the report until the bus is up; the connector is still no feed. -/
def Obligations.FeedsAndPolarity : Prop :=
  (∀ (feedB : Bool) (s : State), s.inputs.feedA = true → s.inputs.feedB = true → s.chip.stage = 4 → ∃ t, exec (.feedLost feedB) s = .next t ∧
    t.live feedB = false ∧ t.live (!feedB) = true ∧ t.inputs.faultN = true ∧ t.inputs.lostInService = true ∧ (3600 < s.pwrClass → t.inputs.sticky.getLsbD 6 = true) ∧
    t.power.m = max s.ratio s.mFloor ∧ t.power.cap = min s.power.cap (min s.throttleCap 3600) ∧ t.ctxs = s.ctxs ∧ t.tiles = s.tiles ∧ t.mem = s.mem ∧ t.chip = s.chip) ∧
  (∀ (feedB : Bool) (s : State), s.inputs.feedA = true → s.inputs.feedB = true → s.chip.stage ≠ 4 → s.pwrClass ≤ 3600 → ∃ t, exec (.feedLost feedB) s = .next t ∧
    t.live feedB = false ∧ t.live (!feedB) = true ∧ t = { s with inputs := t.inputs }) ∧
  (∀ (feedB : Bool) (s : State), s.chip.alwaysOn = true → s.chip.stage = 4 → s.inputs.tripHold = false → s.live feedB = false → s.live (!feedB) = true →
    ∃ t, exec (.feedRestored feedB) s = .next t ∧ t.inputs.feedA = true ∧ t.inputs.feedB = true ∧ t.inputs.lostInService = false ∧
      t = { s with inputs := t.inputs }) ∧
  (∀ (feedB : Bool) (s : State), s.chip.alwaysOn = true → s.live feedB = false → ∃ t, exec (.reversePolarity feedB) s = .next t ∧
    t.inputs.sticky.getLsbD (if feedB = true then 10 else 11) = true ∧ t.inputs.smbAlert = true ∧ t.inputs.faultN = true ∧ t.live feedB = false ∧
    (if feedB = true then t.inputs.switchB else t.inputs.switchA) = false ∧ t.flash.log = s.flash.log ++ [⟨11, [if feedB = true then 1 else 0]⟩] ∧
    (s.busUp = true → t.out = s.out ++ [.mgmt (Config.busReport 11 [if feedB = true then 1 else 0])] ∧ t.mgmt = s.mgmt) ∧
    (s.busUp = false → t.out = s.out ∧ t.mgmt = { s.mgmt with reports := s.mgmt.reports ++ [⟨11, [if feedB = true then 1 else 0]⟩] }) ∧
    t = { s with inputs := t.inputs, flash := t.flash, out := t.out, mgmt := t.mgmt })

/-- MGMT_HOLD_RELEASE resets the bus interface. MGMT_STUCK resets it, sets MGMT_STUCK and asserts SMB_ALERT_N; MGMT_LINE_RELEASED lets traffic in again. While the boot ROM runs and the line is free, a dynamic address is accepted, and MCTP and PLDM monitoring requests on the bus are answered from stage 0 on. A PLDM firmware chunk goes to flash image B while image A runs, to image A while image B runs, and to RAM while no image runs, and under a recovery image to the part that BOOT_SRC does not try first (log 57), never to the part that holds the running image; the part that an update writes in flash is the next to boot (R60). Reports that waited for the bus go out as the line is released (log 131). In each case nothing else changes, but that a request for a sensor takes a free reading and a firmware update is answered. From stage 0 on, by a path that is up, GET_MEASUREMENTS answers the measurement followed by its signature, all zero where the present stage is below the one the index is available from, and sealed in a session that has completed its handshake if it is asked as a secured message; KEY_EXCHANGE begins a session with free exchange data and a signature over certificate slot 0, the request and that data, which with the signature are the session's transcript; FINISH completes it, its answer closing the transcript, or ends it; and what is sealed depends on the transcript and on the number of the message in the session. A nonce issued over the bus is answered there and kept. DBG_UNLOCK sets DBG_UNLOCK exactly when, in stage 0 with every tile in reset, a good signature names the serial and a nonce issued at most 60 s before, and changes nothing else. IDCODE shifts out 0x1816A0C3; EXTEST outside stage 0 acts as BYPASS; a private instruction has no effect while locked, and once unlocked it stops under its own name, since the spec gives it no effect. That the dynamic address is lost with the reset of the bus interface is log 56, and the layouts of the answers are log 8: the model's choices. What EXTEST and a locked private instruction shift out is log 24, and the message layouts are log 8: the model's choices. -/
def Obligations.ManagementSpdmAndDebug : Prop :=
  (∀ s : State, exec .mgmtHoldRelease s = .next { s with mgmt := { s.mgmt with busResets := s.mgmt.busResets + 1, dynAddr := none } }) ∧
  (∀ s : State, exec .mgmtStuck s = .next { s with
    mgmt := { s.mgmt with busResets := s.mgmt.busResets + 1, dynAddr := none, stuck := true }
    inputs := { s.inputs with smbAlert := true, sticky := s.inputs.sticky ||| 0x20#32 } }) ∧
  (∀ s : State, ∃ t, exec .mgmtLineReleased s = .next t ∧ t = { s with mgmt := t.mgmt, out := t.out } ∧
    (s.chip.rom = true → t.mgmt = { s.mgmt with stuck := false, reports := [] } ∧
      t.out = s.out ++ s.mgmt.reports.map (fun e => .mgmt (Config.busReport e.kind e.args))) ∧
    (s.chip.rom = false → t.mgmt = { s.mgmt with stuck := false } ∧ t.out = s.out)) ∧
  (∀ (a : BitVec 7) (s : State), s.chip.rom = true → s.mgmt.stuck = false → exec (.mgmtDynamicAddress a) s = .next { s with mgmt := { s.mgmt with dynAddr := some a } }) ∧
  (∀ s : State, (s.mgmtUp .bus = true ↔ s.chip.rom = true ∧ s.mgmt.stuck = false) ∧ (s.mgmtUp .mailbox = true ↔ s.chip.rom = true ∧ s.pathUp .pf = true)) ∧
  (∀ (path : MgmtPath) (msg : List Byte) (s : State), s.mgmtUp path = true →
    exec (.mctpControl path msg) s = .next { s with out := s.out ++ [.mgmt (Config.mctpAnswer msg)] }) ∧
  (∀ (path : MgmtPath) (x : Sensor) (s : State), s.mgmtUp path = true → ∃ bs,
    exec (.pldmMonitoring path x) s = .next { s with out := s.out ++ [.mgmt bs], fresh := s.fresh + 1 }) ∧
  (∀ (path : MgmtPath) (off : Nat) (data : List Byte) (s : State), s.mgmtUp path = true → ∃ t,
    exec (.pldmFirmwareUpdate ⟨path, off⟩ data) s = .next { t with out := s.out ++ [.mgmt (Config.pldmUpdate off data)] } ∧
    ((s.chip.image = 1 ∨ (s.chip.image = 3 ∧ fld s.strapNat 14 2 ≠ 2)) →
      t = { s with flash := { s.flash with imageB := s.flash.imageB.writeN off data, nextBoot := some .b } }) ∧
    ((s.chip.image = 2 ∨ (s.chip.image = 3 ∧ fld s.strapNat 14 2 = 2)) →
      t = { s with flash := { s.flash with imageA := s.flash.imageA.writeN off data, nextBoot := some .a } }) ∧
    (s.chip.image = 0 → t = { s with mgmt := { s.mgmt with recovery := s.mgmt.recovery.writeN off data } })) ∧
  (∀ (path : MgmtPath) (i : Nat) (s : State), s.mgmtUp path = true → exec (.spdmGetMeasurements ⟨path, false, i⟩) s =
    .next { s with out := s.out ++ [.mgmt (s.measurement i ++ Config.deviceSign (s.measurement i))] }) ∧
  (∀ (path : MgmtPath) (i : Nat) (s : State), s.mgmtUp path = true → s.mgmt.spdm = 2 → exec (.spdmGetMeasurements ⟨path, true, i⟩) s =
    .next { s with mgmt := { s.mgmt with sealed := s.mgmt.sealed + 1 }
                   out := s.out ++ [.mgmt (Config.spdmSeal s.mgmt.session s.mgmt.sealed (s.measurement i ++ Config.deviceSign (s.measurement i)))] }) ∧
  (∀ s : State, s.measure 2 = (1, sha384 (imageBytes (if s.chip.image = 1 then s.flash.imageA else if s.chip.image = 2 then s.flash.imageB
    else if s.chip.image = 3 then s.mgmt.recovery else [])))) ∧
  (∀ (i : Nat) (s : State), s.chip.stage < (s.measure i).1 → ∀ b ∈ s.measurement i, b = 0#8) ∧
  (∀ (path : MgmtPath) (msg : List Byte) (s : State), s.mgmtUp path = true → exec (.spdmKeyExchange ⟨path, msg⟩) s =
    .next { s with
      fresh := s.fresh + 1
      mgmt := { s.mgmt with
        spdm := 1
        session := Config.certSlot0 ++ msg ++ s.exchangeData ++ Config.deviceSign (Config.certSlot0 ++ msg ++ s.exchangeData)
        sealed := 0 }
      out := s.out ++ [.mgmt (s.exchangeData ++ Config.deviceSign (Config.certSlot0 ++ msg ++ s.exchangeData))] }) ∧
  (∀ (path : MgmtPath) (ok : Bool) (s : State), s.mgmtUp path = true → s.mgmt.spdm = 1 → exec (.spdmFinish ⟨path, ok⟩) s =
    .next { s with
      mgmt := { s.mgmt with
        spdm := if ok = true then 2 else 0
        session := if ok = true then s.mgmt.session ++ Config.spdmFinish s.mgmt.session ok else [] }
      out := s.out ++ [.mgmt (Config.spdmFinish s.mgmt.session ok)] }) ∧
  (∀ s : State, s.chip.rom = true → s.mgmt.stuck = false → exec (.unlockNonce .bus) s = .next { s with
    mgmt := { s.mgmt with nonces := s.mgmt.nonces ++ [Config.nonce s.mgmt.nonceCount], nonceCount := s.mgmt.nonceCount + 1 }
    out := s.out ++ [.mgmt (leBytes 8 (Config.nonce s.mgmt.nonceCount).toNat)] }) ∧
  (∀ (sig : Bool) (sn n : DWord) (age : Nat) (s : State), exec (.dbgUnlock sig sn n age) s =
    .next (if s.chip.rom = true ∧ s.chip.stage = 0 ∧ (∀ t : TileId, (s.tile t).sleep = .off) ∧ sig = true ∧ sn = Config.serial ∧ n ∈ s.mgmt.nonces ∧ age ≤ 60
      then { s with chip := { s.chip with dbgUnlock := true } } else s)) ∧
  (∀ s : State, exec (.dbgInstruction .idcode) s = .next { s with out := s.out ++ [.dbg 0x1816A0C3#32] }) ∧
  (∀ s : State, exec (.dbgInstruction .bypass) s = .next { s with out := s.out ++ [.dbg 0#32] }) ∧
  (∀ s : State, s.chip.stage ≠ 0 → exec (.dbgInstruction .extest) s = exec (.dbgInstruction .bypass) s) ∧
  (∀ (k : Nat) (s : State), s.chip.dbgUnlock = false → exec (.dbgInstruction (.privateTest k)) s = .next s) ∧
  (∀ (k : Nat) (s : State), s.chip.dbgUnlock = true → exec (.dbgInstruction (.privateTest k)) s = .refused .privateTestInstruction)

/-- With the boot ROM running and physical function 0 on an enumerated port whose link is up: GET_STATUS, GET_IDENTITY and READ_LOG answer OK with their data (READ_LOG at most 4 KiB) and change only the mailbox (the encoding of the identity and of log entries is log 8); IMAGE_WRITE writes the part that does not hold the running image, under a recovery image the one that BOOT_SRC does not try first (log 57), and RAM while no image runs; IMAGE_COMMIT of an image that verifies marks that part as the next to boot while an image runs, and one that fails is logged, with a status word that the spec leaves open; while none runs and the boot ROM takes a recovery image by the mailbox, IMAGE_COMMIT runs it as IMAGE 3, or on a failed verification leaves stage 0 with CAUSE 0x01 or 0x02 and both paths open; from stage 1 on RESTART leaves no image running, every context but the owner Off and memory empty, and ADVANCE_SVN appends the running version to the fuse words exactly if it is greater than the fused one and a word is unused, else it answers STATE. RESTART and ADVANCE_SVN in stage 0 answer STATE and change only the mailbox. -/
def Obligations.MailboxCommands : Prop :=
  (∀ s : State, s.mailboxUp = true → ∃ bs, exec .mailboxGetStatus s = .next (s.mailbox 1 0#32 bs) ∧ bs =
    leBytes 4 s.glbStage ++ leBytes 4 s.strapNat ++ leBytes 4 s.fwStatus ++ leBytes 4 s.flash.fuseSvn ++ leBytes 4 s.inputStatus) ∧
  (∀ s : State, s.mailboxUp = true → ∃ bs, exec .mailboxGetIdentity s = .next (s.mailbox 2 0#32 bs) ∧
    bs = Config.identity s.chip.image s.chip.svn ++ leBytes 8 Config.serial.toNat ++ [byte (fld s.strapNat 5 6)]) ∧
  (∀ (off : Nat) (s : State), s.mailboxUp = true → ∃ bs, exec (.mailboxReadLog off) s = .next (s.mailbox 3 0#32 bs) ∧ bs.length ≤ 4096 ∧
    bs = (((s.flash.log.map (fun e => Config.encodeLog e.kind e.args)).flatten).drop off).take 4096) ∧
  (∀ (off : Nat) (data : List Byte) (s : State), s.mailboxUp = true → ∃ t, exec (.mailboxImageWrite off data) s = .next (t.mailbox 4 0#32 []) ∧
    ((s.chip.image = 1 ∨ (s.chip.image = 3 ∧ fld s.strapNat 14 2 ≠ 2)) → t = { s with flash := { s.flash with imageB := s.flash.imageB.writeN off data } }) ∧
    ((s.chip.image = 2 ∨ (s.chip.image = 3 ∧ fld s.strapNat 14 2 = 2)) → t = { s with flash := { s.flash with imageA := s.flash.imageA.writeN off data } }) ∧
    (s.chip.image = 0 → t = { s with mgmt := { s.mgmt with recovery := s.mgmt.recovery.writeN off data } })) ∧
  (∀ (svn : Half) (s : State), s.mailboxUp = true → s.flash.fuseSvn ≤ svn.toNat → s.chip.image ≠ 0 →
    exec (.mailboxImageCommit true svn) s = .next ({ s with flash := { s.flash with
      nextBoot := some (if s.chip.image = 1 ∨ (s.chip.image = 3 ∧ fld s.strapNat 14 2 ≠ 2) then .b else .a) } }.mailbox 5 0#32 [])) ∧
  (∀ (sigOk : Bool) (svn : Half) (s : State), s.mailboxUp = true → (sigOk = false ∨ svn.toNat < s.flash.fuseSvn) → s.chip.image ≠ 0 → ∃ st,
    exec (.mailboxImageCommit sigOk svn) s = .next ({ s with flash := { s.flash with log := s.flash.log ++ [LogEntry.mk 12 [4]] }, fresh := s.fresh + 1 }.mailbox 5 st [])) ∧
  (∀ (svn : Half) (s : State), s.mailboxUp = true → s.mayBoot = true → s.recoveryOpen .mailbox = true → s.flash.fuseSvn ≤ svn.toNat → ∃ t : State,
    exec (.mailboxImageCommit true svn) s = .next (t.mailbox 5 0#32 []) ∧ t.chip.image = 3 ∧ t.chip.svn = svn ∧ t = { s with chip := t.chip }) ∧
  (∀ (sigOk : Bool) (svn : Half) (s : State), s.mailboxUp = true → s.mayBoot = true → s.recoveryOpen .mailbox = true →
    (sigOk = false ∨ svn.toNat < s.flash.fuseSvn) → ∃ (t : State) (st : Word), exec (.mailboxImageCommit sigOk svn) s = .next (t.mailbox 5 st []) ∧ t.chip.image = 0 ∧
      t.chip.stage = 0 ∧ (t.chip.cause = 0x01#8 ∨ t.chip.cause = 0x02#8) ∧ ∀ p, t.recoveryOpen p = true) ∧
  (∀ s : State, s.mailboxUp = true → 1 ≤ s.chip.stage → ∃ t, exec .mailboxRestart s = .next t ∧ t.chip.image = 0 ∧ t.chip.stage = 0 ∧
    t.ctxs = State.reset.ctxs ∧ t.mem.data = [] ∧ t.flash = s.flash ∧ t.chip.strap = s.chip.strap ∧ t.inputs.sticky = s.inputs.sticky ∧ t.chip.safeHold = false) ∧
  (∀ s : State, s.mailboxUp = true → 1 ≤ s.chip.stage → s.flash.fuseSvn < s.chip.svn.toNat → s.flash.fuses.length < 64 →
    exec .mailboxAdvanceSvn s = .next ({ s with flash := { s.flash with fuses := s.flash.fuses ++ [s.chip.svn] } }.mailbox 7 0#32 [])) ∧
  (∀ s : State, s.mailboxUp = true → (s.chip.stage = 0 ∨ s.chip.svn.toNat ≤ s.flash.fuseSvn ∨ 64 ≤ s.flash.fuses.length) →
    exec .mailboxAdvanceSvn s = .next (s.mailbox 7 1#32 [])) ∧
  (∀ s : State, s.mailboxUp = true → s.chip.stage = 0 → exec .mailboxRestart s = .next (s.mailbox 6 1#32 [])) ∧
  (∀ (code : Nat) (st : Word) (bs : List Byte) (s : State), s.mailbox code st bs =
    { s with mgmt := { s.mgmt with command := BitVec.ofNat 32 code, status := st, buffer := bs }, out := s.out ++ [.mailbox st.toNat bs] })

/-- PERST_ASSERT on a port h: not enumerated, it sets the pin alone; enumerated while every other enumerated port is in reset, it is a module reset (no port enumerated, contexts as after reset, memory empty; flash, straps, sticky bits kept); enumerated while the other enumerated port is out of reset, it clears port h alone. PERST_RELEASE records the cables and the pin, and chooses the active port where that has not been done since the last module reset or power-on (R78); after an input trip the release of an asserted pin is noted, and with a live feed the module starts. A port that may enumerate does so with its link up and the set-up its enumeration gave, BAR4 included, and REFCLK present. A function-level reset of virtual function n resets context n; one of physical function 0 resets context 0 and clears VF Enable of its port. SRIOV_NUMVFS_WRITE sets the port; a context whose function changes is being reset then. REFCLK_LOSS takes both links down, sets its bit and leaves every context held; HOST_LINK_DOWN and HOST_LINK_UP set that link, and in every state REFCLK is present after HOST_LINK_UP. HOST_PATH_LOST_TIMEOUT, while some context, Off or not, is held, clears each port that is lost; while none is, it changes nothing. A COLLECTIVE that waited for a path may go on as a port changes, and what it then does is stated with COLLECTIVEs; flash and tiles are as before where none waits so. That REFCLK counts as back at HOST_LINK_UP, that the timeout acts on ports whose link is still down, and that the release of a PERST input is noted are log 60; the set-up and BAR4 of an enumeration are log 15, and when a context changes its function is log 47: the model's readings. -/
def Obligations.HostPortEvents : Prop :=
  (∀ (h : HPort) (s : State), (s.hostPort h).enumerated = false → exec (.perstAssert h) s = .next (s.setHostPort h { s.hostPort h with perst := true })) ∧
  (∀ (h : HPort) (s : State), (s.hostPort h).enumerated = true → ((s.hostPort (otherPort h)).enumerated = false ∨ (s.hostPort (otherPort h)).perst = true) →
    ∃ t, exec (.perstAssert h) s = .next t ∧ (t.hostPort h).perst = true ∧ t.hostA.enumerated = false ∧ t.hostB.enumerated = false ∧
    t.ctxs = State.reset.ctxs ∧ t.mem.data = [] ∧ t.ledger = {} ∧ t.flash = s.flash ∧ t.chip.strap = s.chip.strap ∧ (∀ i, i ≠ 6 → t.inputs.sticky.getLsbD i = s.inputs.sticky.getLsbD i) ∧
    t.chip.image = s.chip.image ∧ t.chip.safeHold = false ∧ t.out = s.out) ∧
  (∀ (h : HPort) (s : State), (s.hostPort h).enumerated = true → (s.hostPort (otherPort h)).enumerated = true → (s.hostPort (otherPort h)).perst = false →
    ∃ t, exec (.perstAssert h) s = .next t ∧ t.hostPort h = { cable := (s.hostPort h).cable, perst := true, active := (s.hostPort h).active } ∧
      t.hostPort (otherPort h) = s.hostPort (otherPort h) ∧ t.chip = s.chip ∧ (s.noHeld → t.flash = s.flash)) ∧
  (∀ (h : HPort) (a b : Bool) (s : State), s.inputs.tripHold = false ∨ (s.hostPort h).perst = false → ∃ t, exec (.perstRelease h a b) s = .next t ∧
    (t.hostPort h).perst = false ∧ t.hostA.cable = a ∧ t.hostB.cable = b ∧
    t = { s with hostA := t.hostA, hostB := t.hostB, chip := { s.chip with portsChosen := true } } ∧
    (s.chip.portsChosen = true → t.hostA.active = s.hostA.active ∧ t.hostB.active = s.hostB.active) ∧
    (s.chip.portsChosen = false → t.hostA.active = (!s.hostSplit || a) ∧ t.hostB.active = (!s.hostSplit || !a))) ∧
  (∀ (h : HPort) (a b : Bool) (s : State), s.inputs.tripHold = true → (s.hostPort h).perst = true → ∃ t, exec (.perstRelease h a b) s = .next t ∧
    (t.hostPort h).perst = false ∧ t.hostA.cable = a ∧ t.hostB.cable = b ∧ (s.feeds = 0 → t.inputs.tripHold = true ∧ t.inputs.tripPerst = true ∧ t.chip = { s.chip with portsChosen := true }) ∧
    (s.feeds ≠ 0 → t.inputs.tripHold = false ∧ t.inputs.switches = true ∧ t.ctxs = State.reset.ctxs ∧ t.chip.strap = s.chip.strap)) ∧
  (∀ (h : HPort) (u : LinkSetup) (s : State), s.mayEnumerate h = true → ∃ t, exec (.hostPortEnumerated ⟨h, u⟩) s = .next t ∧
    t.hostPort h = { s.hostPort h with enumerated := true, link := true, lost := false, setup := u } ∧ t.hostPort (otherPort h) = s.hostPort (otherPort h) ∧
    t.mem.barW = 2 ^ (30 + u.bar4.val) ∧ t.inputs = { s.inputs with refclkLost := false } ∧ t.chip = s.chip ∧ (s.noHeld → t.flash = s.flash ∧ t.tiles = s.tiles)) ∧
  (∀ (h : HPort) (u : LinkSetup) (s : State), s.mayEnumerate h = false → exec (.hostPortEnumerated ⟨h, u⟩) s = .next s) ∧
  (∀ (h : HPort) (n : CtxId) (s : State), (s.hostPort h).presents (.vf n) = true →
    ∃ t, exec (.functionLevelReset h (.vf n)) s = .next t ∧ (t.ctx n).state = .resetting ∧ t.hostA = s.hostA ∧ t.hostB = s.hostB ∧ t = s.resetCtx n) ∧
  (∀ (h : HPort) (s : State), (s.hostPort h).presents .pf = true → ∃ t, exec (.functionLevelReset h .pf) s = .next t ∧ (t.hostPort h).vfEnable = false ∧
    (t.ctx 0).state = .resetting) ∧
  (∀ (h : HPort) (en : Bool) (n : CtxId) (s : State), (s.hostPort h).presents .pf = true → ∃ t, exec (.sriovNumvfsWrite h en n) s = .next t ∧
    (t.hostPort h).vfEnable = en ∧ (t.hostPort h).numVfs = n.val ∧
    ∀ c : CtxId, t.funcOf c ≠ (s.ctx c).func → (t.ctx c).state = .resetting) ∧
  (∀ s : State, ∃ t, exec .refclkLoss s = .next t ∧ t.hostA.link = false ∧ t.hostB.link = false ∧ t.inputs.sticky.getLsbD 4 = true ∧ (s.noHeld → t.tiles = s.tiles ∧ t.flash = s.flash) ∧
    ∀ c : CtxId, (t.ctx c).linkHold = true) ∧
  (∀ (h : HPort) (s : State), ∃ t, exec (.hostLinkDown h) s = .next t ∧ (t.hostPort h).link = false ∧ t.chip = s.chip ∧ (s.noHeld → t.tiles = s.tiles ∧ t.flash = s.flash)) ∧
  (∀ (h : HPort) (s : State), ∃ t, exec (.hostLinkUp h) s = .next t ∧ t.inputs = { s.inputs with refclkLost := false } ∧
    ((s.hostPort h).enumerated = true → (s.hostPort h).lost = true → pdHost ∉ s.inputs.domainsOff → (t.hostPort h).link = true ∧ (t.hostPort h).lost = false) ∧
    t.chip = s.chip ∧ (s.noHeld → t.tiles = s.tiles ∧ t.flash = s.flash)) ∧
  (∀ s : State, (∀ x ∈ s.ctxs, x.2.linkHold = false) → exec .hostPathLostTimeout s = .next s) ∧
  (∀ s : State, (∃ x ∈ s.ctxs, x.2.linkHold = true) → ∃ t, exec .hostPathLostTimeout s = .next t ∧
    (s.hostA.lost = true → t.hostA.enumerated = false ∧ t.hostA.numVfs = 0) ∧ (s.hostB.lost = true → t.hostB.enumerated = false ∧ t.hostB.numVfs = 0) ∧ (s.noHeld → t.flash = s.flash))

/-- TILE_GATE on an idle running tile of a context gates it and changes nothing else; TILE_DOZE on such a tile without a program, with DOZE_IDLE not 0, puts it in Doze with its tile store held. DIE_PLL_STOP with PLL_STOP_EN stops the PLL of a die whose tiles are all in Doze or Off and none waking; DIE_PLL_LOCK with a waking tile locks it again. TILE_WAKE_DONE of a waking tile whose PLL is locked, and whose die has its rails, leaves it running with its store and its program as they were. -/
def Obligations.TileSleepStates : Prop :=
  (∀ (t : TileId) (s : State), (s.tile t).sleep = .running → s.tileIdle t = true → s.mayOff t = false →
    exec (.tileGate t) s = .next (s.setTile t { s.tile t with sleep := .gated })) ∧
  (∀ (t : TileId) (s : State), ((s.tile t).sleep = .running ∨ (s.tile t).sleep = .gated) → s.tileIdle t = true → (s.tile t).seq.owner = none →
    (∀ x ∈ (s.tile t).clusters, x.2.desc = false) → fld (s.reg rSleepCtl) 0 16 ≠ 0 → s.mayOff t = false →
    exec (.tileDoze t) s = .next (s.setTile t { s.tile t with sleep := .doze, clusters := [] })) ∧
  (∀ (d : DieId) (s : State), bitOf (s.reg rSleepCtl) 24 = true →
    (∀ t ∈ dieTiles d, (s.tile t).waking = false ∧ ((s.tile t).sleep = .doze ∨ (s.tile t).sleep = .off)) →
    exec (.diePllStop d) s = .next { s with pll := s.pll.set d pllStopped }) ∧
  (∀ (d : DieId) (s : State), (∃ t ∈ dieTiles d, (s.tile t).waking = true) → exec (.diePllLock d) s = .next { s with pll := s.pll.set d pllLocked }) ∧
  (∀ (t : TileId) (s : State), (s.tile t).sleep ≠ .running → (s.tile t).waking = true → s.clockOn (2 + t / 12) = true → s.dieRailOff (t / 12) = false →
    ∃ u, exec (.tileWakeDone t) s = .next u ∧ (u.tile t).sleep = .running ∧ (u.tile t).waking = false ∧ (u.tile t).store = (s.tile t).store ∧
      (u.tile t).seq = (s.tile t).seq ∧ (u.tile t).mx = (s.tile t).mx ∧ (u.tile t).vec = (s.tile t).vec ∧ (u.tile t).prep = (s.tile t).prep ∧
      u.ctxs = s.ctxs ∧ u.mem = s.mem)

/-- For every offset, size and state BAR0_BAD_ACCESS answers a next state that differs only in the global error count, one higher, and, for a read, in the data it returns: size bytes of all ones. No context changes. -/
def Obligations.NarrowOrUnalignedAccess : Prop :=
  (∀ (off size : Nat) (s : State), exec (.bar0BadAccess true off size) s = .next { s with chip := { s.chip with errors := s.chip.errors + 1 } }) ∧
  (∀ (off size : Nat) (s : State), exec (.bar0BadAccess false off size) s = .next { s with
    chip := { s.chip with errors := s.chip.errors + 1 }
    out := s.out ++ [.readData (List.replicate size 0xFF#8)] })

/-- Before stage 4 a write outside GLB and SEC by physical function 0 changes only the global error count, and a read returns all ones. In stage 4 a 64-bit write is the write of its low word and then of its high word; the low word of a 64-bit register that the function may write only waits, and one that it may not write changes nothing. HLT_PWR_CTL, HLT_THROTTLE_CTL and HLT_SLEEP_CTL store their writable bits and nothing else changes. Virtual function n reaches nothing beyond its 4 KiB page. STICKY_CAUSE_CLEAR by physical function 0 clears the written sticky bits of HLT_INPUT_STATUS and changes nothing but the inputs, and FAULT_N stays while a cause is present or held. In stage 4 a read of those HLT registers returns what they hold, with their reserved bits zero; GLB_STAGE reads as it stands in every stage and takes no write; reading CTX_STALE_DROP or the drop counts of OPX_DROP returns and clears them (access code RC) and changes nothing else; a word where the spec names no register reads a free value (log 52). -/
def Obligations.RegisterAccesses : Prop :=
  (∀ (off : Nat) (v : Word) (s : State), s.chip.stage ≠ 4 → earlyBlock off = false →
    exec (.registerWrite .pf off (.write32 v)) s = .next { s with chip := { s.chip with errors := s.chip.errors + 1 } } ∧
    exec (.registerWrite .pf off .read32) s = .next { s with
      chip := { s.chip with errors := s.chip.errors + 1 }
      out := s.out ++ [.readData (List.replicate 4 0xFF#8)] }) ∧
  (∀ (off : Nat) (lo hi : Word) (s : State), s.chip.stage = 4 → wide64 off = true → s.mayWrite .pf off = true → ∃ u,
    exec (.registerWrite .pf off (.write32 lo)) s = .next u ∧ u = { s with latches := s.latches.set off lo } ∧
    exec (.registerWrite .pf (off + 4) (.write32 hi)) u = exec (.registerWrite .pf off (.write64 (BitVec.ofNat 64 (lo.toNat + hi.toNat * 2 ^ 32)))) s) ∧
  (∀ (off : Nat) (lo : Word) (s : State), s.chip.stage = 4 → wide64 off = true → s.mayWrite .pf off = false → exec (.registerWrite .pf off (.write32 lo)) s = .next s) ∧
  (∀ (v : Word) (s : State), s.chip.stage = 4 →
    exec (.registerWrite .pf rPwrCtl (.write32 v)) s = .next { s with regs := s.regs.set rPwrCtl (dword (v.toNat &&& 0xFFFF)) } ∧
    exec (.registerWrite .pf rThrottleCtl (.write32 v)) s = .next { s with regs := s.regs.set rThrottleCtl (dword (v.toNat &&& 0x3FFFFF)) } ∧
    exec (.registerWrite .pf rSleepCtl (.write32 v)) s = .next { s with regs := s.regs.set rSleepCtl (dword (v.toNat &&& 0x3FFFFFF)) }) ∧
  (∀ (n : CtxId) (off : Nat) (a : RegAccess) (s : State), 0x1000 ≤ off → exec (.registerWrite (.vf n) off a) s = .next s) ∧
  (∀ (v : Word) (s : State), s.chip.stage = 4 → ∃ t, exec (.stickyCauseClear .pf v) s = .next t ∧ t = { s with inputs := t.inputs } ∧
    t.inputs.sticky = s.inputs.sticky &&& ~~~(v &&& 0xFF0#32) ∧
    t.inputs.faultN = (s.inputs.faultN && (t.faultPresent || t.faultHeld))) ∧
  (∀ (off : Nat) (s : State), s.chip.stage = 4 → (off = rPwrCtl ∨ off = rThrottleCtl ∨ off = rSleepCtl) →
    exec (.registerWrite .pf off .read32) s = .next { s with out := s.out ++ [.readData (leBytes 4 (s.reg off % 2 ^ 32))] }) ∧
  (∀ (v : Word) (s : State), exec (.registerWrite .pf 0x44 .read32) s = .next { s with out := s.out ++ [.readData (leBytes 4 (s.glbStage % 2 ^ 32))] } ∧
    exec (.registerWrite .pf 0x44 (.write32 v)) s = .next s) ∧
  (∀ (c : CtxId) (s : State), s.chip.stage = 4 → ∃ t, exec (.registerWrite .pf (ctxPage c + 0x030) .read32) s = .next t ∧
    t.out = s.out ++ [.readData (leBytes 4 (s.ctx c).staleDrop.toNat)] ∧ (t.ctx c).staleDrop = 0#32 ∧ (∀ k, k ≠ c.val → t.ctx k = s.ctx k) ∧
    t = { s with ctxs := t.ctxs, out := t.out }) ∧
  (∀ s : State, s.chip.stage = 4 → exec (.registerWrite .pf 0x800008 .read32) s = .next { s with
    fabric := { s.fabric with dropTag := 0, dropHops := 0 }
    out := s.out ++ [.readData (leBytes 4 ((s.fabric.dropTag * 2 ^ 16 + s.fabric.dropHops) % 2 ^ 32))] }) ∧
  (∀ (off : Nat) (s : State), s.chip.stage = 4 → (s.bar0Word off).2 = none → ∃ v,
    exec (.registerWrite .pf off .read32) s = .next { s with fresh := s.fresh + 1, out := s.out ++ [.readData (leBytes 4 v)] })

/-- By physical function 0 in stage 4: if the new mask would share a tile with another context, or the context is Active, Faulted or Stopping, the whole value is discarded and only MASK_ERR of the context is set. Otherwise the context has the new mask, every tile that left it has an empty store, default array and no program, and is Off (powered, but cleared, where OFF_EN is 0), and every tile that did not leave is as before. A virtual function changes nothing. -/
def Obligations.TileMaskWrite : Prop :=
  (∀ (c : CtxId) (hi : Word) (s : State), s.chip.stage = 4 →
    let v : TileMask := BitVec.ofNat 96 ((s.ctx c).maskLatch.toNat + hi.toNat * 2 ^ 64)
    let busy := (s.ctx c).state = .active ∨ (s.ctx c).state = .faulted ∨ (s.ctx c).state = .stopping
    let clash := ∃ k : CtxId, k ≠ c ∧ (s.ctx k).mask &&& v ≠ 0#96
    ((busy ∨ clash) → exec (.ctxTileMaskApply .pf c hi) s = .next (s.setCtx c { s.ctx c with maskErr := true })) ∧
    (¬busy → ¬clash → ∃ t, exec (.ctxTileMaskApply .pf c hi) s = .next t ∧ t.ctxs = s.ctxs.set c { s.ctx c with mask := v } ∧
      (∀ k : TileId, (s.ctx c).mask.getLsbD k = true → v.getLsbD k = false →
        (t.tile k).store = [] ∧ (t.tile k).mx.acc = [] ∧ (t.tile k).mx.active = {} ∧ (t.tile k).seq = {} ∧
        (t.tile k).sleep = (if bitOf (s.reg rSleepCtl) 25 = true then .off else .gated)) ∧
      (∀ k : TileId, ¬((s.ctx c).mask.getLsbD k = true ∧ v.getLsbD k = false) → t.tile k = s.tile k))) ∧
  (∀ (n c : CtxId) (hi : Word) (s : State), s.chip.stage = 4 → exec (.ctxTileMaskApply (.vf n) c hi) s = .next s)

/-- In stage 4, for the function that may write: ENABLE of an Off context whose RUN is 0 makes it Idle; clearing ENABLE of an enabled tenant starts its reset. RUN set in Idle makes it Active where the ring configuration is valid, no queue or trigger table is set up and no doorbell value is stored, and with an invalid ring configuration makes it Faulted with cause RING_CFG, RUN cleared and the invalid ring in CTX_FAULT_INFO. RUN cleared in Active gives Stopping while a fetched descriptor is left, else Idle. RESUME in Faulted with no held record and no stored value clears CAUSE and CTX_FAULT_INFO and gives Active where RUN is 1. RESET starts a reset. In none of these does another context change its state. That RESUME clears CTX_FAULT_INFO with CAUSE is the model's reading (log 47). -/
def Obligations.ContextLife : Prop :=
  (∀ (c : CtxId) (s : State), s.chip.stage = 4 → (s.ctx c).state = .off → (s.ctx c).run = false → ∃ t, exec (.ctxEnable .pf c) s = .next t ∧
    (t.ctx c).state = .idle ∧ (t.ctx c).enable = true ∧ (∀ k, k ≠ c.val → t.ctx k = s.ctx k) ∧ t = { s with ctxs := t.ctxs }) ∧
  (∀ (c : CtxId) (s : State), s.chip.stage = 4 → c.val ≠ 0 → (s.ctx c).enable = true → ∃ t, exec (.ctxDisable .pf c) s = .next t ∧
    (t.ctx c).state = .resetting ∧ (t.ctx c).enable = false ∧ ∀ k, k ≠ c.val → (t.ctx k).state = (s.ctx k).state) ∧
  (∀ (f : Func) (c : CtxId) (s : State), s.chip.stage = 4 → s.holds f c = true → (s.ctx c).state = .idle → s.badRing c = none →
    s.reg (rQueueBase c) = 0 → s.reg (rTrigCfg c) = 0 → (∀ q, ((s.ctx c).rings.get {} q).stored = none) → ∃ t, exec (.ctxRunSet f c) s = .next t ∧
    (t.ctx c).state = .active ∧ (t.ctx c).run = true ∧ (∀ k, k ≠ c.val → t.ctx k = s.ctx k) ∧ t = { s with ctxs := t.ctxs }) ∧
  (∀ (f : Func) (c : CtxId) (q : Nat) (s : State), s.chip.stage = 4 → s.holds f c = true → (s.ctx c).state = .idle → s.badRing c = some q → q ≤ 16 →
    ∃ t, exec (.ctxRunSet f c) s = .next t ∧ (t.ctx c).state = .faulted ∧ (t.ctx c).cause = 5 ∧ (t.ctx c).run = false ∧
    (t.ctx c).faultInfo.toNat = q * 2 ^ 32 ∧ ∀ k, k ≠ c.val → t.ctx k = s.ctx k) ∧
  (∀ (f : Func) (c : CtxId) (s : State), s.chip.stage = 4 → s.holds f c = true → (s.ctx c).state = .active → ∃ t, exec (.ctxRunClear f c) s = .next t ∧
    (t.ctx c).run = false ∧ (t.ctx c).state = (if (s.ctx c).descs = [] then .idle else .stopping) ∧ ∀ k, k ≠ c.val → t.ctx k = s.ctx k) ∧
  (∀ (f : Func) (c : CtxId) (s : State), s.chip.stage = 4 → s.holds f c = true → (s.ctx c).state = .faulted → (s.ctx c).run = true → (s.ctx c).held = [] →
    (∀ q, ((s.ctx c).rings.get {} q).stored = none) → ∃ t, exec (.ctxResume f c) s = .next t ∧ (t.ctx c).state = .active ∧ (t.ctx c).cause = 0 ∧
    (t.ctx c).faultInfo = 0#64 ∧ (t.ctx c).descs = (s.ctx c).descs ∧ ∀ k, k ≠ c.val → t.ctx k = s.ctx k) ∧
  (∀ (f : Func) (c : CtxId) (s : State), s.chip.stage = 4 → s.holds f c = true → ∃ t, exec (.ctxReset f c) s = .next t ∧ (t.ctx c).state = .resetting ∧
    ∀ k, k ≠ c.val → (t.ctx k).state = (s.ctx k).state)

/-- CTX_RESET_DONE of a context that is Resetting answers a state in which the context is Idle if ENABLE is 1, else Off, holds no descriptor and no record, has EPOCH 1 and its old tile mask and ENABLE; its tenant-written registers read their reset values; CTX_STALE_DROP, CTX_FAULT_INFO and the prefetch counts are as they were; each tile of its mask has an empty store, no accumulator value, the stationary set of reset and empty prep memories; its function is the one the ports give it; and vector 1 is pending or was the last message sent. CTX_INTEG is 0 and the fetched counts stay. Its objects are gone. Every descriptor that was left, started or not, has a record with ABORTED, or with the status it had ended with, in the completion ring where that is usable (stated where nothing was held, no block moves and the ring has room; R107); where it is not, no record is written and CTX_CQ_PRODUCED stays. No other context changes but its plan items on those objects, and every tile outside the mask is as before. That the registers R107 does not name are kept, CTX_STALE_DROP, CTX_FAULT_INFO, CTX_CQ_PRODUCED and the prefetch counts, is the model's reading (log 47). -/
def Obligations.ContextResetCompletes : Prop :=
  ∀ (c : CtxId) (s : State), (s.ctx c).state = .resetting → ∃ t, exec (.ctxResetDone c) s = .next t ∧
    (t.ctx c).state = (if (s.ctx c).enable = true then .idle else .off) ∧ (t.ctx c).descs = [] ∧ (t.ctx c).held = [] ∧ (t.ctx c).epoch = 1#16 ∧
    (t.ctx c).mask = (s.ctx c).mask ∧ (t.ctx c).enable = (s.ctx c).enable ∧ (t.ctx c).func = s.funcOf c ∧
    (∀ p, p < 0x1000 → ownerReg (ctxPage c + p) = false → t.reg (ctxPage c + p) = ctxReset p) ∧
    (t.ctx c).staleDrop = (s.ctx c).staleDrop ∧ (t.ctx c).faultInfo = (s.ctx c).faultInfo ∧ (t.ctx c).pfLate = (s.ctx c).pfLate ∧ (t.ctx c).pfSkipped = (s.ctx c).pfSkipped ∧
    (∀ k : TileId, (s.ctx c).mask.getLsbD k = true → (t.tile k).store = [] ∧ (t.tile k).mx.acc = [] ∧ (t.tile k).mx.active = {} ∧
      ∀ cl, (t.cluster k cl).mem = [] ∧ ∀ i, (t.core k cl i).priv = []) ∧
    (t.ctx c).integ = 0#64 ∧ (∀ q, ((t.ctx c).rings.get {} q).fetched = ((s.ctx c).rings.get {} q).fetched) ∧ (∀ o ∈ t.mem.objs, o.2.ctx ≠ c.val) ∧
    (∀ k, k ≠ c.val → ∃ j, t.ctx k = { s.ctx k with pfJobs := j }) ∧
    (let rs := (s.ctx c).descs.map (fun d => s.recOf d (d.ending.getD { status := stAborted }))
     (s.cqReady c = false → (t.ctx c).produced = (s.ctx c).produced ∧ t.host = s.host) ∧
     ((s.ctx c).held = [] → s.cqTakes c rs.length → (t.ctx c).produced = (s.ctx c).produced + rs.length ∧ s.RecordsIn t c rs)) ∧
    (∀ k : TileId, (s.ctx c).mask.getLsbD k = false → t.tile k = s.tile k) ∧
    (1 ∈ (t.ctx c).msiPending ∨ ∃ h f v, t.out.getLast? = some (.msix h f v) ∧ v % 32 = 1)

/-- In stage 4, for the function that holds the context: a write to the configuration of an enabled ring that does not disable it in Idle changes nothing, for a submission ring and for the completion ring. Enabling a submission ring stores its writable bits, sets its published and fetched counts to 0 and keeps a doorbell value stored for it. Enabling the completion ring with no record held sets its produced and consumed counts to 0. Nothing else changes but counts that other doorbells noted of that ring. The write that disables a ring in Idle stores its writable bits and forgets a stored doorbell value, its counts staying until it is enabled again; that of the completion ring only stores its bits (R86). -/
def Obligations.RingConfiguration : Prop :=
  (∀ (f : Func) (c : CtxId) (q : RingId) (v : Word) (s : State), s.chip.stage = 4 → s.holds f c = true → s.ringOn c q = true →
    ((s.ctx c).state ≠ .idle ∨ v.getLsbD 31 = true) → exec (.ctxRingCfgWrite f c q v) s = .next s) ∧
  (∀ (f : Func) (c : CtxId) (q : RingId) (v : Word) (s : State), s.chip.stage = 4 → s.holds f c = true → s.ringOn c q = false → v.getLsbD 31 = true →
    ∃ t, exec (.ctxRingCfgWrite f c q v) s = .next t ∧ t.ringOn c q = true ∧ t.reg (rRingCfg c q) = v.toNat &&& 0x8000003F ∧
      (t.ctx c).rings.get {} q = { stored := ((s.ctx c).rings.get {} q).stored } ∧ (t.ctx c).descs = (s.ctx c).descs ∧ t = { s with regs := t.regs, ctxs := t.ctxs } ∧ ∀ k, k ≠ c.val → t.ctx k = s.ctx k) ∧
  (∀ (f : Func) (c : CtxId) (v : Word) (s : State), s.chip.stage = 4 → s.holds f c = true → s.cqOn c = true →
    ((s.ctx c).state ≠ .idle ∨ v.getLsbD 15 = true) → exec (.ctxCqCfgWrite f c v) s = .next s) ∧
  (∀ (f : Func) (c : CtxId) (q : RingId) (v : Word) (s : State), s.chip.stage = 4 → s.holds f c = true → s.ringOn c q = true → (s.ctx c).state = .idle →
    v.getLsbD 31 = false → ∃ t, exec (.ctxRingCfgWrite f c q v) s = .next t ∧ t.ringOn c q = false ∧ t.reg (rRingCfg c q) = v.toNat &&& 0x8000003F ∧
      (t.ctx c).rings.get {} q = { (s.ctx c).rings.get {} q with stored := none, pubs := [] } ∧ (∀ k, k ≠ q.val → (t.ctx c).rings.get {} k = (s.ctx c).rings.get {} k) ∧
      t = { s with regs := t.regs, ctxs := s.ctxs.set c { s.ctx c with rings := (t.ctx c).rings } }) ∧
  (∀ (f : Func) (c : CtxId) (v : Word) (s : State), s.chip.stage = 4 → s.holds f c = true → s.cqOn c = true → (s.ctx c).state = .idle → v.getLsbD 15 = false →
    exec (.ctxCqCfgWrite f c v) s = .next { s with regs := s.regs.set (rCqCfg c) (dword (v.toNat &&& 0xFFFF9F0F)) }) ∧
  (∀ (f : Func) (c : CtxId) (v : Word) (s : State), s.chip.stage = 4 → s.holds f c = true → s.cqOn c = false → v.getLsbD 15 = true → (s.ctx c).held = [] →
    ∃ t, exec (.ctxCqCfgWrite f c v) s = .next t ∧ t.cqOn c = true ∧ (t.ctx c).produced = 0 ∧ (t.ctx c).consumed = 0 ∧
      t = { s with regs := t.regs, ctxs := t.ctxs } ∧ ∀ k, k ≠ c.val → t.ctx k = s.ctx k)

/-- In stage 4, for the function that holds the context and a host that changed nothing: RING_DB in Off, Idle or Resetting, or in Active on a ring that is not enabled, changes only the global error count; in Faulted or Stopping it stores the value, replacing an earlier one; in Active on an enabled ring with n = (v - last) mod 2^32 not above the free slots it publishes n descriptors and fetches none; above them it publishes none and faults the context with DOORBELL, the ring and the value in CTX_FAULT_INFO. CQ_DB with at most the records not consumed consumes them; where none is held it does only that, and records held for want of room go out in order once the ring takes them all; with more than those not consumed it faults the context, ring 16. -/
def Obligations.DoorbellWrites : Prop :=
  (∀ (f : Func) (c : CtxId) (q : RingId) (v : Word) (s : State), s.chip.stage = 4 → s.holds f c = true →
    let h : HostUpdate := { stores := [], deny := s.host.deny, poison := s.host.poison }
    let r := (s.ctx c).rings.get {} q
    let n := (v - BitVec.ofNat 32 r.published).toNat
    ((s.ctx c).state = .off ∨ (s.ctx c).state = .idle ∨ (s.ctx c).state = .resetting ∨ ((s.ctx c).state = .active ∧ s.ringOn c q = false) →
      exec (.ringDb f c q v h) s = .next { s with chip := { s.chip with errors := s.chip.errors + 1 } }) ∧
    ((s.ctx c).state = .faulted ∨ (s.ctx c).state = .stopping → ∃ t, exec (.ringDb f c q v h) s = .next t ∧ t = { s with ctxs := t.ctxs } ∧
      (t.ctx c).rings.get {} q = { r with stored := some v } ∧ (t.ctx c).state = (s.ctx c).state) ∧
    ((s.ctx c).state = .active → s.ringOn c q = true → n ≤ s.ringSize c q - (r.published - r.fetched) → r.published - r.fetched ≤ s.ringSize c q →
      ∃ t, exec (.ringDb f c q v h) s = .next t ∧ t = { s with ctxs := t.ctxs } ∧
      ((t.ctx c).rings.get {} q).published = r.published + n ∧ ((t.ctx c).rings.get {} q).fetched = r.fetched ∧
      (t.ctx c).descs = (s.ctx c).descs ∧ (t.ctx c).state = .active) ∧
    ((s.ctx c).state = .active → s.ringOn c q = true → s.ringSize c q < r.published - r.fetched + n → 0 < n → ∃ t, exec (.ringDb f c q v h) s = .next t ∧
      (t.ctx c).state = .faulted ∧ (t.ctx c).cause = 2 ∧ (t.ctx c).faultInfo.toNat = q.val * 2 ^ 32 + v.toNat ∧ (t.ctx c).rings = (s.ctx c).rings)) ∧
  (∀ (f : Func) (c : CtxId) (v : Word) (s : State), s.chip.stage = 4 → s.holds f c = true → (s.ctx c).state ≠ .off → (s.ctx c).state ≠ .resetting →
    let n := (v - BitVec.ofNat 32 (s.ctx c).consumed).toNat
    (n ≤ (s.ctx c).produced - (s.ctx c).consumed → (s.ctx c).held = [] → ∃ t, exec (.cqDb f c v) s = .next t ∧
      (t.ctx c).consumed = (s.ctx c).consumed + n ∧ t = { s with ctxs := t.ctxs } ∧ (t.ctx c).state = (s.ctx c).state) ∧
    (n ≤ (s.ctx c).produced - (s.ctx c).consumed → (∀ r ∈ (s.ctx c).held, r.bytes.length = 32) →
      (s.setCtx c { s.ctx c with consumed := (s.ctx c).consumed + n }).cqTakes c (s.ctx c).held.length → ∃ t, exec (.cqDb f c v) s = .next t ∧
      (t.ctx c).consumed = (s.ctx c).consumed + n ∧ (t.ctx c).held = [] ∧ (t.ctx c).produced = (s.ctx c).produced + (s.ctx c).held.length ∧
      s.RecordsIn t c (s.ctx c).held ∧ t = { s with ctxs := t.ctxs, host := t.host, out := t.out } ∧ (t.ctx c).state = (s.ctx c).state) ∧
    ((s.ctx c).produced - (s.ctx c).consumed < n → (s.ctx c).state ≠ .faulted → ∃ t, exec (.cqDb f c v) s = .next t ∧ (t.ctx c).state = .faulted ∧
      (t.ctx c).cause = 2 ∧ (t.ctx c).faultInfo.toNat = 16 * 2 ^ 32 + v.toNat ∧ (t.ctx c).consumed = (s.ctx c).consumed))

/-- The ring served next is one that may be fetched from, of the highest PRIO there is, and of those the first from where the round-robin of that PRIO stands (log 94). DESCRIPTOR_FETCH of the context that ring belongs to appends its next published descriptors in order, as many as asked, at most 16, with their ring, submit position and bytes, not started; of another context it changes nothing. A read that the host denies or poisons faults the context with RING_READ and that address, after the descriptors before it. DESCRIPTOR_COMPLETE of a descriptor whose work has ended removes it; while the completion ring takes no record its record is held, with its TAG, ring, status, SECONDARY and RESULT; where the ring takes it the 32 bytes stand at the produced count modulo the size, with PHASE and EPOCH, CTX_CQ_PRODUCED is one higher, and the completion vector is raised for IRQ or once COAL_COUNT records have been counted, else the count goes up. COALESCE_TIMEOUT with a record counted and COAL_TIME not 0 sets the count to 0 and raises the completion vector. DESCRIPTOR_TIMEOUT ends a started COPY whose host transfer waits with TIMEOUT. -/
def Obligations.FetchAndCompletion : Prop :=
  (∀ (prio k : Nat) (s : State), s.nextRing = some (prio, k) → s.mayFetch (k / 16) = true ∧ s.fetchable (k / 16) (k % 16) = true ∧ prio = s.ringPrio (k / 16) (k % 16) ∧
    ∀ (c : CtxId) (q : RingId), s.mayFetch c = true → s.fetchable c q = true → s.ringPrio c q ≤ prio ∧
      (s.ringPrio c q = prio → (k + 1024 - s.nextFetch.get 0 prio) % 1024 ≤ (16 * c + q + 1024 - s.nextFetch.get 0 prio) % 1024)) ∧
  (∀ (c : CtxId) (n : Nat) (s : State), (∀ x, s.nextRing = some x → x.2 / 16 ≠ c.val) → exec (.descriptorFetch c n) s = .next s) ∧
  (∀ (c : CtxId) (n prio k : Nat) (s : State), s.nextRing = some (prio, k) → k / 16 = c.val →
    let q := k % 16
    let r := (s.ctx c).rings.get {} q
    let m := min (min n 16) (r.published - r.fetched)
    let a := fun (i : Nat) => s.reg (rRingBase c q) + 64 * ((r.fetched + i) % s.ringSize c q)
    let g := fun (i : Nat) => s.hostRead (s.ctx c).func (a i) 64
    ((∀ i, i < m → (g i).stop = none) → ∃ t ds, exec (.descriptorFetch c n) s = .next t ∧ (t.ctx c).descs = (s.ctx c).descs ++ ds ∧ ds.length = m ∧
      (∀ i d, ds[i]? = some d → d.ring = q ∧ d.pos = r.fetched + i ∧ d.bytes = BitVec.ofNat 512 (leNat (g i).data) ∧ d.start = none ∧ d.ending = none) ∧
      (t.ctx c).rings.get {} q = { (t.ctx c).rings.get {} q with published := r.published, fetched := r.fetched + m, stored := r.stored } ∧ (t.ctx c).state = .active ∧
      t = { s with ctxs := t.ctxs, nextFetch := s.nextFetch.set prio ((k + 1) % 1024) } ∧ ∀ j, j ≠ c.val → t.ctx j = s.ctx j) ∧
    (∀ j, j < m → (∀ i, i < j → (g i).stop = none) → (g j).stop.isSome = true → ∃ t ds, exec (.descriptorFetch c n) s = .next t ∧
      (t.ctx c).descs = (s.ctx c).descs ++ ds ∧ ds.length = j ∧ ((t.ctx c).rings.get {} q).fetched = r.fetched + j ∧ (t.ctx c).state = .faulted ∧
      (t.ctx c).cause = 3 ∧ (t.ctx c).faultInfo = dword (a j + (g j).data.length) ∧ t.mem = s.mem ∧ t.tiles = s.tiles ∧ t.host = s.host)) ∧
  (∀ (c : CtxId) (q : RingId) (p : Word) (d : Desc) (e : Ending) (s : State), s.desc? c q p = some d → d.ending = some e → (s.ctx c).state = .active →
    (s.ctx c).strict = false → e.status = stOk → (s.ctx c).held = [] → (s.ctx c).mile.commit = none → (s.ctx c).pair = none →
    (∀ y ∈ (s.ctx c).descs, y.work = .idle ∨ ∃ r, y.work = .exec r) → ∃ t, exec (.descriptorComplete c q p) s = .next t ∧ (t.ctx c).find d.ring d.pos = none ∧
      (s.cqReady c = false → (t.ctx c).held = [s.recOf d e] ∧ (t.ctx c).produced = (s.ctx c).produced ∧ t = { s with ctxs := t.ctxs }) ∧
      (s.cqTakes c 1 → (t.ctx c).held = [] ∧ (t.ctx c).produced = (s.ctx c).produced + 1 ∧ s.RecordsIn t c [s.recOf d e] ∧
        t = { s with ctxs := t.ctxs, host := t.host, out := t.out } ∧
        (if d.irq = true ∨ atLeast1 (fld (s.reg (rCqCfg c)) 24 8) ≤ (s.ctx c).coalN + 1 then (t.ctx c).coalN = 0 ∧ s.Raised t c (fld (s.reg (rCqCfg c)) 8 5)
         else (t.ctx c).coalN = (s.ctx c).coalN + 1 ∧ (t.ctx c).msiPending = (s.ctx c).msiPending))) ∧
  (∀ (d : Desc) (e : Ending) (s : State), (s.recOf d e).bytes.length = 32 ∧ (s.recOf d e).bytes.take 20 =
    leBytes 8 d.tag ++ leBytes 4 d.pos ++ [byte d.ring, e.status] ++ leBytes 2 e.secondary.toNat ++ leBytes 2 e.unit.toNat ++ leBytes 2 0 ∧
    (s.recOf d e).bytes.drop 24 = leBytes 8 e.result.toNat) ∧
  (∀ (c : CtxId) (s : State), 0 < (s.ctx c).coalN → fld (s.reg (rCqCfg c)) 16 8 ≠ 0 → exec (.coalesceTimeout c) s =
    .next ((s.setCtx c { s.ctx c with coalN := 0 }).raiseVec c (fld (s.reg (rCqCfg c)) 8 5))) ∧
  (∀ (c : CtxId) (q : RingId) (p : Word) (d : Desc) (s : State), s.desc? c q p = some d → d.opcode = 2 → d.start.isSome = true → d.ending = none → d.work = .hostWait →
    exec (.descriptorTimeout c q p) s = .next (s.endDesc c d.ring d.pos { status := stTimeout }))

/-- For every descriptor that may start and whose opcode is 0x00 or 0x11 to 0xFF, DESCRIPTOR_UNDEFINED_OPCODE answers a state that differs only in the descriptor, which has its start order and has ended with FORMAT, and in the module's count of starts. DESCRIPTOR_COMPLETE then writes its record (R91). -/
def Obligations.UndefinedOpcodeCompletesWithFormat : Prop :=
  ∀ (c : CtxId) (q : RingId) (p : Word) (d : Desc) (s : State), s.desc? c q p = some d → s.mayStart c d = true → (d.opcode = 0 ∨ 0x11 ≤ d.opcode) →
    ∃ t, exec (.descriptorUndefinedOpcode c q p) s = .next t ∧ t.Ended c d { status := 0x03#8, secondary := 0x8000#16 } ∧
      t = { s with ctxs := t.ctxs, nextStart := s.nextStart + 1 } ∧
      (∀ k, k ≠ c.val → t.ctx k = s.ctx k) ∧ (∀ r n, ¬(r = d.ring ∧ n = d.pos) → (t.ctx c).find r n = (s.ctx c).find r n)

/-- A FENCE that passes its checks ends with OK if every descriptor of its rings that was published before it has completed, and otherwise stays unfinished. A COPY that passes its checks, whose source reads whole and whose destination takes the write, ends with OK and RESULT = SIZE in the state that the write of those bytes leaves; between device and host memory the bytes that both ends share by a window and a slow-tier region are free (R97). A COPY that fails a check ends with that status and changes nothing else but the count of starts. -/
def Obligations.FenceAndCopy : Prop :=
  (∀ (c : CtxId) (q : RingId) (p : Word) (d : Desc) (s : State), d.opcode = 1 → s.Passes c q p d (fun _ _ => { reserved := [(18, 46)] }) →
    (∀ y ∈ (s.ctx c).descs, y.ring = d.ring ∧ y.pos = d.pos ∨ ∀ m u, y.work ≠ .fence m u) →
    ∃ t, exec (.fence c q p) s = .next t ∧ t = { s with ctxs := t.ctxs, nextStart := s.nextStart + 1 } ∧
      ∃ y, (t.ctx c).find d.ring d.pos = some y ∧ y.start = some s.nextStart ∧
        (y.ending = if (t.ctx c).fenceDone (d.num 16 2 ||| 2 ^ d.ring) d.before = true then some { status := stOk } else none)) ∧
  (∀ (c : CtxId) (q : RingId) (p : Word) (d : Desc) (s s2 : State), d.opcode = 2 → s.Passes c q p d (copyChk c) →
    let s1 := (s.beginDesc c d).touchRefs c [d.num 16 8, d.num 24 8]
    let g := s1.readTarget c (s1.resolve c (d.num 16 8)) (d.num 32 8)
    let a := s1.resolve c (d.num 16 8)
    let b := s1.resolve c (d.num 24 8)
    g.stop = none → (if a.isHost = b.isHost then s1.writeTarget c b g.data
      else { s1 with fresh := s1.fresh + 1 }.writeTarget c b (s1.copyBytes a b g.data)) = (s2, none) →
    exec (.copy c q p) s = .next (s2.endDesc c d.ring d.pos { status := stOk, result := BitVec.ofNat 64 (d.num 32 8) })) ∧
  (∀ (c : CtxId) (q : RingId) (p : Word) (d : Desc) (e : Ending) (s : State), d.opcode = 2 → s.Fails c q p d (copyChk c) e →
    ∃ t, exec (.copy c q p) s = .next t ∧ t.Ended c d e ∧ t = { s with ctxs := t.ctxs, nextStart := s.nextStart + 1 } ∧ ∀ k, k ≠ c.val → t.ctx k = s.ctx k)

/-- POWER_TICK with compute power C above 0 sets m to floor(m * (T - P + C) / C), limited to m + 4, to 64 and from below to the floor, where T is 98 % of the effective cap or 95 % if the 100 ms average is above 99 % of it; while a clamp holds m does not rise. PEAK_CLAMP lowers m by 8, AVERAGE_CLAMP and THROTTLE_ASSERT set it to RATIO, none below the floor, and THROTTLE_ASSERT also lowers the cap in force to the throttle cap; CLAMP_RELEASE ends one hold; THROTTLE_RELEASE changes only the pin; FLOW_LOW sets FLOW_LOW and raises vector 1 of context 0. Nothing else changes but, at a tick, the cap in force, the readings and module counters, and, wherever m or the pin changes, module counters 1 to 3, which go on by the microseconds since they last did so, each while THROTTLE_N is asserted, m is below 64 or a die is held (R432). That m is the floor where RATIO is below it is the model's reading (log 50). -/
def Obligations.PowerManager : Prop :=
  (∀ (x : PowerSample) (s : State), x.c ≠ 0 → ∃ t, exec (.powerTick x) s = .next t ∧ t = { s.accrue.countMod 0 x.p with power := t.power } ∧
    (let cap := s.effCap x.inlet
     let pct := if 99 * cap < 100 * x.avg100 then 95 else 98
     let want := (s.power.m * (pct * cap + 100 * x.c) - s.power.m * (100 * x.p)) / (100 * x.c)
     let m := max (min want (min (s.power.m + 4) 64)) s.mFloor
     t.power.m = (if s.power.peakHold = true ∨ s.power.avgHold = true then min m s.power.m else m)) ∧
    t.power.cap = s.effCap x.inlet ∧ t.power.power = x.p ∧ t.power.inlet = x.inlet ∧ t.power.outlet = x.outlet ∧ t.power.inletHigh = decide (45 < x.inlet) ∧
    t.power.peakHold = s.power.peakHold ∧ t.power.avgHold = s.power.avgHold) ∧
  (∀ s : State, let m := max (s.power.m - 8) s.mFloor
    exec .peakClamp s = .next { s.accrue with power := { s.power with m := m, peakHold := true, peakHit := true, capped := decide (m < 64) } }) ∧
  (∀ s : State, let m := max s.ratio s.mFloor
    exec .averageClamp s = .next { s.accrue with power := { s.power with m := m, avgHold := true, capped := decide (m < 64) } } ∧
    exec .throttleAssert s = .next { s.accrue with
      power := { s.power with m := m, cap := min s.power.cap s.throttleCap, capped := decide (m < 64) }
      inputs := { s.inputs with throttle := true } }) ∧
  (∀ s : State, exec (.clampRelease true) s = .next { s with power := { s.power with avgHold := false } } ∧
    exec (.clampRelease false) s = .next { s with power := { s.power with peakHold := false } } ∧
    exec .throttleRelease s = .next { s.accrue with inputs := { s.inputs with throttle := false } }) ∧
  (∀ s : State, let n := s.time.toNat / 1000 - s.pmcTime.toNat / 1000
    s.accrue = { s with pmcMod := s.accrue.pmcMod, pmcModOvf := s.accrue.pmcModOvf, pmcTime := s.accrue.pmcTime } ∧
    (∀ i, i = 0 ∨ 4 ≤ i → s.accrue.pmcMod.get 0#64 i = s.pmcMod.get 0#64 i) ∧
    (∀ i, 1 ≤ i → i ≤ 3 → (s.pmcMod.get 0#64 i).toNat + n < 2 ^ 48 → (s.accrue.pmcMod.get 0#64 i).toNat = (s.pmcMod.get 0#64 i).toNat +
      (if (i = 1 ∧ s.inputs.throttle = true) ∨ (i = 2 ∧ s.power.m < 64) ∨ (i = 3 ∧ s.power.therm = true) then n else 0))) ∧
  (∀ s : State, ∃ t, exec .flowLow s = .next t ∧ t = { s with power := { s.power with flowLow := true }, ctxs := t.ctxs, out := t.out } ∧
    (1 ∈ (t.ctx 0).msiPending ∨ ∃ h f, t.out = s.out ++ [.msix h f 1]))

/-- PLAN_24H, REPLAN written by physical function 0 in stage 4, and PATH_MONITOR_READ with a slack below 20 ps each answer a state with the next plan version, the trigger 1, 6 or 2, a history of at most 1,024 plans that ends with this one (its version, trigger, offsets, ceilings and refresh modes), for each die a voltage offset of 0 to 50 mV in steps of 5, and memory and ledger unchanged. PATH_MONITOR_READ with no slack below 20 ps only adds a log entry. A virtual function's REPLAN changes nothing. -/
def Obligations.MarginPlans : Prop :=
  (∀ s : State, ∃ t, exec .plan24h s = .next t ∧ s.Planned t 1#8) ∧
  (∀ s : State, s.chip.stage = 4 → ∃ t, exec (.hltReplanWrite .pf) s = .next t ∧ s.Planned t 6#8) ∧
  (∀ (n : CtxId) (s : State), exec (.hltReplanWrite (.vf n)) s = .next s) ∧
  (∀ (l : List (DieId × Int)) (s : State), (∃ x ∈ l, x.2 < 20) → ∃ t, exec (.pathMonitorRead l) s = .next t ∧ s.Planned t 2#8) ∧
  (∀ (l : List (DieId × Int)) (s : State), (∀ x ∈ l, 20 ≤ x.2) → ∃ t e, exec (.pathMonitorRead l) s = .next t ∧ t = { s with flash := { s.flash with log := s.flash.log ++ [e] } })

/-- SELFTEST_ROUND in stage 4 with self-test on makes a slice pending on every unfenced tile without one (behind a slice that runs, one for after it) and changes no other part of a tile. A pending slice of an unfenced tile that is free, on a die with power, starts if fewer than 4 run, none on its die; a sleeping tile wakes first, and a tile in no mask starts with a cleared store. A slice that passes lets a yielded program go on; with no EXEC the tile of a context keeps everything, and one in no mask is Off with its store cleared. One that fails fences its tile, enters safe hold, asserts FAULT_N, raises vector 1 of every context and is logged; a marginal one makes a plan with trigger 3. A SELFTEST that passes its checks, its tiles idle, and whose result area is written ends with OK (SLICE with CHECK if a tile failed) and RESULT the failed units; a tile that failed STRESS is fenced, one that passed it under UNFENCE has its fence and its event counts cleared, and STRESS re-plans with trigger 6. That a sleeping tile first wakes, that the fence of a die gives way to one of each other tile of it, and the checks of SELFTEST that R428 does not list, are the model's readings (log 83). -/
def Obligations.SelfTests : Prop :=
  (∀ s : State, s.chip.stage = 4 → bitOf (s.reg rStCtl) 31 = true → ∃ t, exec .selftestRound s = .next t ∧
    t = { s with tiles := t.tiles, pmcMod := t.pmcMod, pmcModOvf := t.pmcModOvf } ∧ ∀ k : TileId, t.tile k = { s.tile k with
      slice := if s.tileFenced k = false ∧ (s.tile k).slice = .none then .pending else (s.tile k).slice
      sliceNext := if s.tileFenced k = false ∧ (s.tile k).slice = .running then true else (s.tile k).sliceNext }) ∧
  (∀ (k : TileId) (s : State), (s.tile k).slice = .pending → s.tileFenced k = false → s.sliceFree k = true → s.slices allTiles < 4 →
    (∀ j, j / 12 = k.val / 12 → (s.tile j).slice ≠ .running) → s.dieRailOff (k / 12) = false → ∃ t, exec (.selftestSliceStart k) s = .next t ∧
    t = { s with tiles := t.tiles } ∧ (∀ j, j ≠ k.val → t.tile j = s.tile j) ∧
    ((s.tile k).sleep ≠ .running → t.tile k = { s.tile k with waking := true }) ∧
    ((s.tile k).sleep = .running → s.tileCtx k ≠ none → t.tile k = { s.tile k with slice := .running }) ∧
    ((s.tile k).sleep = .running → s.tileCtx k = none → (t.tile k).slice = .running ∧ (t.tile k).sleep = .running ∧ (t.tile k).store = [] ∧ (t.tile k).mx.acc = [])) ∧
  (∀ (k : TileId) (s : State), (s.tile k).slice = .running → let after := if (s.tile k).sliceNext = true then Slice.pending else Slice.none
    ∃ t, exec (.selftestSliceEnd k .pass) s = .next t ∧
    t = { s with tiles := t.tiles, pmcMod := t.pmcMod, pmcModOvf := t.pmcModOvf } ∧ (t.tile k).slice = after ∧ (t.tile k).seq.yielded = false ∧
    (∀ j, j ≠ k.val → t.tile j = s.tile j) ∧
    (s.tileCtx k ≠ none → (s.tile k).seq.yielded = false → (s.tile k).seq.owner = none → t.tile k = { s.tile k with slice := after, sliceNext := false }) ∧
    (s.tileCtx k = none → (t.tile k).sleep = .off ∧ (t.tile k).store = [] ∧ (t.tile k).mx.acc = [])) ∧
  (∀ (k : TileId) (test : Nat) (s : State), (s.tile k).slice = .running → ∃ t, exec (.selftestSliceEnd k (.fail test)) s = .next t ∧
    t.flash.tileFence.getLsbD k = true ∧ t.chip.safeHold = true ∧ t.inputs.faultN = true ∧ ⟨9, [k, test]⟩ ∈ t.flash.log ∧
    ∀ c : CtxId, 1 ∈ (t.ctx c).msiPending ∨ Out.msix (s.homePort (s.ctx c).func) (s.ctx c).func ((s.ctx c).vectorNo c 1) ∈ t.out) ∧
  (∀ (k : TileId) (test : Nat) (s : State), (s.tile k).slice = .running → ∃ t, exec (.selftestSliceEnd k (.marginal test)) s = .next t ∧
    t.power.marginal = true ∧ t.flash.planTrigger = 3#8 ∧ t.flash.planVersion = s.flash.planVersion + 1#16 ∧ ⟨8, [k, test]⟩ ∈ t.flash.log) ∧
  (∀ (c : CtxId) (q : RingId) (p : Word) (d : Desc) (obs : List UnitObs) (s s2 : State), s.Passes c q p d (selftestChk 1 c) → isSelftest 1 d = true →
    (∀ k ∈ selftestUnits 1 d, (s.tile k).seq.owner = none ∧ (s.tile k).slice ≠ .running) →
    let us := (selftestUnits 1 d).zipIdx.map (fun (u : Nat × Nat) => (u.1, obs.getD u.2 noObs))
    let n := (us.filter (fun u => u.2.outcome == 1)).length
    (s.beginDesc c d).writeTarget c ((s.beginDesc c d).resolve c (d.num 48 8)) (selftestResult 1 (s.begun d) us) = (s2, none) →
    ∃ t, exec (.selftestSlice c q p obs) s = .next t ∧ t.Ended c d { status := if n = 0 then stOk else stCheck, result := dword n }) ∧
  (∀ (c : CtxId) (q : RingId) (p : Word) (d : Desc) (obs : List UnitObs) (s s2 : State), s.Passes c q p d (selftestChk 2 c) → isSelftest 2 d = true →
    let us := (selftestUnits 2 d).zipIdx.map (fun (u : Nat × Nat) => (u.1, obs.getD u.2 noObs))
    let n := (us.filter (fun u => u.2.outcome == 1)).length
    (s.beginDesc c d).writeTarget c ((s.beginDesc c d).resolve c (d.num 48 8)) (selftestResult 2 (s.begun d) us) = (s2, none) →
    ∃ t, exec (.selftestStress c q p obs) s = .next t ∧ t.Ended c d { status := stOk, result := dword n } ∧
      t.flash.planTrigger = 6#8 ∧ t.flash.planVersion = s.flash.planVersion + 1#16 ∧
      (∀ u ∈ us, u.2.outcome = 1 → t.flash.tileFence.toNat.testBit u.1 = true) ∧
      (bitOf (d.num 17 1) 0 = true → ∀ u ∈ us, u.2.outcome = 0 → s.tileFenced u.1 = true → t.flash.tileFence.toNat.testBit u.1 = false ∧
        (t.tile u.1).mx.arrayEv = [] ∧ (t.tile u.1).mx.chkEv = [] ∧ (t.tile u.1).mx.undecEv = [])) ∧
  (∀ (c : CtxId) (q : RingId) (p : Word) (d : Desc) (obs : List UnitObs) (s s2 : State), s.Passes c q p d (selftestChk 3 c) → isSelftest 3 d = true →
    let us := (selftestUnits 3 d).zipIdx.map (fun (u : Nat × Nat) => (u.1, obs.getD u.2 noObs))
    let n := (us.filter (fun u => u.2.outcome == 1)).length
    (s.beginDesc c d).writeTarget c ((s.beginDesc c d).resolve c (d.num 48 8)) (selftestResult 3 (s.begun d) us) = (s2, none) →
    exec (.selftestPortLoop c q p obs) s = .next (s2.endDesc c d.ring d.pos { status := stOk, result := dword n }))

/-- PMC_COUNTER_WRAP of a tile counter whose event the model leaves free sets it to 0 and its wrap bit, of such a module counter its wrap bit; of any other counter it changes nothing. PMC_SAMPLE of a tagged instruction of the tile that has ended writes its 32-byte record (PC, tile, class and operation, time of issue, the three cycle counts, COUNT the rows, or rows times elements) to slot k mod size of the buffer of the context of the tile and advances the count k, or where the slot passes the extent only counts a lost record; the sample of a prep cluster records the next running core in turn, with a PC at most 8 instructions on. With no such instruction or core, or PREP_EN clear, nothing changes. PMC_SNAPSHOT writes 64 bytes, the time and the number of tiles first, and for each tile of the context its 16 counts with sticky bit and event, or counts a lost one; of the tiles only counters of free events change. Which events, which choice of instructions and which words of a record are free is log 51. -/
def Obligations.PerformanceCounters : Prop :=
  (∀ (k : TileId) (i : Fin 16) (s : State), (s.openCounter k i = true → exec (.pmcCounterWrap (.tile k i)) s = .next (s.setTile k { s.tile k with
      pmc := (s.tile k).pmc.set i 0#64
      pmcOvf := (s.tile k).pmcOvf ||| BitVec.ofNat 16 (2 ^ i.val) })) ∧
    (s.openCounter k i = false → exec (.pmcCounterWrap (.tile k i)) s = .next s)) ∧
  (∀ (i : Fin 16) (s : State), (4 ≤ i.val ∧ i.val ≤ 7 → exec (.pmcCounterWrap (.module i)) s = .next { s with pmcModOvf := s.pmcModOvf ||| BitVec.ofNat 16 (2 ^ i.val) }) ∧
    (i.val < 4 ∨ 7 < i.val → exec (.pmcCounterWrap (.module i)) s = .next s)) ∧
  (∀ (k : TileId) (queued start done : Word) (c : Nat) (g : Tag) (s : State), s.tileCtx k = some c → s.pmcOn c = true → (s.tile k).tagDone = some g → ∃ (pc n : Nat),
    let w := g.word
    let bs := leBytes 4 pc ++ [byte k, byte (tclass w * 16 + top w), 0#8, 0#8] ++ leBytes 8 g.issued.toNat ++ leBytes 4 queued.toNat ++ leBytes 4 start.toNat ++
      leBytes 4 done.toNat ++ leBytes 4 n
    let off := 32 * ((s.ctx c).pmcProduced.toNat % 2 ^ (min (fld (s.reg (rPmcCfg c)) 0 4) 10 + 6))
    let ref := s.reg (rPmcBuf c)
    let u := s.bump.setTile k { s.tile k with tags := (s.tile k).tags.erase g }
    (g.pc < 2 ^ 32 → pc = g.pc) ∧ (tclass w = 1 → top w = 2 → n = tf w 70 54) ∧ (tclass w = 1 → top w = 3 ∨ top w = 6 ∨ top w = 7 → n = tf w 98 89) ∧
    (tclass w = 2 → top w = 1 → tf w 104 88 * tf w 119 105 < 2 ^ 32 → n = tf w 104 88 * tf w 119 105) ∧
    (off + 32 ≤ (s.resolve c ref).extent → exec (.pmcSample k (.tagged queued start done)) s =
      .next ((u.writeRef c ref off bs).modCtx c (fun x => { x with pmcProduced := x.pmcProduced + 1#32 }))) ∧
    ((s.resolve c ref).extent < off + 32 → exec (.pmcSample k (.tagged queued start done)) s =
      .next (u.modCtx c (fun x => { x with pmcLost := x.pmcLost + 1#32 })))) ∧
  (∀ (k : TileId) (cl : Fin 27) (c i : Nat) (s : State), s.tileCtx k = some c → s.pmcOn c = true → bitOf (s.reg (rPmcTag k)) 23 = true → s.turnCore k cl = some i →
    ∃ (ahead : Nat) (rest : List Byte), ahead ≤ 8 ∧ rest.length = 12 ∧
    let bs := leBytes 4 (s.pcAhead k cl i ahead (s.core k cl i).pc.toNat) ++ [byte k, 0#8, 1#8, 0#8] ++ leBytes 8 s.time.toNat ++ leBytes 4 (i * 2 ^ 8 + cl.val) ++ rest
    let off := 32 * ((s.ctx c).pmcProduced.toNat % 2 ^ (min (fld (s.reg (rPmcCfg c)) 0 4) 10 + 6))
    let ref := s.reg (rPmcBuf c)
    let u := s.bump.setTile k { s.tile k with turns := (s.tile k).turns.set cl i }
    (off + 32 ≤ (s.resolve c ref).extent → exec (.pmcSample k (.prep cl)) s =
      .next ((u.writeRef c ref off bs).modCtx c (fun x => { x with pmcProduced := x.pmcProduced + 1#32 }))) ∧
    ((s.resolve c ref).extent < off + 32 → exec (.pmcSample k (.prep cl)) s = .next (u.modCtx c (fun x => { x with pmcLost := x.pmcLost + 1#32 })))) ∧
  (∀ (k : TileId) (cl : Fin 27) (queued start done : Word) (s : State),
    ((s.tile k).tagDone = none → exec (.pmcSample k (.tagged queued start done)) s = .next s) ∧
    (bitOf (s.reg (rPmcTag k)) 23 = false ∨ s.turnCore k cl = none → exec (.pmcSample k (.prep cl)) s = .next s)) ∧
  (∀ (k : TileId) (cl : Fin 27) (i : Nat) (s : State), s.turnCore k cl = some i → i < 32 ∧ (s.core k cl i).running = true) ∧
  (∀ (c : CtxId) (s : State), s.pmcOn c = true → fld (s.reg (rPmcCfg c)) 16 15 ≠ 0 → ∃ (u : State) (bs : List Byte), u = { s with tiles := u.tiles, fresh := u.fresh } ∧
    (∀ j : TileId, u.tile j = { s.tile j with pmc := (u.tile j).pmc } ∧ ((s.ctx c).mask.toNat.testBit j = false → u.tile j = s.tile j) ∧
      ∀ k : Fin 16, s.openCounter j k = false → (u.tile j).pmc.get 0#64 k = (s.tile j).pmc.get 0#64 k) ∧
    (let ts := bitList (s.ctx c).mask.toNat 96
     bs.length = 64 + 128 * ts.length ∧ bs.take 10 = leBytes 8 s.time.toNat ++ leBytes 2 ts.length ∧ (bs.drop 10).take 54 = List.replicate 54 0#8 ∧
     ∀ (i j : Nat) (k : Fin 16), ts[i]? = some j → (bs.drop (64 + 128 * i + 8 * k)).take 8 =
       leBytes 8 (((u.tile j).pmc.get 0#64 k).toNat + b2n ((s.tile j).pmcOvf.getLsbD k) * 2 ^ 48 + fld (s.reg (rPmcSel j k)) 0 8 * 2 ^ 56)) ∧
    (bs.length ≤ (s.resolve c (s.reg (rPmcSnap c))).extent → exec (.pmcSnapshot c) s = .next ((u.writeRef c (s.reg (rPmcSnap c)) 0 bs).modCtx c (fun x => x))) ∧
    ((s.resolve c (s.reg (rPmcSnap c))).extent < bs.length → exec (.pmcSnapshot c) s = .next (u.modCtx c (fun x => { x with pmcLost := x.pmcLost + 1#32 }))))

/-- An EXEC that passes its checks, with no hold on it and no other EXEC of its context waiting, starts: where every tile of its mask is free each has its program from offset 0 with all event counters zero, its store and accumulators as before, and no other tile changes; where a tile is busy it waits and no tile changes. EXEC_FAULT_STOP of a run that is to end, with every tile at a safe point, ends the descriptor with that ending and frees its tiles, stores kept. OVERFLOW_REPEAT starts the wider program on the same tiles once none of them has another program. CTX_NUM_CTL stores its four bits while Idle, unless it sets CONCORDANT with AK6 or FAST_COLL, and else nothing. -/
def Obligations.ExecRuns : Prop :=
  (∀ (c : CtxId) (q : RingId) (p : Word) (d : Desc) (s : State), d.opcode = 3 → s.Passes c q p d (execChk c) → s.holdExec c = false → (s.ctx c).editHolds = false →
    s.redundant c = false → (∀ y ∈ (s.ctx c).descs, ∀ r, y.work.run? = some r → r.running ≠ 0#96) → ∃ t r, exec (.execStart c q p) s = .next t ∧
      t.run? (c, d.ring, d.pos) = some r ∧ r.tiles.toNat = d.num 24 12 ∧ r.codeBytes = d.num 36 4 ∧ r.argBytes = d.num 48 4 ∧
      ((∀ k : TileId, r.tiles.getLsbD k = true → (s.tile k).seq.owner = none ∧ (s.tile k).slice ≠ .running) → r.running = r.tiles ∧
        (∀ k : TileId, r.tiles.getLsbD k = true → (t.tile k).seq.owner = some (c.val, d.ring, d.pos) ∧ (t.tile k).seq.pc = 0 ∧ (t.tile k).seq.events = [] ∧
          (t.tile k).store = (s.tile k).store ∧ (t.tile k).mx = (s.tile k).mx) ∧
        (∀ k : TileId, r.tiles.getLsbD k = false → t.tile k = s.tile k)) ∧
      ((∃ k : TileId, r.tiles.getLsbD k = true ∧ ((s.tile k).seq.owner ≠ none ∨ (s.tile k).slice = .running)) → r.running = 0#96 ∧ t.tiles = s.tiles)) ∧
  (∀ (c : CtxId) (q : RingId) (p : Word) (d : Desc) (r : ExecRun) (e : Ending) (s : State), s.desc? c q p = some d → d.work = .exec r → d.ending = none →
    r.ending = some e → s.runSafe (c.val, d.ring, d.pos) r = true → ∃ t, exec (.execFaultStop c q p) s = .next t ∧ t.Ended c d e ∧
      (∀ k ∈ r.tileList, (t.tile k).seq.owner ≠ some (c.val, d.ring, d.pos) ∧ (t.tile k).store = (s.tile k).store ∧ (t.tile k).mx.acc = (s.tile k).mx.acc) ∧
      (∀ k, k ∉ r.tileList → t.tile k = s.tile k)) ∧
  (∀ (c : CtxId) (q : RingId) (p : Word) (d : Desc) (r : ExecRun) (x : Overflow) (obj n fmt : Nat) (s : State), s.desc? c q p = some d → d.work = .exec r →
    r.ending = none → r.running ≠ 0#96 → r.overflow = some x → x.wide = some (obj, n, fmt) → s.runSafe (c.val, d.ring, d.pos) r = true →
    s.repeatFree (c.val, d.ring, d.pos) r = true →
    ∃ t, exec (.overflowRepeat c q p) s = .next t ∧ t.run? (c, d.ring, d.pos) = some { r with
        running := r.allTiles
        code := dword (s.pinRef c (obj * 2 ^ 40))
        named := dword (obj * 2 ^ 40)
        codeBytes := n
        overflow := none
        repeats := r.repeats + 1
        fmt := fmt } ∧
      ∀ k ∈ r.tileList, (t.tile k).seq.owner = some (c.val, d.ring, d.pos) ∧ (t.tile k).seq.pc = 0 ∧ (t.tile k).store = (s.tile k).store) ∧
  (∀ (f : Func) (c : CtxId) (v : Word) (s : State), s.chip.stage = 4 → s.holds f c = true →
    ((s.ctx c).state = .idle → ¬(v.getLsbD 0 = true ∧ (v.getLsbD 1 = true ∨ v.getLsbD 2 = true)) →
      exec (.ctxNumCtlWrite f c v) s = .next { s with regs := s.regs.set (rNumCtl c) (dword (v.toNat % 16)) }) ∧
    ((s.ctx c).state ≠ .idle ∨ (v.getLsbD 0 = true ∧ (v.getLsbD 1 = true ∨ v.getLsbD 2 = true)) → exec (.ctxNumCtlWrite f c v) s = .next s))

/-- For each WHAT, a QUERY that passes its checks and whose write succeeds answers the state of that write, with the descriptor ended with OK and RESULT the length of the record: 4,096 bytes of the CTX page, the stage and straps, sleep state and fence of each tile of the context, the 32-byte object entry, EPOCH and STALE_DROP, the health log from an offset, the 64-byte step outcome, and the 24 bytes of the Tollgate. The layouts the spec does not give are constants of Config (log 8); page words that no register has are free (log 52). -/
def Obligations.QueriesWriteTheirRecord : Prop :=
  (∀ (c : CtxId) (q : RingId) (p : Word) (d : Desc) (s s2 : State), s.bump.Passes c q p d (queryChk 1 c) → isQuery 1 d = true →
    let s1 := (s.bump.beginDesc c d).touchRefs c [d.num 24 8]
    let r := (s.bump.beginDesc c d).ctxPageBytes c
    s1.writeTarget c (s1.resolve c (d.num 24 8)) (r.take (d.num 20 4)) = (s2, none) →
    exec (.queryCtxPage c q p) s = .next (s2.endDesc c d.ring d.pos { status := stOk, result := BitVec.ofNat 64 r.length })) ∧
  (∀ (c : CtxId) (q : RingId) (p : Word) (d : Desc) (s s2 : State), s.Passes c q p d (queryChk 2 c) → isQuery 2 d = true →
    let s1 := (s.beginDesc c d).touchRefs c [d.num 24 8]
    let r := Config.encodeModuleStage (word s.glbStage) s.chip.strap
    s1.writeTarget c (s1.resolve c (d.num 24 8)) (r.take (d.num 20 4)) = (s2, none) →
    exec (.queryModuleStage c q p) s = .next (s2.endDesc c d.ring d.pos { status := stOk, result := BitVec.ofNat 64 r.length })) ∧
  (∀ (c : CtxId) (q : RingId) (p : Word) (d : Desc) (s s2 : State), s.Passes c q p d (queryChk 3 c) → isQuery 3 d = true →
    let s1 := (s.beginDesc c d).touchRefs c [d.num 24 8]
    let r := Config.encodeTileStates ((bitList (s.ctx c).mask.toNat 96).map (fun t => (t, (s.tile t).sleep.code, s.tileFenced t)))
    s1.writeTarget c (s1.resolve c (d.num 24 8)) (r.take (d.num 20 4)) = (s2, none) →
    exec (.queryTileState c q p) s = .next (s2.endDesc c d.ring d.pos { status := stOk, result := BitVec.ofNat 64 r.length })) ∧
  (∀ (c : CtxId) (q : RingId) (p : Word) (d : Desc) (s s2 : State), s.Passes c q p d (queryChk 4 c) → isQuery 4 d = true →
    let s1 := (s.beginDesc c d).touchRefs c [d.num 24 8]
    let r := s.objEntry c (d.num 32 8)
    s1.writeTarget c (s1.resolve c (d.num 24 8)) (r.take (d.num 20 4)) = (s2, none) →
    exec (.queryObjectEntry c q p) s = .next (s2.endDesc c d.ring d.pos { status := stOk, result := BitVec.ofNat 64 r.length })) ∧
  (∀ (c : CtxId) (q : RingId) (p : Word) (d : Desc) (s s2 : State), s.Passes c q p d (queryChk 5 c) → isQuery 5 d = true →
    let s1 := (s.beginDesc c d).touchRefs c [d.num 24 8]
    let r := Config.encodeEpoch (s.ctx c).epoch (s.ctx c).staleDrop
    s1.writeTarget c (s1.resolve c (d.num 24 8)) (r.take (d.num 20 4)) = (s2, none) →
    exec (.queryEpoch c q p) s = .next (s2.endDesc c d.ring d.pos { status := stOk, result := BitVec.ofNat 64 r.length })) ∧
  (∀ (c : CtxId) (q : RingId) (p : Word) (d : Desc) (s s2 : State), s.Passes c q p d (queryChk 6 c) → isQuery 6 d = true →
    let s1 := (s.beginDesc c d).touchRefs c [d.num 24 8]
    let r := s.logBytes.drop (d.num 32 8)
    s1.writeTarget c (s1.resolve c (d.num 24 8)) (r.take (d.num 20 4)) = (s2, none) →
    exec (.queryHealthLog c q p) s = .next (s2.endDesc c d.ring d.pos { status := stOk, result := BitVec.ofNat 64 r.length })) ∧
  (∀ (c : CtxId) (q : RingId) (p : Word) (d : Desc) (s s2 : State), s.Passes c q p d (queryChk 7 c) → isQuery 7 d = true →
    let s1 := (s.beginDesc c d).touchRefs c [d.num 24 8]
    let r := (s.ctx c).mile.stepBytes (d.num 32 8)
    s1.writeTarget c (s1.resolve c (d.num 24 8)) (r.take (d.num 20 4)) = (s2, none) →
    exec (.queryMilepost c q p) s = .next (s2.endDesc c d.ring d.pos { status := stOk, result := BitVec.ofNat 64 r.length })) ∧
  (∀ (c : CtxId) (q : RingId) (p : Word) (d : Desc) (s s2 : State), s.Passes c q p d (queryChk 8 c) → isQuery 8 d = true →
    let s1 := (s.beginDesc c d).touchRefs c [d.num 24 8]
    let r := leBytes 8 (s.ctx c).rollout.level ++ leBytes 4 (s.reg (rTgRate c)) ++ leBytes 4 (s.reg (rTgDepth c)) ++ leBytes 4 (s.reg (rTgCtl c)) ++ leBytes 4 0
    s1.writeTarget c (s1.resolve c (d.num 24 8)) (r.take (d.num 20 4)) = (s2, none) →
    exec (.queryTollgate c q p) s = .next (s2.endDesc c d.ring d.pos { status := stOk, result := BitVec.ofNat 64 r.length }))

/-- Where the instruction stands in the window with legal fields, the queue has room and the scoreboard lets it go, it leaves the window: MLOAD and MPASS enter the queue (MPASS leaves its tile Open, with LAST Closed, or takes the armed drain with it), MDRAIN enters the queue and leaves its tile Drained, or with ARM is armed; MCLEAR makes its tiles Idle and their committed values zero and leaves the others; MSTAT with no drain into its record and no MSTAT before it writes the record at DST and is complete, and behind such a drain it enters the queue; MACCR and MACCW enter the queue, MACCW leaving its tile Closed. Each but MCLEAR is numbered and, until it completes, marks its unit busy. Nothing else of the tile, and nothing else of the machine, changes but counts (R431) and a tag that TAG_EN may put on it (R433). -/
def Obligations.MatrixInstructionsIssue : Prop :=
  (∀ (t : TileId) (k a : Nat) (w : TileWord) (s : State), s.AtIssue t k 1 1 a w → mloadLegal (s.tileAk6 t) w = .ok → (s.tile t).mxRoom = true → ∃ u, exec (.mload t k) s = .next u ∧
    s.Issues u t a w { s.tile t with
      mx := Matrix.startLoad { (s.tile t).mx with queue := (s.tile t).mx.queue ++ [⟨(s.tile t).seq.nextId, w, a, (s.tile t).mx.score, none⟩] }
      seq := ((s.tile t).seq.numbered 0).left k }) ∧
  (∀ (t : TileId) (k a : Nat) (w : TileWord) (s : State), s.AtIssue t k 1 2 a w → mpassLegal (s.tileAk6 t) (s.tile t).mx.fmtAhead (s.tile t).seq.armed w = .ok → (s.tile t).mxRoom = true →
    let acc := tf w 111 108
    let stream := tf w 113 113 = 1
    let first := tf w 115 115 = 1
    ((s.tile t).seq.armed.isSome = true ↔ stream) → (∀ d, (s.tile t).seq.armed = some d → tf d.2 111 108 = acc) →
    (first → (s.tile t).mx.state acc ≠ 1 ∧ (s.tile t).mx.drainOn acc = false) → (¬first → (s.tile t).mx.state acc = 1) → ∃ u, exec (.mpass t k) s = .next u ∧
    s.Issues u t a w { s.tile t with
      mx := { (if stream then (s.tile t).mx else (s.tile t).mx.setState acc (if tf w 114 114 = 1 then 2 else 1)) with
        queue := (s.tile t).mx.queue ++ [⟨(s.tile t).seq.nextId, w, a, (s.tile t).mx.score, if stream then (s.tile t).seq.armed else none⟩] }
      seq := (({ (s.tile t).seq with armed := none } : Seq).numbered 0).left k }) ∧
  (∀ (t : TileId) (k a : Nat) (w : TileWord) (s : State), s.AtIssue t k 1 3 a w → mdrainLegal (s.tileAk6 t) w = .ok → (s.tile t).seq.armed = none →
    (∀ b ∈ (accNames w).drop 1, (s.tile t).mx.state b = 3 ∨ (s.tile t).mx.state b = 2 ∧ (s.tile t).mx.passOn b = false) →
    let m := (s.tile t).mx
    let acc := tf w 111 108
    (tf w 115 115 = 0 → (m.state acc = 3 ∨ m.state acc = 2 ∧ m.passOn acc = false) → (s.tile t).mxRoom = true → ∃ u, exec (.mdrain t k) s = .next u ∧ s.Issues u t a w { s.tile t with
      mx := { m.setState acc 3 with queue := m.queue ++ [⟨(s.tile t).seq.nextId, w, a, m.score, none⟩] }
      seq := ((s.tile t).seq.numbered 1).left k }) ∧
    (tf w 115 115 = 1 → m.state acc ≠ 1 → m.drainOn acc = false → (s.tile t).mxRoom = true → ∃ u, exec (.mdrain t k) s = .next u ∧ s.Issues u t a w { s.tile t with
      seq := Seq.left { (s.tile t).seq.numbered 1 with armed := some ((s.tile t).seq.nextId, w) } k })) ∧
  (∀ (t : TileId) (k a : Nat) (w : TileWord) (s : State), s.AtIssue t k 1 4 a w → mclearLegal w = .ok → (s.tile t).mxRoom = true →
    (∀ b ∈ accNames w, (s.tile t).mx.state b = 0 ∨ 2 ≤ (s.tile t).mx.state b ∧ (s.tile t).mx.passOn b = false ∧ (s.tile t).mx.drainOn b = false) →
    ∃ u, exec (.mclear t k) s = .next u ∧
    s.Issues u t a w { s.tile t with
      mx := { (s.tile t).mx with score := (u.tile t).mx.score, acc := (u.tile t).mx.acc }
      seq := (s.tile t).seq.left k } ∧
    ∀ b : Fin 16, (u.tile t).mx.state b = (if w.getLsbD (96 + b) = true then 0 else (s.tile t).mx.state b) ∧ ∀ r c, r < 512 → c < 192 →
      (u.tile t).mx.committed b r c = (if w.getLsbD (96 + b) = true then 0#32 else (s.tile t).mx.committed b r c)) ∧
  (∀ (t : TileId) (k a : Nat) (w : TileWord) (s : State), s.AtIssue t k 1 5 a w → mstatLegal w = .ok → (s.tile t).mxRoom = true → (∀ q ∈ (s.tile t).mx.queue, top q.word ≠ 5) →
    let into (d : TileWord) := isStats d = true ∧ tf d 83 82 = tf w 111 110
    ((∀ d ∈ (s.tile t).mx.drains, ¬into d.word) → (∀ q ∈ (s.tile t).mx.queue, ¬into q.word) → ∃ u, exec (.mstat t k) s = .next u ∧
      s.Issues u t a w { (s.tile t).write (tf w 95 71) ((s.tile t).mx.stats.get {} (tf w 111 110)).bytes with
        mx := { (s.tile t).mx with stats := if tf w 109 109 = 1 then (s.tile t).mx.stats.set (tf w 111 110) {} else (s.tile t).mx.stats }
        seq := (((s.tile t).seq.numbered 1).without (s.tile t).seq.nextId).left k }) ∧
    ((∃ d ∈ (s.tile t).mx.drains, into d.word) ∨ (∃ q ∈ (s.tile t).mx.queue, into q.word) → ∃ u, exec (.mstat t k) s = .next u ∧ s.Issues u t a w { s.tile t with
      mx := { (s.tile t).mx with queue := (s.tile t).mx.queue ++ [⟨(s.tile t).seq.nextId, w, a, (s.tile t).mx.score, none⟩] }
      seq := ((s.tile t).seq.numbered 1).left k })) ∧
  (∀ (t : TileId) (k a : Nat) (w : TileWord) (s : State), s.AtIssue t k 1 6 a w → debugLegal (s.debugRun t) w = .ok → (s.tile t).mxRoom = true →
    ((s.tile t).mx.state (tf w 111 108) = 1 → (s.tile t).mx.anyPass = false) →
    ((s.tile t).mx.state (tf w 111 108) = 2 → (s.tile t).mx.passOn (tf w 111 108) = false) →
    ∃ u, exec (.maccr t k) s = .next u ∧ s.Issues u t a w { s.tile t with
      mx := { (s.tile t).mx with queue := (s.tile t).mx.queue ++ [⟨(s.tile t).seq.nextId, w, a, (s.tile t).mx.score, none⟩] }
      seq := ((s.tile t).seq.numbered 1).left k }) ∧
  (∀ (t : TileId) (k a : Nat) (w : TileWord) (s : State), s.AtIssue t k 1 7 a w → debugLegal (s.debugRun t) w = .ok → (s.tile t).mxRoom = true → (s.tile t).mx.state (tf w 111 108) ≠ 1 →
    ∃ u, exec (.maccw t k) s = .next u ∧ s.Issues u t a w { s.tile t with
      mx := { (s.tile t).mx.setState (tf w 111 108) 2 with queue := (s.tile t).mx.queue ++ [⟨(s.tile t).seq.nextId, w, a, (s.tile t).mx.score, none⟩] }
      seq := ((s.tile t).seq.numbered 1).left k })

/-- A matrix or vector instruction at the window whose fields are illegal, or whose store range leaves the tile store, ends the run of its tile with FORMAT or BOUNDS, that secondary code and the tile as UNIT, and changes no tile but that its sequencer is to finish what it had issued; one with a zero count (of MLOAD, MPASS, MDRAIN, MCLEAR, MACCR, MACCW, VLAUNCH or VTAP) only leaves the window. A first MPASS on an Open tile, or a further one on a tile that is not Open, ends the run with STATE, ACC_ORDER and RESULT the byte offset of the instruction. MLOAD with a format code of 8 or more, and MACCR and MACCW of a run without DEBUG, and VTAP with reserved bits or an unaligned address, are illegal. That ILLEGAL comes before a zero count, and that before STORE_RANGE, is the model's reading (log 30). -/
def Obligations.TileInstructionFaults : Prop :=
  (∀ (t : TileId) (k a : Nat) (w : TileWord) (s : State), ∀ e, s.AtIssue t k 1 1 a w → mloadLegal (s.tileAk6 t) w = .bad e → ∃ u, exec (.mload t k) s = .next u ∧ s.FaultsWith u t e ∧ s.Finishes u t) ∧
  (∀ (t : TileId) (k a : Nat) (w : TileWord) (s : State), ∀ e, s.AtIssue t k 1 2 a w → mpassLegal (s.tileAk6 t) (s.tile t).mx.fmtAhead (s.tile t).seq.armed w = .bad e → ∃ u, exec (.mpass t k) s = .next u ∧ s.FaultsWith u t e ∧ s.Finishes u t) ∧
  (∀ (t : TileId) (k a : Nat) (w : TileWord) (s : State), ∀ e, s.AtIssue t k 1 3 a w → mdrainLegal (s.tileAk6 t) w = .bad e → ∃ u, exec (.mdrain t k) s = .next u ∧ s.FaultsWith u t e ∧ s.Finishes u t) ∧
  (∀ (t : TileId) (k a : Nat) (w : TileWord) (s : State), ∀ e, s.AtIssue t k 1 4 a w → mclearLegal w = .bad e → ∃ u, exec (.mclear t k) s = .next u ∧ s.FaultsWith u t e ∧ s.Finishes u t) ∧
  (∀ (t : TileId) (k a : Nat) (w : TileWord) (s : State), ∀ e, s.AtIssue t k 1 5 a w → mstatLegal w = .bad e → ∃ u, exec (.mstat t k) s = .next u ∧ s.FaultsWith u t e ∧ s.Finishes u t) ∧
  (∀ (t : TileId) (k a : Nat) (w : TileWord) (s : State), ∀ e, s.AtIssue t k 1 6 a w → debugLegal (s.debugRun t) w = .bad e → ∃ u, exec (.maccr t k) s = .next u ∧ s.FaultsWith u t e ∧ s.Finishes u t) ∧
  (∀ (t : TileId) (k a : Nat) (w : TileWord) (s : State), ∀ e, s.AtIssue t k 1 7 a w → debugLegal (s.debugRun t) w = .bad e → ∃ u, exec (.maccw t k) s = .next u ∧ s.FaultsWith u t e ∧ s.Finishes u t) ∧
  (∀ (t : TileId) (k a : Nat) (w : TileWord) (s : State), ∀ e, s.AtIssue t k 2 1 a w → vlaunchLegal w = .bad e → ∃ u, exec (.vlaunch t k) s = .next u ∧ s.FaultsWith u t e ∧ s.Finishes u t) ∧
  (∀ (t : TileId) (k a : Nat) (w : TileWord) (s : State), ∀ e, s.AtIssue t k 2 2 a w → vtapLegal w = .bad e → ∃ u, exec (.vtap t k) s = .next u ∧ s.FaultsWith u t e ∧ s.Finishes u t) ∧
  (∀ (t : TileId) (k a : Nat) (w : TileWord) (s : State), s.AtIssue t k 1 1 a w → mloadLegal (s.tileAk6 t) w = .zero → ∃ u, exec (.mload t k) s = .next u ∧ s.Issues u t a w { s.tile t with seq := (s.tile t).seq.left k }) ∧
  (∀ (t : TileId) (k a : Nat) (w : TileWord) (s : State), s.AtIssue t k 1 4 a w → mclearLegal w = .zero → ∃ u, exec (.mclear t k) s = .next u ∧ s.Issues u t a w { s.tile t with seq := (s.tile t).seq.left k }) ∧
  (∀ (t : TileId) (k a : Nat) (w : TileWord) (s : State), s.AtIssue t k 2 1 a w → vlaunchLegal w = .zero → ∃ u, exec (.vlaunch t k) s = .next u ∧ s.Issues u t a w { s.tile t with seq := (s.tile t).seq.left k }) ∧
  (∀ (t : TileId) (k a : Nat) (w : TileWord) (s : State), s.AtIssue t k 1 2 a w → mpassLegal (s.tileAk6 t) (s.tile t).mx.fmtAhead (s.tile t).seq.armed w = .zero → ∃ u, exec (.mpass t k) s = .next u ∧ s.Issues u t a w { s.tile t with seq := (s.tile t).seq.left k }) ∧
  (∀ (t : TileId) (k a : Nat) (w : TileWord) (s : State), s.AtIssue t k 1 3 a w → mdrainLegal (s.tileAk6 t) w = .zero → ∃ u, exec (.mdrain t k) s = .next u ∧ s.Issues u t a w { s.tile t with seq := (s.tile t).seq.left k }) ∧
  (∀ (t : TileId) (k a : Nat) (w : TileWord) (s : State), s.AtIssue t k 1 6 a w → debugLegal (s.debugRun t) w = .zero → ∃ u, exec (.maccr t k) s = .next u ∧ s.Issues u t a w { s.tile t with seq := (s.tile t).seq.left k }) ∧
  (∀ (t : TileId) (k a : Nat) (w : TileWord) (s : State), s.AtIssue t k 1 7 a w → debugLegal (s.debugRun t) w = .zero → ∃ u, exec (.maccw t k) s = .next u ∧ s.Issues u t a w { s.tile t with seq := (s.tile t).seq.left k }) ∧
  (∀ (t : TileId) (k a : Nat) (w : TileWord) (s : State), s.AtIssue t k 2 2 a w → vtapLegal w = .zero → ∃ u, exec (.vtap t k) s = .next u ∧ s.Issues u t a w { s.tile t with seq := (s.tile t).seq.left k }) ∧
  (∀ (t : TileId) (k a : Nat) (w : TileWord) (s : State), s.AtIssue t k 1 2 a w → mpassLegal (s.tileAk6 t) (s.tile t).mx.fmtAhead (s.tile t).seq.armed w = .ok → a < 2 ^ 32 → tf w 113 113 = 0 → (s.tile t).seq.armed = none →
    (tf w 115 115 = 1 ↔ (s.tile t).mx.state (tf w 111 108) = 1) → ∃ u o r, exec (.mpass t k) s = .next u ∧ s.tileRun t = some (o, r) ∧
    u.run? o = some { r with ending := some { status := 0x01#8, secondary := 1#16, unit := half t, result := dword a } } ∧ s.Finishes u t) ∧
  (∀ (ak : Bool) (w : TileWord), 8 ≤ tf w 119 116 → mloadLegal ak w = .bad scIllegal) ∧ (∀ w : TileWord, debugLegal false w = .bad scIllegal) ∧
  (∀ w : TileWord, tf w 110 89 ≠ 0 ∨ tf w 88 64 % 16 ≠ 0 ∨ tf w 63 0 ≠ 0 → vtapLegal w = .bad scIllegal) ∧
  (∀ (ak : Bool) (w : TileWord) (fmt : Nat) (d : Option (Nat × TileWord)) (l : Legal), l = .zero →
    (mpassLegal ak fmt d w = l → tf w 70 54 = 0) ∧ (mdrainLegal ak w = l → tf w 98 89 = 0) ∧ (debugLegal true w = l → tf w 98 89 = 0) ∧ (vtapLegal w = l → tf w 118 111 = 0) ∧
    (mloadLegal ak w = l → tf w 111 104 = 0 ∨ tf w 103 96 = 0) ∧ (mclearLegal w = l → tf w 111 96 = 0) ∧ (vlaunchLegal w = l → tf w 119 105 = 0 ∨ tf w 104 88 = 0))

/-- SHADOW_LOAD_DONE fills the shadow set from tile store as the load sees it (R155); SWAP_FRONT makes it active once every earlier pass has read its input 0 and, without WAVE, the array is empty; PASS_INPUT_START gives the next pass the active set and the tolerance. BLOCK_CHECK_DONE forms the next block, its sums and its checks of R136; with no failing check it keeps the product and counts the block, with a failing one it starts a vote. VOTE_DONE, once the neighbour may run, ends the vote: shown where run 2 passes and agrees with run 0, and where no run passes, which ends the run with CHECK_FAIL and discards the pass. PASS_COMMIT of a checked pass makes each of its rows the sums added to zero (FIRST) or to the committed value, or subtracted, never -0 (log 108), and leaves every other row and accumulator tile. A tile that met no race of R155 is read as it stands. That a neighbour held by a vote of its own is not waited for, the order in which the check sums are formed, and operands read when a block is checked, are the model's readings (logs 102, 101, 74). -/
def Obligations.ArrayPasses : Prop :=
  (∀ (t : TileId) (h : Shadow) (s : State), (s.tile t).mx.shadow = some h → h.loaded = false → (s.tile t).slice ≠ .running → ∃ u, exec (.shadowLoadDone t) s = .next u ∧
    ({ s with fresh := u.fresh } : State).TileIs u t { s.tile t with
      mx := { (s.tile t).mx with shadow := some { h with loaded := true, set := ((s.tile t).seenBy h.id s.raceCoin).readSet (s.tileAk6 t) h.word } }
      seq := (s.tile t).seq.without h.id } ∧ ((s.tile t).quiet h.id = true → u.fresh = s.fresh)) ∧
  (∀ (x : Tile) (id : Nat) (coin : Nat → Bool) (ws : List (Nat × List Byte)), x.quiet id = true → x.seenBy id coin = x ∧ x.writeBy id coin ws = x.writeAll ws) ∧
  (∀ (t : TileId) (h : Shadow) (s : State), (s.tile t).mx.shadow = some h → h.loaded = true → (∀ q ∈ (s.tile t).mx.queue, top q.word = 2 → h.id ≤ q.id) →
    (tf h.word 115 115 = 1 ∨ (s.tile t).mx.passes = []) → (s.tile t).slice ≠ .running → ∃ u, exec (.swapFront t) s = .next u ∧
    s.TileIs u t { s.tile t with mx :=
      (if s.starts t = true then Matrix.startLoad { (s.tile t).mx with active := h.set, shadow := none } else { (s.tile t).mx with active := h.set, shadow := none }) }) ∧
  (∀ (t : TileId) (q : MxOp) (s : State), (s.tile t).mx.arrayHead = some q → s.starts t = true → (s.tile t).mx.mayStart q = true → s.serving t = false →
    ∃ u, exec (.passInputStart t) s = .next u ∧
    s.TileIs u t { s.tile t with mx := Matrix.startLoad { (s.tile t).mx with
      queue := (s.tile t).mx.queue.erase q
      passes := (s.tile t).mx.passes ++ [{ id := q.id, word := q.word, pc := q.pc, set := (s.tile t).mx.active, armed := q.armed, tol := s.reg (rMxTol t), scoreBefore := q.before }] } }) ∧
  (∀ (t : TileId) (p : Pass) (rest : List Pass) (obs : CheckObs) (s : State), (s.tile t).mx.vote = none → (s.tile t).mx.passes = p :: rest → p.checked < passBlocks p.word →
    let m := (s.tile t).mx
    let r := ((s.tile t).seenBy p.id s.raceCoin).runBlock (s.tileAk6 t) p p.checked obs
    let bad := (∃ x ∈ r.rows, checkSkipped x = false ∧ checkFails x p.tol false = true) ∨ (∃ x ∈ r.cols, checkSkipped x = false ∧ checkFails x p.tol true = true)
    ∃ u, exec (.blockCheckDone t obs) s = .next u ∧ ({ s with fresh := u.fresh } : State).TileIs u t { s.tile t with mx := (u.tile t).mx } ∧
      (u.tile t).mx.blocks = m.blocks + 1#64 ∧ (u.tile t).mx.skipped = min 65535 (m.skipped + r.skipped) ∧
      (¬bad → (u.tile t).mx.vote = none ∧ (u.tile t).mx.mismatch = m.mismatch ∧
        (u.tile t).mx.passes.head? = some { p with checked := p.checked + 1, sums := p.sums ++ [r.product] }) ∧
      (bad → (u.tile t).mx.vote = some ⟨p.id, p.checked, r.product⟩ ∧ (u.tile t).mx.passes = m.passes ∧ (u.tile t).mx.mismatch = min 65535 (m.mismatch + 1))) ∧
  (∀ (t : TileId) (v : Vote) (p : Pass) (nb : Nat) (run1 run2 : CheckObs) (s : State), (s.tile t).mx.vote = some v → (s.tile t).mx.passes = [p] → v.pass = p.id →
    p.pc < 2 ^ 32 → (∀ q ∈ (s.tile t).mx.queue, p.id < q.id) → s.neighbour t = some nb → ((s.tile nb).mx.passes = [] ∨ (s.tile nb).mx.vote ≠ none) →
    (s.voteRun t p v.block run2).passes = true → (s.voteRun t p v.block run2).product = v.run0 → ∃ u, exec (.voteDone t run1 run2) s = .next u ∧
    (u.tile t).mx.vote = none ∧ (u.tile t).mx.voteReg = dword (p.pc * 2 ^ 32 + nb * 2 ^ 24 + v.block * 2 ^ 8 + 1) ∧
    (u.tile t).mx.passes = [{ p with checked := p.checked + 1, sums := p.sums ++ [v.run0] }] ∧ ⟨16, [t]⟩ ∈ u.flash.log) ∧
  (∀ (t : TileId) (v : Vote) (p : Pass) (o : Nat × Nat × Nat) (r : ExecRun) (run1 run2 : CheckObs) (s : State), (s.tile t).mx.vote = some v → (s.tile t).mx.passes = [p] →
    v.pass = p.id → p.pc < 2 ^ 32 → (∀ nb, s.neighbour t = some nb → (s.tile nb).mx.passes = [] ∨ (s.tile nb).mx.vote ≠ none) → s.tileRun t = some (o, r) → r.ending = none →
    (s.voteRun t p v.block run1).passes = false → (s.neighbour t = none ∨ (s.voteRun t p v.block run2).passes = false) → ∃ u, exec (.voteDone t run1 run2) s = .next u ∧
    (u.tile t).mx.vote = none ∧ (u.tile t).mx.passes = [] ∧ (u.tile t).mx.active = p.set ∧ (u.tile t).mx.acc = (s.tile t).mx.acc ∧
    (u.run? o).map (fun r => r.ending) = some (some { status := 0x0C#8, secondary := 7#16, unit := half t, result := dword p.pc })) ∧
  (∀ (t : TileId) (p : Pass) (rest : List Pass) (s : State), (s.tile t).mx.passes = p :: rest → p.armed = none → passBlocks p.word ≤ p.checked →
    (∀ x ∈ p.sums.flatten, x.length = 192) → tf p.word 107 99 + p.sums.flatten.length ≤ 512 → ∃ u, exec (.passCommit t) s = .next u ∧
    s.TileIs u t { s.tile t with
      mx := { (s.tile t).mx with passes := rest, acc := (u.tile t).mx.acc, sel := (u.tile t).mx.sel }
      seq := (s.tile t).seq.without p.id } ∧
    let acc := tf p.word 111 108
    let row0 := tf p.word 107 99
    (∀ i c x, ((p.sums.flatten)[i]?.bind (fun r => r[c]?)) = some x → (u.tile t).mx.committed acc (row0 + i) c =
      (let base := if tf p.word 115 115 = 1 then 0#32 else (s.tile t).mx.committed acc (row0 + i) c
       posZero (flushSub (s.tileAk6 t) (if tf p.word 112 112 = 1 then fsub base x else fadd base x)))) ∧
    (∀ b r c, b < 16 → r < 512 → c < 192 → (b ≠ acc ∨ r < row0 ∨ row0 + p.sums.flatten.length ≤ r) → (u.tile t).mx.committed b r c = (s.tile t).mx.committed b r c))

/-- DRAIN_START starts the first queued drain that may. DRAIN_COMPLETE takes the oldest drain whose writes wait for no protected line, and with none changes nothing. Of an MDRAIN whose rows reach no protected line, with no MSTAT queued, it writes the converted rows, ends the drain, takes its statistics, and reports its overflowed elements to the run; nothing else changes; where a row reaches a protected line nothing changes. It ends MACCR with the committed rows written to the store, MACCW with the rows it read committed, and an armed drain with what its pass left waiting. STREAM_BLOCK_COMMIT of the next block of a stream pass leaves in the accumulator the block's sums added to zero (FIRST), writes its drained rows behind what waits, up to the first that reaches a protected line, and with the last block ends the pass with its tile Drained; the drain stays where writes still wait. That a drain which a pass in flight waits for starts though nothing else may, and that a rounded zero of the array is +0, are the model's readings (logs 103, 108). -/
def Obligations.Drains : Prop :=
  (∀ (t : TileId) (q : MxOp) (s : State), firstWith (s.tile t).mx.drainMay [] (s.tile t).mx.queue = some q → (s.starts t = true ∨ s.drainsOut t q = true) →
    let m : Matrix := { (s.tile t).mx with
      queue := (s.tile t).mx.queue.erase q
      drains := (s.tile t).mx.drains ++ [⟨q.id, q.word, !isStats q.word && (s.tile t).mx.drains.isEmpty, none⟩] }
    ∃ u, exec (.drainStart t) s = .next u ∧ s.TileIs u t { s.tile t with mx := if s.starts t = true then m.startLoad else m }) ∧
  (∀ (t : TileId) (stats : Bool) (d : Drain) (s : State), (s.tile t).mx.drains.find? (fun d => isStats d.word == stats && !(s.tile t).drainBlocked d) = some d → d.left = none → top d.word = 3 →
    (∀ q ∈ (s.tile t).mx.queue, top q.word ≠ 5) →
    let x := s.tile t
    let r := ((x.seenBy d.id s.raceCoin).drainRows (s.tileAk6 t) d.word (tf d.word 107 99) 0 (tf d.word 98 89)).1
    let vs := ((x.seenBy d.id s.raceCoin).drainRows (s.tileAk6 t) d.word (tf d.word 107 99) 0 (tf d.word 98 89)).2
    (x.guardedAny r.writes = true → exec (.drainComplete t stats) s = .next s) ∧
    (x.guardedAny r.writes = false → ∃ u, exec (.drainComplete t stats) s = .next u ∧ (r.count = 0 → u = { s with tiles := u.tiles, fresh := u.fresh }) ∧ u.mem.data = s.mem.data ∧ u.ledger = s.ledger ∧ u.regs = s.regs ∧
      (x.quiet d.id = true → r.count = 0 → u.fresh = s.fresh) ∧ (∀ k, k ≠ t.val → u.tile k = s.tile k) ∧
      (∀ o run, s.tileRun t = some (o, run) → run.overflow = none → 0 < r.count → ∃ run' v, u.run? o = some run' ∧ run'.overflow = some v ∧ v.count = r.count ∧ v.tile = t.val ∧
        v.nonfinite = r.nonfin ∧ v.saturated = r.sat) ∧
      u.tile t = { x.writeBy d.id s.raceCoin r.writes with
        mx := { x.mx with
          drains := x.mx.drains.filter (fun e => e.id != d.id)
          stats := if isStats d.word = true then x.mx.stats.mod {} (tf d.word 83 82) (fun q => vs.foldl StatRec.take q) else x.mx.stats }
        seq := x.seq.without d.id
        pmc := (u.tile t).pmc
        pmcOvf := (u.tile t).pmcOvf })) ∧
  (∀ (t : TileId) (stats : Bool) (s : State), (∀ d ∈ (s.tile t).mx.drains, isStats d.word = stats → (s.tile t).drainBlocked d = true) → exec (.drainComplete t stats) s = .next s) ∧
  (∀ (t : TileId) (stats : Bool) (d : Drain) (ws : List (Nat × List Byte)) (s : State), (s.tile t).mx.drains.find? (fun d => isStats d.word == stats && !(s.tile t).drainBlocked d) = some d →
    d.left = some ws → (∀ q ∈ (s.tile t).mx.queue, top q.word ≠ 5) → (s.tile t).guardedAny ws = false → ∃ u, exec (.drainComplete t stats) s = .next u ∧
    ({ s with fresh := u.fresh } : State).TileIs u t { (s.tile t).writeBy d.id s.raceCoin ws with
      mx := { (s.tile t).mx with drains := (s.tile t).mx.drains.filter (fun e => e.id != d.id) }
      seq := (s.tile t).seq.without d.id }) ∧
  (∀ (t : TileId) (stats : Bool) (d : Drain) (s : State), (s.tile t).mx.drains.find? (fun d => isStats d.word == stats && !(s.tile t).drainBlocked d) = some d → d.left = none → top d.word = 6 →
    (∀ q ∈ (s.tile t).mx.queue, top q.word ≠ 5) →
    let x := s.tile t
    let ws := (List.range (tf d.word 98 89)).map (fun i => (tf d.word 80 56 + 768 * i,
      ((List.range 192).map (fun n => leBytes 4 (x.mx.committed (tf d.word 111 108) (tf d.word 107 99 + i) n).toNat)).flatten))
    x.guardedAny ws = false → ∃ u, exec (.drainComplete t stats) s = .next u ∧
    ({ s with fresh := u.fresh } : State).TileIs u t { x.writeBy d.id s.raceCoin ws with
      mx := { x.mx with drains := x.mx.drains.filter (fun e => e.id != d.id) }
      seq := x.seq.without d.id }) ∧
  (∀ (t : TileId) (stats : Bool) (d : Drain) (s : State), (s.tile t).mx.drains.find? (fun d => isStats d.word == stats && !(s.tile t).drainBlocked d) = some d → d.left = none → top d.word = 7 →
    (∀ q ∈ (s.tile t).mx.queue, top q.word ≠ 5) → tf d.word 107 99 + tf d.word 98 89 ≤ 512 → ∃ u, exec (.drainComplete t stats) s = .next u ∧
    ({ s with fresh := u.fresh } : State).TileIs u t { s.tile t with
      mx := { (s.tile t).mx with drains := (s.tile t).mx.drains.filter (fun e => e.id != d.id), acc := (u.tile t).mx.acc }
      seq := (s.tile t).seq.without d.id } ∧
    ∀ b r c, b < 16 → r < 512 → c < 192 → (u.tile t).mx.committed b r c =
      (if b = tf d.word 111 108 ∧ tf d.word 107 99 ≤ r ∧ r < tf d.word 107 99 + tf d.word 98 89
        then word (((s.tile t).seenBy d.id s.raceCoin).store.readLE (tf d.word 80 56 + 768 * (r - tf d.word 107 99) + 4 * c) 4)
        else (s.tile t).mx.committed b r c)) ∧
  (∀ (t : TileId) (p : Pass) (rest : List Pass) (id : Nat) (dw : TileWord) (sums : List (List Word)) (more : List (List (List Word))) (s : State),
    (s.tile t).mx.passes = p :: rest → p.armed = some (id, dw) → p.sums = sums :: more → (∀ d ∈ (s.tile t).mx.drains, (s.tile t).drainBlocked d = true) →
    (∀ q ∈ (s.tile t).mx.queue, q.id < p.id → top q.word ≠ 3 ∧ top q.word ≠ 6 ∧ top q.word ≠ 7) → sums.length ≤ 512 → (∀ r ∈ sums, r.length = 192) →
    let x := s.tile t
    let acc := tf p.word 111 108
    let last := p.committed + 1 = passBlocks p.word
    ∃ u m, exec (.streamBlockCommit t) s = .next u ∧ m = { x.mx with acc := (u.tile t).mx.acc, sel := (u.tile t).mx.sel } ∧
      let r := (Tile.drainRows { x.seenBy p.id s.raceCoin with mx := m } (s.tileAk6 t) dw 0 (512 * p.committed) (blockRows p.word p.committed)).1
      let now := (p.waiting ++ r.writes).takeWhile (fun w => !Tile.guarded { x with mx := (u.tile t).mx } w.1 w.2.length)
      let later := (p.waiting ++ r.writes).dropWhile (fun w => !Tile.guarded { x with mx := (u.tile t).mx } w.1 w.2.length)
      (u.tile t).store = (x.writeBy p.id s.raceCoin now).store ∧
      (u.tile t).mx.passes = (if last then rest else { p with sums := more, committed := p.committed + 1, waiting := later } :: rest) ∧
      (last → (u.tile t).mx.state acc = 3 ∧ (u.tile t).mx.drains = x.mx.drains ++ (if later = [] then [] else [⟨id, dw, true, some later⟩])) ∧
      (∀ r c v, (sums[r]?.bind (fun w => w[c]?)) = some v → (u.tile t).mx.committed acc r c =
        (let base := if tf p.word 115 115 = 1 then 0#32 else x.mx.committed acc r c
         posZero (flushSub (s.tileAk6 t) (if tf p.word 112 112 = 1 then fsub base v else fadd base v)))))

/-- VLAUNCH with legal fields and room enters the vector queue. VLAUNCH_START of the next launch whose program, as it sees it (R155), breaks no rule, whose streams lie in the store and meet no output of a launch in flight, marks it started and names its tap slots; a program that breaks a rule ends the run with ILLEGAL, one whose block or streams leave the store with STORE_RANGE. VLAUNCH_COMPLETE of the oldest started launch writes its elements, reductions and taps, on what it sees of the store (R155), where no VTAP follows it. VTAP with nothing before it writes the 16-byte record of each named slot and, with the clear bit, empties them; behind a launch it enters the queue. Nothing else of the machine changes but counts (R431) and tags (R433). -/
def Obligations.VectorEngine : Prop :=
  (∀ (t : TileId) (k a : Nat) (w : TileWord) (s : State), s.AtIssue t k 2 1 a w → vlaunchLegal w = .ok → (s.tile t).vecRoom = true → ∃ u, exec (.vlaunch t k) s = .next u ∧ s.Issues u t a w { s.tile t with
    vec := (s.tile t).vec ++ [{ id := (s.tile t).seq.nextId, word := w, pc := a }]
    seq := ((s.tile t).seq.numbered 2).left k }) ∧
  (∀ (t : TileId) (v : VecOp) (s : State), s.starts t = true → (s.tile t).vec.find? (fun v => !v.started) = some v → top v.word = 1 →
    let x := s.tile t
    let prog := tf v.word 87 63
    let y := x.seenBy v.id s.raceCoin
    let param := y.store.readN (tf v.word 62 38) 192
    let hdr := y.store.readN prog 16
    let n := min (recNat hdr 0 1) 64
    let ops := (List.range n).map (fun i => word (y.store.readLE (prog + 16 + 4 * i) 4))
    let rows := tf v.word 104 88
    let elems := tf v.word 119 105
    let v' : VecOp := { v with started := true, param := param, prog := ops }
    let inside := inStore prog (16 + 4 * n) = true
    let illegal := launchIllegal (s.tileAk6 t) x.taps hdr param ops rows elems = true
    let fresh := ∀ o r, s.tileRun t = some (o, r) → r.ending = none
    (fresh → headerIllegal hdr = true ∨ inside ∧ illegal → ∃ u, exec (.vlaunchStart t) s = .next u ∧ s.FaultsWith u t scIllegal) ∧
    (fresh → headerIllegal hdr = false ∧ (¬inside ∨ ¬illegal ∧ launchOutside param ops rows elems = true) →
      ∃ u, exec (.vlaunchStart t) s = .next u ∧ s.FaultsWith u t scStoreRange) ∧
    (¬illegal → launchOutside param ops rows elems = false → inside →
      (∀ y ∈ x.vec, y.started = true → ∀ o ∈ launchSpans y true, ∀ b ∈ launchSpans v' false, spansMeet o b = false) → ∃ u, exec (.vlaunchStart t) s = .next u ∧
      ({ s with fresh := u.fresh } : State).TileIs u t { x with vec := x.vec.map (fun y => if y.id = v.id then v' else y), taps := (u.tile t).taps } ∧
      ∀ m, (∃ o ∈ ops, isTap o = true ∧ ud o = m) → ((u.tile t).taps.get {} m).name = half (recNat param (144 + 2 * m) 2))) ∧
  (∀ (t : TileId) (v : VecOp) (rest : List VecOp) (s : State), (s.tile t).vec = v :: rest → v.started = true → (∀ y, rest.head? = some y → top y.word ≠ 2) →
    let x := s.tile t
    let y := x.seenBy v.id s.raceCoin
    ∃ u, exec (.vlaunchComplete t) s = .next u ∧ ({ s with fresh := u.fresh } : State).TileIs u t { x.writeBy v.id s.raceCoin (y.launch (s.tileAk6 t) v).1 with
      vec := rest
      taps := (y.launch (s.tileAk6 t) v).2
      seq := x.seq.without v.id } ∧ (x.quiet v.id = true → u.fresh = s.fresh)) ∧
  (∀ (t : TileId) (k a : Nat) (w : TileWord) (s : State), s.AtIssue t k 2 2 a w → vtapLegal w = .ok →
    let slots := bitList (tf w 118 111) 8
    let x := s.tile t
    (x.vec = [] → ∃ u, exec (.vtap t k) s = .next u ∧ s.Issues u t a w { x.writeAll (slots.map (fun n =>
        let p := x.taps.get {} n
        (tf w 88 64 + 16 * n, leBytes 2 p.name.toNat ++ [0#8, 0#8] ++ leBytes 4 p.count.toNat ++ leBytes 4 p.sumSq.toNat ++ leBytes 4 p.nonfinite.toNat))) with
      taps := if tf w 119 119 = 1 then x.taps.filter (fun (p : Nat × TapSlot) => !slots.contains p.1) else x.taps
      seq := ((x.seq.numbered 2).without x.seq.nextId).left k }) ∧
    (x.vecRoom = true → (∃ v rest, x.vec = v :: rest ∧ top v.word = 1) → ∃ u, exec (.vtap t k) s = .next u ∧ s.Issues u t a w { x with
      vec := x.vec ++ [{ id := x.seq.nextId, word := w, pc := a }]
      seq := (x.seq.numbered 2).left k }))

/-- DGET, DPUT and DMOVE at the window, with an aligned parameter block in the store and room in the queue: with illegal parameters they fault the run with ILLEGAL, with a zero count they retire without effect, with a store range outside the store they fault with STORE_RANGE, and DGET and DPUT with a device range beyond its object (a DPUT also with a read-only one) with DMA_RANGE and no access; else they enter the DMA queue, of which the first four transfers run, and device memory keeps its contents. DMA_TRANSFER_COMPLETE of a running DMOVE whose bytes do not overlap, or of a DGET whose reads succeed, writes exactly the bytes of its layout into tile store, on what it sees of it (R155); a DGET whose device read meets poison ends the run with POISON_READ; a DPUT writes its rows at the device address. In a run of full redundancy each row of a DPUT of one row is applied by the primary alone and kept for the other tile of the copy, or, where that keeps one of the same unit, compared with it: an equal one is taken off, a different one ends the run with CHECK (R405). Each leaves the queue. That a transfer reads its source, device memory included, at its completion is the model's reading (log 77), and so is the order of the checks at issue (log 30). -/
def Obligations.SkewingDma : Prop :=
  (∀ (t : TileId) (k a : Nat) (w : TileWord) (o : Nat × Nat × Nat) (run : ExecRun) (s : State), s.AtIssue t k 3 1 a w → s.tileRun t = some (o, run) →
    tf w 119 95 % 64 = 0 → tf w 94 0 = 0 → tf w 119 95 + 64 ≤ storeBytes → (s.tile t).dma.length < 16 →
    let r := (s.seenNow t).store.readN (tf w 119 95) 64
    let p := dmaParam r
    (dmaIllegal 1 r = true → ∃ u, exec (.dget t k) s = .next u ∧ s.FaultsWith u t scIllegal ∧ s.Finishes u t) ∧
    (dmaIllegal 1 r = false → p.rows = 0 ∨ p.cols = 0 → ∃ u, exec (.dget t k) s = .next u ∧ s.Issues u t a w { s.tile t with seq := (s.tile t).seq.left k }) ∧
    (dmaIllegal 1 r = false → p.rows ≠ 0 → p.cols ≠ 0 →
      (dmaRangeOk 1 p = false → ∃ u, exec (.dget t k) s = .next u ∧ s.FaultsWith u t scStoreRange ∧ s.Finishes u t) ∧
      (dmaRangeOk 1 p = true →
        let reachable := p.devSpan ≤ (s.resolve o.1 p.dev).extent ∧ (p.mx = true → p.scaleBytes ≤ (s.resolve o.1 p.scaleDev).extent)
        (¬reachable → ∃ u, exec (.dget t k) s = .next u ∧ s.FaultsWith u t scDmaRange ∧ s.Finishes u t ∧ u.mem = s.mem) ∧ 
        (reachable → ∃ u, exec (.dget t k) s = .next u ∧ u = { s with tiles := u.tiles, mem := u.mem, fresh := u.fresh } ∧ (∀ j, j ≠ t.val → u.tile j = s.tile j) ∧
          u.mem.data = s.mem.data ∧ u.tile t = { Tile.startDma { s.tile t with dma := (s.tile t).dma ++ [{ id := (s.tile t).seq.nextId, op := 1, pc := a, params := r, dev := dword (s.pinRef o.1 p.dev), scaleDev := dword (s.pinRef o.1 p.scaleDev), pf := decide (65536 < p.rows * p.rowBytes) }] } with
            seq := ((s.tile t).seq.numbered 3).left k
            pmc := (u.tile t).pmc
            pmcOvf := (u.tile t).pmcOvf })))) ∧
  (∀ (t : TileId) (k a : Nat) (w : TileWord) (o : Nat × Nat × Nat) (run : ExecRun) (s : State), s.AtIssue t k 3 2 a w → s.tileRun t = some (o, run) →
    tf w 119 95 % 64 = 0 → tf w 94 0 = 0 → tf w 119 95 + 64 ≤ storeBytes → (s.tile t).dma.length < 16 →
    let r := (s.seenNow t).store.readN (tf w 119 95) 64
    let p := dmaParam r
    (dmaIllegal 2 r = true → ∃ u, exec (.dput t k) s = .next u ∧ s.FaultsWith u t scIllegal ∧ s.Finishes u t) ∧
    (dmaIllegal 2 r = false → p.rows = 0 ∨ p.cols = 0 → ∃ u, exec (.dput t k) s = .next u ∧ s.Issues u t a w { s.tile t with seq := (s.tile t).seq.left k }) ∧
    (dmaIllegal 2 r = false → p.rows ≠ 0 → p.cols ≠ 0 →
      (dmaRangeOk 2 p = false → ∃ u, exec (.dput t k) s = .next u ∧ s.FaultsWith u t scStoreRange ∧ s.Finishes u t) ∧
      (dmaRangeOk 2 p = true →
        let reachable := p.devSpan ≤ (s.resolve o.1 p.dev).extent ∧ (p.mx = true → p.scaleBytes ≤ (s.resolve o.1 p.scaleDev).extent) ∧ s.readOnly (s.resolve o.1 p.dev) = false
        (¬reachable → ∃ u, exec (.dput t k) s = .next u ∧ s.FaultsWith u t scDmaRange ∧ s.Finishes u t ∧ u.mem = s.mem) ∧ 
        (reachable → ∃ u, exec (.dput t k) s = .next u ∧ u = { s with tiles := u.tiles, mem := u.mem, fresh := u.fresh } ∧ (∀ j, j ≠ t.val → u.tile j = s.tile j) ∧
          u.mem.data = s.mem.data ∧ u.tile t = { Tile.startDma { s.tile t with dma := (s.tile t).dma ++ [{ id := (s.tile t).seq.nextId, op := 2, pc := a, params := r, dev := dword (s.pinRef o.1 p.dev), scaleDev := dword (s.pinRef o.1 p.scaleDev), pf := false }] } with
            seq := ((s.tile t).seq.numbered 3).left k
            pmc := (u.tile t).pmc
            pmcOvf := (u.tile t).pmcOvf })))) ∧
  (∀ (t : TileId) (k a : Nat) (w : TileWord) (o : Nat × Nat × Nat) (run : ExecRun) (s : State), s.AtIssue t k 3 3 a w → s.tileRun t = some (o, run) →
    tf w 119 95 % 64 = 0 → tf w 94 0 = 0 → tf w 119 95 + 64 ≤ storeBytes → (s.tile t).dma.length < 16 →
    let r := (s.seenNow t).store.readN (tf w 119 95) 64
    let p := dmaParam r
    (dmaIllegal 3 r = true → ∃ u, exec (.dmove t k) s = .next u ∧ s.FaultsWith u t scIllegal ∧ s.Finishes u t) ∧
    (dmaIllegal 3 r = false → p.rows = 0 ∨ p.cols = 0 → ∃ u, exec (.dmove t k) s = .next u ∧ s.Issues u t a w { s.tile t with seq := (s.tile t).seq.left k }) ∧
    (dmaIllegal 3 r = false → p.rows ≠ 0 → p.cols ≠ 0 →
      (dmaRangeOk 3 p = false → ∃ u, exec (.dmove t k) s = .next u ∧ s.FaultsWith u t scStoreRange ∧ s.Finishes u t) ∧
      (dmaRangeOk 3 p = true →
        let reachable := True
        
        (reachable → ∃ u, exec (.dmove t k) s = .next u ∧ u = { s with tiles := u.tiles, mem := u.mem, fresh := u.fresh } ∧ (∀ j, j ≠ t.val → u.tile j = s.tile j) ∧
          u.mem.data = s.mem.data ∧ u.tile t = { Tile.startDma { s.tile t with dma := (s.tile t).dma ++ [{ id := (s.tile t).seq.nextId, op := 3, pc := a, params := r, dev := dword p.dev, scaleDev := dword p.scaleDev, pf := false }] } with
            seq := ((s.tile t).seq.numbered 3).left k
            pmc := (u.tile t).pmc
            pmcOvf := (u.tile t).pmcOvf })))) ∧
  (∀ (t : TileId) (i : Nat) (d : DmaOp) (o : Nat × Nat × Nat) (run : ExecRun) (s : State), (s.tile t).dma[i]? = some d → d.started = true → s.tileRun t = some (o, run) →
    let x := s.tile t
    let p := dmaParam d.params
    let done (u : State) := (∀ e ∈ (u.tile t).dma, e.id ≠ d.id) ∧ (∀ j, j ≠ t.val → u.tile j = s.tile j) ∧ (u.tile t).mx = x.mx ∧ (u.tile t).seq = x.seq.without d.id
    let y := x.seenBy d.id s.raceCoin
    let put (bs : List DmaByte) := (x.writeBy d.id s.raceCoin (bs.map (fun b => (b.addr, [b.val])))).store
    (d.op = 3 → let bs := p.bytes (fun off n => y.store.readN (p.dev + off) n) (fun off n => y.store.readN (p.scaleDev + off) n)
      x.guardedAny (bs.map (fun b => (b.addr, [b.val]))) = false →
      (∀ b ∈ bs, ∀ q ∈ b.src, ∀ e ∈ bs, e.addr ≠ (if q.1 = true then p.scaleDev else p.dev) + q.2) → ∃ u, exec (.dmaTransferComplete t i) s = .next u ∧
      (u.tile t).store = put bs ∧ done u ∧ u = { s with tiles := u.tiles, fresh := u.fresh } ∧ (x.quiet d.id = true → u.fresh = s.fresh)) ∧
    (let dev := s.resolveHeld o.1 d.dev.toNat
     let sc := s.resolveHeld o.1 d.scaleDev.toNat
     let ready := s.refWaits o.1 d.dev.toNat = false ∧ (p.mx = true → s.refWaits o.1 d.scaleDev.toNat = false)
     let rows := (List.range p.rows).map (fun i => (i * p.rowPitch, p.rowBytes))
     let bs := p.bytes (s.rawTarget dev) (s.rawTarget sc)
     (d.op = 1 → ready → x.guardedAny (bs.map (fun b => (b.addr, [b.val]))) = false → s.firstStop o.1 dev rows = none → (p.mx = true → s.firstStop o.1 sc [(0, p.scaleBytes)] = none) →
       ∃ u, exec (.dmaTransferComplete t i) s = .next u ∧ (u.tile t).store = put bs ∧ done u ∧ u.mem.data = s.mem.data ∧ u.host = s.host) ∧
     (d.op = 1 → ready → x.guardedAny (bs.map (fun b => (b.addr, [b.val]))) = false → s.firstStop o.1 dev rows = some stPoison → run.ending = none →
       ∃ u, exec (.dmaTransferComplete t i) s = .next u ∧ s.FaultsWith u t scPoisonRead ∧ u.mem.data = s.mem.data) ∧
     (d.op = 2 → s.refWaits o.1 d.dev.toNat true = false → (p.mx = true → s.refWaits o.1 d.scaleDev.toNat = false) → run.partner = false → s.readOnly dev = false →
       (∃ obj, dev.space = .dev obj) → ∃ u, exec (.dmaTransferComplete t i) s = .next u ∧ done u ∧ (u.tile t).store = x.store ∧
       let v := (List.range p.rows).foldl (fun (m : State) i => m.devWrite (dev.addr + i * p.rowPitch) (y.store.readN (p.ts + i * p.tsPitch) p.cols)) ((s.drew x d.id).touch dev)
       u.mem = v.mem ∧ u.host = v.host) ∧
     (∀ obj, d.op = 2 → s.refWaits o.1 d.dev.toNat true = false → (p.mx = true → s.refWaits o.1 d.scaleDev.toNat = false) → run.partner = true → s.readOnly dev = false →
       dev.space = .dev obj → p.rows = 1 → ∃ u, exec (.dmaTransferComplete t i) s = .next u ∧
       let row := y.store.readN p.ts p.cols
       let other := if t.val < 48 then t.val + 48 else t.val - 48
       let v := if 48 ≤ t.val then s else s.devWrite dev.addr row
       u.mem.data = v.mem.data ∧ (∀ e ∈ (u.tile t).dma, e.id ≠ d.id) ∧
       ((s.tile other).writes.find? (fun e => e.1 == 1000 + d.pc) = none → (u.tile t).writes = x.writes ++ [(1000 + d.pc, dev.addr, row)] ∧ u.run? o = some run) ∧
       ∀ e, (s.tile other).writes.find? (fun e => e.1 == 1000 + d.pc) = some e → (u.tile other).writes = (s.tile other).writes.erase e ∧
         (e = (1000 + d.pc, dev.addr, row) → u.run? o = some run) ∧
         (e ≠ (1000 + d.pc, dev.addr, row) → run.ending = none → ∃ n, u.run? o = some { run with ending := some { status := stCheck, secondary := 0#16, unit := half (t % 48), result := n } }))))

/-- EWAIT with legal fields and N above 0 at the head of the window makes the sequencer wait for its counter and N; with N = 0 it retires at once. While it waits nothing behind it stands in the window. EWAIT_RETIRE on a tile whose sequencer may go on changes nothing while the counter is below N; once it is at least N the counter holds the difference, every other counter keeps its value, and the sequencer goes on at the next instruction. No other part of the tile, and no other tile, changes but counts (R431). -/
def Obligations.EventWait : Prop :=
  (∀ (t : TileId) (k : Nat) (w : TileWord) (s : State), s.atHead t k 4 3 = some w → tf w 98 0 = 0 →
    (tf w 114 99 ≠ 0 → ∃ u, exec (.ewait t k) s = .next u ∧ s.Issues u t (s.tile t).seq.pc w { s.tile t with seq := { (s.tile t).seq with
      wait := 3
      waitCtr := tf w 119 115
      waitN := tf w 114 99 } }) ∧
    (tf w 114 99 = 0 → ∃ u, exec (.ewait t k) s = .next u ∧ s.Issues u t (s.tile t).seq.pc w { s.tile t with seq := (s.tile t).seq.left k })) ∧
  (∀ (t : TileId) (k : Nat) (s : State), (s.tile t).seq.wait = 3 → (s.tile t).seq.held.length ≤ k → s.window t k = .none) ∧
  (∀ (t : TileId) (s : State), s.issues t = true → (s.tile t).seq.wait = 3 → (s.tile t).seq.yielded = false →
    let q := (s.tile t).seq
    let v := (q.events.get 0#16 q.waitCtr).toNat
    (v < q.waitN → exec (.ewaitRetire t) s = .next s) ∧
    (q.waitN ≤ v → ∃ u, exec (.ewaitRetire t) s = .next u ∧ s.TileIs u t { s.tile t with seq := (u.tile t).seq } ∧
      ((u.tile t).seq.events.get 0#16 q.waitCtr).toNat = v - q.waitN ∧ (∀ c, c ≠ q.waitCtr → (u.tile t).seq.events.get 0#16 c = q.events.get 0#16 c) ∧
      (u.tile t).seq.wait = 0 ∧ (q.call = none → (u.tile t).seq.pc = q.pc + 16)))

/-- ESIGNAL with legal fields and N above 0 adds N to its own tile's counter, which stays at 65,535 with EV_SAT if it would pass it, or with REMOTE sends N to a tile of its run, whose counters do not change yet. ESIGNAL_REMOTE_ARRIVE of the oldest signal of that counter, on its own die or first on its way between two dies that a path joins, adds its N there and takes it off the way; of another it changes nothing. EFENCE with fewer than 32 marks marks the unfinished instructions of its units and leaves the window; with 32 it does not issue. EFENCE_COUNT of a mark whose instructions have all completed removes it and adds 1 to its counter, and of another changes nothing. That all signals between two dies arrive in the order they were sent, over the path that joins the dies, is the model's reading of R251 and R253 (log 106). -/
def Obligations.EventCounters : Prop :=
  (∀ (t : TileId) (k a : Nat) (w : TileWord) (s : State), s.AtIssue t k 4 1 a w → tf w 90 0 = 0 → tf w 114 99 ≠ 0 →
    (tf w 98 98 = 0 → tf w 97 91 = 0 → ∃ u, exec (.esignal t k) s = .next u ∧ s.Issues u t a w { s.tile t with seq := ((s.tile t).seq.addEvent (tf w 119 115) (tf w 114 99)).left k }) ∧
    (tf w 98 98 = 1 → ∀ o run, s.tileRun t = some (o, run) → run.partner = false → run.tiles.toNat.testBit (tf w 97 91) = true → ∃ u, exec (.esignal t k) s = .next u ∧
      ({ s with fabric := { s.fabric with signals := s.fabric.signals ++ [⟨t, tf w 97 91, tf w 119 115, tf w 114 99⟩] } } : State).Issues u t a w { s.tile t with
        seq := (s.tile t).seq.left k })) ∧
  (∀ (q : Seq) (c n : Nat), ((q.addEvent c n).events.get 0#16 c).toNat = min 65535 ((q.events.get 0#16 c).toNat + n) ∧
    (q.addEvent c n).evSat = (q.evSat || decide (65535 < (q.events.get 0#16 c).toNat + n)) ∧
    ∀ d, d ≠ c → (q.addEvent c n).events.get 0#16 d = q.events.get 0#16 d) ∧
  (∀ (t src : TileId) (ctr : Fin 32) (g : Signal) (s : State), s.fabric.signals.find? (fun g => g.src == src.val && g.dst == t.val && g.ctr == ctr.val) = some g →
    (s.signalFirst g = true → ∃ u, exec (.esignalRemoteArrive t src ctr) s = .next u ∧
      ({ s with fabric := { s.fabric with signals := s.fabric.signals.erase g } } : State).TileIs u t { s.tile t with seq := (s.tile t).seq.addEvent ctr g.n }) ∧
    (s.signalFirst g = false → exec (.esignalRemoteArrive t src ctr) s = .next s)) ∧
  (∀ (g : Signal) (s : State), s.signalFirst g = true ↔ (g.src / 12 = g.dst / 12 ∨ ((∃ p, cwPath s.fabric.cwDown (g.src / 12) (g.dst / 12) = some p) ∧
    s.fabric.signals.find? (fun x => x.src / 12 == g.src / 12 && x.dst / 12 == g.dst / 12) = some g))) ∧
  (∀ (t : TileId) (k a : Nat) (w : TileWord) (s : State), s.AtIssue t k 4 2 a w → tf w 114 99 = 0 → tf w 93 0 = 0 → tf w 98 94 ≠ 0 →
    let q := (s.tile t).seq
    (q.marks.length < 32 → ∃ u, exec (.efence t k) s = .next u ∧ s.Issues u t a w { s.tile t with
      seq := Seq.left { q with marks := q.marks ++ [⟨tf w 119 115, (q.busy.filter (fun b => (tf w 98 94).testBit b.2)).map (fun b => b.1)⟩] } k }) ∧
    (32 ≤ q.marks.length → k = q.held.length → ∃ u, exec (.efence t k) s = .next u ∧ s.TileIs u t { s.tile t with seq := { q with wait := 1 } })) ∧
  (∀ (t : TileId) (i : Nat) (m : Mark) (s : State), (s.tile t).seq.marks[i]? = some m →
    let q := (s.tile t).seq
    ((∀ n ∈ m.ids, ∀ b ∈ q.busy, b.1 ≠ n) → ∃ u, exec (.efenceCount t i) s = .next u ∧
      s.TileIs u t { s.tile t with seq := Seq.addEvent { q with marks := q.marks.eraseIdx i } m.counter 1 }) ∧
    ((∃ n ∈ m.ids, ∃ b ∈ q.busy, b.1 = n) → exec (.efenceCount t i) s = .next s))

/-- At the head of the window END stops the sequencer, and drops an armed drain unless a held instruction will still take it (R149; log 34); YIELD retires, and with a slice pending stops it until the slice has run; CALL with legal fields goes on in its block, and inside a block is ILLEGAL. TILE_PROGRAM_END of a tile whose END has retired takes it out of its run; with the last tile of an EXEC without overflow or redundancy the descriptor ends with OK and RESULT of R207. TILE_WATCHDOG of a tile that runs faults the run with WATCHDOG; with a vote in progress it discards the pass of the vote and what follows, and RESULT is that pass (R143). An undefined class or operation, or the end of the program without an END, faults it with ILLEGAL. -/
def Obligations.SequencerControl : Prop :=
  (∀ (t : TileId) (k : Nat) (w : TileWord) (s : State), s.atHead t k 6 1 = some w → tf w 119 0 = 0 → ∃ u, exec (.endInsn t k) s = .next u ∧ s.Issues u t (s.tile t).seq.pc w { s.tile t with seq := { (s.tile t).seq with
    ended := true
    wait := 4
    armed := if (s.tile t).seq.armedHeld = true then (s.tile t).seq.armed else none
    busy := if (s.tile t).seq.armedHeld = true then (s.tile t).seq.busy else (s.tile t).seq.busy.filter (fun b => !(s.tile t).seq.armed.any (fun d => d.1 == b.1)) } }) ∧
  (∀ (t : TileId) (k : Nat) (w : TileWord) (s : State), s.atHead t k 6 2 = some w → tf w 119 0 = 0 → ∃ u, exec (.yieldInsn t k) s = .next u ∧ s.Issues u t (s.tile t).seq.pc w { s.tile t with
    seq := if (s.tile t).slice = .pending then { (s.tile t).seq.left k with yielded := true, wait := 5 } else (s.tile t).seq.left k }) ∧
  (∀ (t : TileId) (k : Nat) (w : TileWord) (s : State), s.atHead t k 6 3 = some w →
    ((s.tile t).seq.call = none → tf w 119 89 = 0 → tf w 88 64 % 16 = 0 → 0 < tf w 63 51 → tf w 63 51 ≤ 4096 → tf w 50 0 = 0 → tf w 88 64 + 16 * tf w 63 51 ≤ storeBytes →
      ∃ u, exec (.callInsn t k) s = .next u ∧ s.Issues u t (s.tile t).seq.pc w { s.tile t with seq := { (s.tile t).seq with
        call := some (tf w 88 64, tf w 63 51, 0)
        pc := (s.tile t).seq.pc + 16
        wait := 0 } }) ∧
    ((s.tile t).seq.call ≠ none → ∃ u, exec (.callInsn t k) s = .next u ∧ s.FaultsWith u t scIllegal ∧ s.Finishes u t)) ∧
  (∀ (t : TileId) (o : Nat × Nat × Nat) (r : ExecRun) (d : Desc) (s : State), s.tileRun t = some (o, r) → r.stopping = false → r.running.getLsbD t = true →
    (s.tile t).ended = true → (s.ctx o.1).find o.2.1 o.2.2 = some d → d.ending = none →
    (r.running ≠ BitVec.ofNat 96 (2 ^ t.val) → ∃ u, exec (.tileProgramEnd t) s = .next u ∧ u.run? o = some { r with running := r.running &&& ~~~(BitVec.ofNat 96 (2 ^ t.val)) } ∧
      (u.tile t).seq.owner = none ∧ (u.tile t).store = (s.tile t).store ∧ ∀ j, j ≠ t.val → u.tile j = s.tile j) ∧
    (r.running = BitVec.ofNat 96 (2 ^ t.val) → d.work = .exec r → r.overflow = none → (∀ j, (s.tile j).writes = []) → ∃ u, exec (.tileProgramEnd t) s = .next u ∧
      (u.tile t).seq.owner = none ∧ u.Ended o.1 d { status := stOk, result := dword r.result })) ∧
  (∀ (t : TileId) (o : Nat × Nat × Nat) (r : ExecRun) (s : State), s.tileRun t = some (o, r) → r.stopping = false → r.running.getLsbD t = true →
    (s.tile t).slice ≠ .running → ∃ u, exec (.tileWatchdog t) s = .next u ∧ s.FaultsWith u t scWatchdog ∧ ((s.tile t).mx.vote = none → s.Finishes u t) ∧
    ∀ v p, (s.tile t).mx.vote = some v → (s.tile t).mx.passes.find? (fun p => p.id == v.pass) = some p → p.pc < 2 ^ 32 →
      (u.tile t).mx.passes = (s.tile t).mx.passes.filter (fun q => decide (q.id < p.id)) ∧ (u.run? o).bind (fun r => r.ending.map (fun e => e.result)) = some (dword p.pc)) ∧
  (∀ (t : TileId) (k : Nat) (w : TileWord) (s : State), ∀ a, s.window t k = .insn a w → opDefined (tclass w) (top w) = false → ∃ u, exec (.illegalTileInstruction t k) s = .next u ∧ s.FaultsWith u t scIllegal ∧ s.Finishes u t) ∧
  (∀ (t : TileId) (k : Nat) (s : State), s.window t k = .past → ∃ u, exec (.illegalTileInstruction t k) s = .next u ∧ s.FaultsWith u t scIllegal ∧ s.Finishes u t)

/-- PDISPATCH with legal fields and room enters the prep queue. PDISPATCH_START of the oldest, its clusters idle, gives each of them the image from tile store, as it is seen (R155), at cluster address 0 (unless it holds that image) and starts its 32 cores at 0x10000 with sp 0x2000 and a0 to a3 the core number, the argument, the cluster and the tile; other clusters keep their state. HX.DONE stops its core; while another core of the dispatch runs only that, with the last one the dispatch leaves its clusters and the instruction completes. HX.SIG adds to its tile's counter; HX.TIME and HX.TIMEH read the time base. -/
def Obligations.PrepDispatches : Prop :=
  (∀ (t : TileId) (k a : Nat) (w : TileWord) (s : State), s.AtIssue t k 5 1 a w → tf w 92 89 = 0 → tf w 88 64 % 64 = 0 → 0 < tf w 63 48 → tf w 63 48 ≤ 1024 →
    tf w 47 23 % 4 = 0 → tf w 22 0 = 0 → tf w 119 93 ≠ 0 → tf w 88 64 + 64 * tf w 63 48 ≤ storeBytes → (s.tile t).prep.length < 4 →
    ∃ u, exec (.pdispatch t k) s = .next u ∧ s.Issues u t a w { s.tile t with
      prep := (s.tile t).prep ++ [⟨(s.tile t).seq.nextId, w⟩]
      seq := ((s.tile t).seq.numbered 4).left k }) ∧
  (∀ (t : TileId) (p : PrepOp) (rest : List PrepOp) (s : State), (s.tile t).prep = p :: rest → s.starts t = true →
    (∀ c, c < 27 → (tf p.word 119 93).testBit c = true → (s.cluster t c).idle = true) → ∃ u, exec (.pdispatchStart t) s = .next u ∧
    ({ s with fresh := u.fresh } : State).TileIs u t { s.tile t with prep := rest, clusters := (u.tile t).clusters } ∧ ∀ c, c < 27 →
      ((tf p.word 119 93).testBit c = false → u.cluster t c = s.cluster t c) ∧
      ((tf p.word 119 93).testBit c = true → (u.cluster t c).dispatch = some p.id ∧
        let a := tf p.word 88 64
        let n := 64 * tf p.word 63 48
        (u.cluster t c).mem = (if (s.cluster t c).image = some (a, n) then (s.cluster t c).mem else (s.cluster t c).mem.writeN 0 ((s.seenNow t).store.readN a n)) ∧
        ∀ i, i < 32 → (u.core t c i).running = true ∧ (u.core t c i).pc = 0x10000#32 ∧ (u.core t c i).priv = (s.core t c i).priv ∧ (u.core t c i).get 2 = 0x2000#32 ∧
          (u.core t c i).get 10 = word i ∧ (u.core t c i).get 11 = word (tf p.word 47 23) ∧ (u.core t c i).get 12 = word c ∧ (u.core t c i).get 13 = word t)) ∧
  (∀ (t : TileId) (cl : Fin 27) (i : Fin 32) (q : CoreReq) (s : State), s.AtExt t cl i 27 q → q.core.puts = [] → (∃ j, j ≠ i.val ∧ (s.core t cl j).running = true) →
    ∃ u, exec (.hxDone t cl i) s = .next u ∧ s.CoreIs u t cl i { q.core with running := false, pc := q.core.pc + word q.len }) ∧
  (∀ (t : TileId) (cl : Fin 27) (i : Fin 32) (q : CoreReq) (s : State), s.AtExt t cl i 27 q → q.core.puts = [] → ∀ id, (s.cluster t cl).dispatch = some id →
    (∀ c ∈ (s.tile t).dispatchClusters cl, ∀ x ∈ (s.cluster t c).cores, x.2.running = true → c = cl.val ∧ x.1 = i.val) →
    (s.cluster t cl).cores.Pairwise (fun x y => x.1 < y.1) → ∃ u, exec (.hxDone t cl i) s = .next u ∧ (u.core t cl i).running = false ∧ (u.cluster t cl).dispatch = none ∧
      (u.tile t).seq = (s.tile t).seq.without id ∧ (u.tile t).store = (s.tile t).store) ∧
  (∀ (t : TileId) (cl : Fin 27) (i : Fin 32) (q : CoreReq) (s : State), s.AtExt t cl i 28 q → ∃ u, exec (.hxSig t cl i) s = .next u ∧ u = { s with tiles := u.tiles } ∧
    (u.tile t).seq = (s.tile t).seq.addEvent (q.rs1.toNat % 32) (q.rs2.toNat % 65536) ∧ (u.tile t).store = (s.tile t).store ∧ (u.tile t).mx = (s.tile t).mx ∧
    u.core t cl i = { q.core with pc := q.core.pc + 4#32 }) ∧
  (∀ (t : TileId) (cl : Fin 27) (i : Fin 32) (q : CoreReq) (s : State), s.AtExt t cl i 29 q → ∃ u, exec (.hxTime t cl i) s = .next u ∧ s.CoreRet u q (word (s.time.toNat % 2 ^ 32))) ∧
  (∀ (t : TileId) (cl : Fin 27) (i : Fin 32) (q : CoreReq) (s : State), s.AtExt t cl i 30 q → ∃ u, exec (.hxTimeh t cl i) s = .next u ∧ s.CoreRet u q (word (s.time.toNat / 2 ^ 32)))

/-- A running core at an ADDI writes rs1 + imm (x0 stays 0), at an ADD rs1 + rs2; JAL writes the link and jumps, BEQ jumps exactly if its registers are equal; LW of an aligned address in private or cluster memory, in tile store (as it is seen, R155) or, through the device window, in an object of the context writes the four bytes there to rd, and SW stores them there (a store in cluster memory ends the reservations of other cores that it meets); each goes on and changes nothing else, but that the window touches its object. A window address of no object traps with cause 5 or 7, a poisoned read ends the run with POISON_READ, a store to a read-only object with DMA_RANGE. An instruction that traps, by PREP_CORE_INSTRUCTION or PREP_TRAP, where no trap is recorded yet, records cluster, core, cause, pc and trap value, stops every core of the dispatch's clusters and ends the run with PREP_FAULT; ECALL traps with cause 11, an undefined word with cause 2 and its bits. A store through the window in a run of full redundancy is left out here. The base instructions are those of the RISC-V specification, PRESUMED (log 35). -/
def Obligations.PrepCores : Prop :=
  (∀ (t : TileId) (cl : Fin 27) (i : Fin 32) (q : CoreReq) (s : State), s.coreFetch t cl i = .req q → iOp q.w = 0x13 → iF3 q.w = 0 → ∃ u, exec (.prepCoreInstruction t cl i) s = .next u ∧ s.CoreRet u q (q.rs1 + immI q.w)) ∧
  (∀ (t : TileId) (cl : Fin 27) (i : Fin 32) (q : CoreReq) (s : State), s.coreFetch t cl i = .req q → iOp q.w = 0x33 → iF3 q.w = 0 → iF7 q.w = 0 → ∃ u, exec (.prepCoreInstruction t cl i) s = .next u ∧ s.CoreRet u q (q.rs1 + q.rs2)) ∧
  (∀ (t : TileId) (cl : Fin 27) (i : Fin 32) (q : CoreReq) (s : State), s.coreFetch t cl i = .req q → iOp q.w = 0x6F → ∃ u, exec (.prepCoreInstruction t cl i) s = .next u ∧
    s.CoreIs u t cl i { q.core.set (iRd q.w) (q.core.pc + word q.len) with pc := q.core.pc + immJ q.w }) ∧
  (∀ (t : TileId) (cl : Fin 27) (i : Fin 32) (q : CoreReq) (s : State), s.coreFetch t cl i = .req q → iOp q.w = 0x63 → iF3 q.w = 0 → ∃ u, exec (.prepCoreInstruction t cl i) s = .next u ∧
    s.CoreIs u t cl i { q.core with pc := q.core.pc + (if q.rs1 = q.rs2 then immB q.w else word q.len) }) ∧
  (∀ (t : TileId) (cl : Fin 27) (i : Fin 32) (q : CoreReq) (s : State), s.coreFetch t cl i = .req q → iOp q.w = 0x03 → iF3 q.w = 2 →
    let a := (q.rs1 + immI q.w).toNat
    a % 4 = 0 →
    (a + 4 ≤ 0x2000 → ∃ u, exec (.prepCoreInstruction t cl i) s = .next u ∧ s.CoreRet u q (word (q.core.priv.readLE a 4))) ∧
    (0x10000 ≤ a → a + 4 ≤ 0x50000 → ∃ u, exec (.prepCoreInstruction t cl i) s = .next u ∧ s.CoreRet u q (word ((s.cluster t cl).mem.readLE (a - 0x10000) 4))) ∧
    (0x1000000 ≤ a → a + 4 ≤ 0x1000000 + storeBytes → ∃ u, exec (.prepCoreInstruction t cl i) s = .next u ∧
      ({ s with fresh := u.fresh } : State).CoreRet u q (word ((s.seenNow t).store.readLE (a - 0x1000000) 4)) ∧ ((s.tile t).quiet (s.tile t).seq.nextId = true → u.fresh = s.fresh)) ∧
    (0x40000000 ≤ a → a + 4 ≤ 0x80000000 →
      let v := (q.core.getCsr 0x7E2).toNat + 2 ^ 32 * (q.core.getCsr 0x7E3).toNat + (a - 0x40000000)
      (∀ id, s.windowObj q.o v 4 = some id → s.refWaits q.o.1 (id * 2 ^ 40) = false →
        ((s.devRead v 4).stop = none → ∃ u, exec (.prepCoreInstruction t cl i) s = .next u ∧
          ({ s with mem := u.mem, fresh := u.fresh } : State).CoreRet u q (word (leNat (s.devBytes v 4))) ∧ u.mem.data = s.mem.data) ∧
        ((s.devRead v 4).stop ≠ none → ∀ o r, s.tileRun t = some (o, r) → r.ending = none → ∃ u, exec (.prepCoreInstruction t cl i) s = .next u ∧ s.FaultsWith u t scPoisonRead)) ∧
      (s.windowObj q.o v 4 = none → ∀ o r, (s.tile t).prepFault.getLsbD 31 = false → s.tileRun t = some (o, r) → r.ending = none →
        ∃ u, exec (.prepCoreInstruction t cl i) s = .next u ∧ s.CoreTraps u t cl i 5 ∧ (u.tile t).prepTval = word a))) ∧
  (∀ (t : TileId) (cl : Fin 27) (i : Fin 32) (q : CoreReq) (s : State), s.coreFetch t cl i = .req q → iOp q.w = 0x23 → iF3 q.w = 2 →
    let a := (q.rs1 + immS q.w).toNat
    a % 4 = 0 →
    (a + 4 ≤ 0x2000 → ∃ u, exec (.prepCoreInstruction t cl i) s = .next u ∧
      s.CoreIs u t cl i { q.core with priv := q.core.priv.writeLE a 4 q.rs2.toNat, pc := q.core.pc + word q.len }) ∧
    (0x10000 ≤ a → a + 4 ≤ 0x50000 → ∃ u, exec (.prepCoreInstruction t cl i) s = .next u ∧ u = { s with tiles := u.tiles } ∧ (∀ k, k ≠ t.val → u.tile k = s.tile k) ∧
      (u.tile t).store = (s.tile t).store ∧ (u.tile t).mx = (s.tile t).mx ∧ (∀ c, c ≠ cl.val → u.cluster t c = s.cluster t c) ∧
      (u.cluster t cl).mem = (s.cluster t cl).mem.writeLE (a - 0x10000) 4 q.rs2.toNat ∧ u.core t cl i = { q.core with pc := q.core.pc + word q.len } ∧
      ∀ j, j ≠ i.val → u.core t cl j = { s.core t cl j with resv := if (s.core t cl j).resv.any (fun r => decide (r < a + 4 ∧ a < r + 4)) = true then none else (s.core t cl j).resv }) ∧
    (0x1000000 ≤ a → a + 4 ≤ 0x1000000 + storeBytes → ∃ u, exec (.prepCoreInstruction t cl i) s = .next u ∧ u = { s with tiles := u.tiles } ∧ (∀ k, k ≠ t.val → u.tile k = s.tile k) ∧
      (u.tile t).store = (s.tile t).store.writeLE (a - 0x1000000) 4 q.rs2.toNat ∧ (u.tile t).mx = (s.tile t).mx ∧ (u.tile t).seq = (s.tile t).seq ∧
      (∀ c, (u.cluster t c).mem = (s.cluster t c).mem) ∧ u.core t cl i = { q.core with pc := q.core.pc + word q.len }) ∧
    (0x40000000 ≤ a → a + 4 ≤ 0x80000000 →
      let v := (q.core.getCsr 0x7E2).toNat + 2 ^ 32 * (q.core.getCsr 0x7E3).toNat + (a - 0x40000000)
      (∀ id o r, s.windowObj q.o v 4 = some id → s.refWaits q.o.1 (id * 2 ^ 40) true = false → s.tileRun t = some (o, r) → r.partner = false →
        (s.readOnly ⟨.dev id, v, 0⟩ = false → ∃ u, exec (.prepCoreInstruction t cl i) s = .next u ∧ u.mem = ((s.devWrite v (leBytes 4 q.rs2.toNat)).touch ⟨.dev id, v, 0⟩).mem ∧
          (u.tile t).store = (s.tile t).store ∧ (u.tile t).mx = (s.tile t).mx ∧ u.core t cl i = { q.core with pc := q.core.pc + word q.len } ∧ (∀ k, k ≠ t.val → u.tile k = s.tile k)) ∧
        (s.readOnly ⟨.dev id, v, 0⟩ = true → r.ending = none → ∃ u, exec (.prepCoreInstruction t cl i) s = .next u ∧ s.FaultsWith u t scDmaRange ∧ u.mem = s.mem)) ∧
      (s.windowObj q.o v 4 = none → ∀ o r, (s.tile t).prepFault.getLsbD 31 = false → s.tileRun t = some (o, r) → r.ending = none →
        ∃ u, exec (.prepCoreInstruction t cl i) s = .next u ∧ s.CoreTraps u t cl i 7 ∧ (u.tile t).prepTval = word a))) ∧
  (∀ (t : TileId) (cl : Fin 27) (i : Fin 32) (q : CoreReq) (s : State) (c : Nat) (v : Option Word) (o : Nat × Nat × Nat) (r : ExecRun), s.coreFetch t cl i = .req q → s.coreAny q = .trap c v → (s.tile t).prepFault.getLsbD 31 = false →
    c < 2 ^ 16 → s.tileRun t = some (o, r) → r.ending = none → ∃ u, exec (.prepTrap t cl i) s = .next u ∧ s.CoreTraps u t cl i c ∧ (∀ x, v = some x → (u.tile t).prepTval = x)) ∧
  (∀ (t : TileId) (cl : Fin 27) (i : Fin 32) (q : CoreReq) (s : State) (o : Nat × Nat × Nat) (r : ExecRun), s.coreFetch t cl i = .req q → q.w = 0x73 → (s.tile t).prepFault.getLsbD 31 = false → s.tileRun t = some (o, r) → r.ending = none →
    ∃ u, exec (.prepCoreInstruction t cl i) s = .next u ∧ s.CoreTraps u t cl i 11) ∧
  (∀ (t : TileId) (cl : Fin 27) (i : Fin 32) (q : CoreReq) (s : State) (o : Nat × Nat × Nat) (r : ExecRun), s.coreFetch t cl i = .req q → iOp q.w = 0x57 → (s.tile t).prepFault.getLsbD 31 = false → s.tileRun t = some (o, r) →
    r.ending = none → ∃ u, exec (.prepCoreInstruction t cl i) s = .next u ∧ s.CoreTraps u t cl i 2 ∧ (u.tile t).prepTval = word q.bits)

/-- A core at PX.NEXT writes the present word of its stream and steps the stream, with its block's last word to the next counter; PX.SKIP adds rs1 to the counter and starts at word 0; PX.UNI writes (2 (x div 256) + 1) 2^-25 where FP32 holds it, and else one of the two FP32 values beside it that lie below 1, the same for every use of that word. Each HF instruction writes the FP32 result of the vector engine's operation in full precision; HF.CVTWS rounds to the nearest integer, clamped, with 0 for NaN. DG.INIT sets the eight digest CSRs to the SHA-256 initial values, DG.BLK puts them through one 64-byte block. Each goes on at the next instruction. Which of the two values PX.UNI gives is free (log 38); SHA-256 is that of the standard (log 12). -/
def Obligations.PrepNumbers : Prop :=
  (∀ (t : TileId) (cl : Fin 27) (i : Fin 32) (q : CoreReq) (s : State), s.AtExt t cl i 0 q → ∃ u, exec (.pxNext t cl i) s = .next u ∧ (let k := iRs2 q.w
    let n := (q.core.getCsr (0x7C6 + 8 * k)).toNat % 4
    let c := q.core.pxCounter k
    s.CoreIs u t cl i { (q.core.pxSet k (if n = 3 then (c + 1) % 2 ^ 128 else c) ((n + 1) % 4)).set (iRd q.w) (q.core.pxWord k) with pc := q.core.pc + 4#32 })) ∧
  (∀ (t : TileId) (cl : Fin 27) (i : Fin 32) (q : CoreReq) (s : State), s.AtExt t cl i 1 q → ∃ u, exec (.pxSkip t cl i) s = .next u ∧ s.CoreIs u t cl i { q.core.pxSet (iRs2 q.w) ((q.core.pxCounter (iRs2 q.w) + q.rs1.toNat) % 2 ^ 128) 0 with pc := q.core.pc + 4#32 }) ∧
  (∀ (t : TileId) (cl : Fin 27) (i : Fin 32) (q : CoreReq) (s : State), s.AtExt t cl i 2 q → ∃ u, exec (.pxUni t cl i) s = .next u ∧ s.CoreRet u q (pxUniValue q.rs1)) ∧
  (∀ x : Word, (2 * (x.toNat / 256) + 1 < 2 ^ 24 → pxUniValue x = packF .nearest false (2 * (x.toNat / 256) + 1) (-25)) ∧
    (2 ^ 24 ≤ 2 * (x.toNat / 256) + 1 → ∃ n, (n = x.toNat / 256 ∨ n = x.toNat / 256 + 1 ∧ n < 2 ^ 24) ∧ pxUniValue x = packF .nearest false n (-24))) ∧
  (∀ (t : TileId) (cl : Fin 27) (i : Fin 32) (q : CoreReq) (s : State), s.AtExt t cl i 3 q → ∃ u, exec (.hfAdd t cl i) s = .next u ∧ s.CoreRet u q (fadd q.rs1 q.rs2)) ∧
  (∀ (t : TileId) (cl : Fin 27) (i : Fin 32) (q : CoreReq) (s : State), s.AtExt t cl i 4 q → ∃ u, exec (.hfSub t cl i) s = .next u ∧ s.CoreRet u q (fsub q.rs1 q.rs2)) ∧
  (∀ (t : TileId) (cl : Fin 27) (i : Fin 32) (q : CoreReq) (s : State), s.AtExt t cl i 5 q → ∃ u, exec (.hfMul t cl i) s = .next u ∧ s.CoreRet u q (fmul q.rs1 q.rs2)) ∧
  (∀ (t : TileId) (cl : Fin 27) (i : Fin 32) (q : CoreReq) (s : State), s.AtExt t cl i 6 q → ∃ u, exec (.hfDiv t cl i) s = .next u ∧ s.CoreRet u q (fdiv q.rs1 q.rs2)) ∧
  (∀ (t : TileId) (cl : Fin 27) (i : Fin 32) (q : CoreReq) (s : State), s.AtExt t cl i 7 q → ∃ u, exec (.hfSqrt t cl i) s = .next u ∧ s.CoreRet u q (fsqrt q.rs1)) ∧
  (∀ (t : TileId) (cl : Fin 27) (i : Fin 32) (q : CoreReq) (s : State), s.AtExt t cl i 8 q → ∃ u, exec (.hfMin t cl i) s = .next u ∧ s.CoreRet u q (fmin q.rs1 q.rs2)) ∧
  (∀ (t : TileId) (cl : Fin 27) (i : Fin 32) (q : CoreReq) (s : State), s.AtExt t cl i 9 q → ∃ u, exec (.hfMax t cl i) s = .next u ∧ s.CoreRet u q (fmax q.rs1 q.rs2)) ∧
  (∀ (t : TileId) (cl : Fin 27) (i : Fin 32) (q : CoreReq) (s : State), s.AtExt t cl i 10 q → ∃ u, exec (.hfExp t cl i) s = .next u ∧ s.CoreRet u q (fexp false q.rs1)) ∧
  (∀ (t : TileId) (cl : Fin 27) (i : Fin 32) (q : CoreReq) (s : State), s.AtExt t cl i 11 q → ∃ u, exec (.hfLog t cl i) s = .next u ∧ s.CoreRet u q (flog false q.rs1)) ∧
  (∀ (t : TileId) (cl : Fin 27) (i : Fin 32) (q : CoreReq) (s : State), s.AtExt t cl i 12 q → ∃ u, exec (.hfLt t cl i) s = .next u ∧ s.CoreRet u q (if flt q.rs1 q.rs2 = true then 1#32 else 0#32)) ∧
  (∀ (t : TileId) (cl : Fin 27) (i : Fin 32) (q : CoreReq) (s : State), s.AtExt t cl i 13 q → ∃ u, exec (.hfLe t cl i) s = .next u ∧ s.CoreRet u q (if fle q.rs1 q.rs2 = true then 1#32 else 0#32)) ∧
  (∀ (t : TileId) (cl : Fin 27) (i : Fin 32) (q : CoreReq) (s : State), s.AtExt t cl i 14 q → ∃ u, exec (.hfEq t cl i) s = .next u ∧ s.CoreRet u q (if feq q.rs1 q.rs2 = true then 1#32 else 0#32)) ∧
  (∀ (t : TileId) (cl : Fin 27) (i : Fin 32) (q : CoreReq) (s : State), s.AtExt t cl i 15 q → ∃ u, exec (.hfCvtSW t cl i) s = .next u ∧ s.CoreRet u q (f32OfInt q.rs1.toInt)) ∧
  (∀ (t : TileId) (cl : Fin 27) (i : Fin 32) (q : CoreReq) (s : State), s.AtExt t cl i 16 q → ∃ u, exec (.hfCvtWS t cl i) s = .next u ∧ s.CoreRet u q (match roundInt q.rs1 with
    | some x => BitVec.ofInt 32 (max (-2147483648) (min 2147483647 x))
    | none => if isNan q.rs1 = true then 0#32 else if signOf q.rs1 = true then 0x80000000#32 else 0x7FFFFFFF#32)) ∧
  (∀ (t : TileId) (cl : Fin 27) (i : Fin 32) (q : CoreReq) (s : State), s.AtExt t cl i 25 q → ∃ u, exec (.dgInit t cl i) s = .next u ∧ (u.core t cl i).pc = q.core.pc + 4#32 ∧ (∀ n h, sha256Init[n]? = some h → (u.core t cl i).getCsr (0x7E8 + n) = word h) ∧
    s.CoreIs u t cl i { q.core with csr := (u.core t cl i).csr, pc := (u.core t cl i).pc }) ∧
  (∀ (t : TileId) (cl : Fin 27) (i : Fin 32) (q : CoreReq) (s : State), s.AtExt t cl i 26 q → ∀ bs, s.coreRead q q.rs1.toNat 64 = .data bs → ∃ u, exec (.dgBlk t cl i) s = .next u ∧ (u.core t cl i).pc = q.core.pc + 4#32 ∧ u.mem.data = s.mem.data ∧ (u.tile t).store = (s.tile t).store ∧
    ∀ n h, (sha256Block ((List.range 8).map (fun n => (q.core.getCsr (0x7E8 + n)).toNat)) bs)[n]? = some h → (u.core t cl i).getCsr (0x7E8 + n) = word h)

/-- For a sequence of the context: LT.LD writes its length (0 if it is not live), LT.ADD writes the old length and adds rs2 where the new one stays between 0 and the limit, PL.MAP writes the entry that holds the position or all ones. For an entry of the context PL.LDL and PL.LDH write its low and high half, and PL.ST replaces it by the 8 bytes at rs2 in private or cluster memory (all zeros where they say EMPTY) where R301 and R302 allow the value, and else traps with cause 7. SC.PUT to a valid, unshared page of a live writable object queues the bytes, as they are seen (R155); SC.WAIT writes what is queued, where no path is missing. A sequence of no range of the context traps with cause 5, LT.ADD with 7. A run of full redundancy is left out of LT.ADD, PL.ST and SC.PUT here. The causes of these traps, and the moment a queued SC.PUT reaches memory, are the model's readings (logs 46, 39). -/
def Obligations.PrepTables : Prop :=
  (∀ (t : TileId) (cl : Fin 27) (i : Fin 32) (q : CoreReq) (s : State), s.AtExt t cl i 17 q → s.ownsSeq q.o.1 q.rs1.toNat = true → q.rs1.toNat ≤ 65535 → ∃ u, exec (.ltLd t cl i) s = .next u ∧ s.CoreRet u q (word (if (s.seqEntry q.rs1.toNat).live = true then (s.seqEntry q.rs1.toNat).len else 0))) ∧
  (∀ (t : TileId) (cl : Fin 27) (i : Fin 32) (q : CoreReq) (s : State) (o : Nat × Nat × Nat) (r : ExecRun), s.AtExt t cl i 17 q → s.ownsSeq q.o.1 q.rs1.toNat = false → (s.tile t).prepFault.getLsbD 31 = false → s.tileRun t = some (o, r) → r.ending = none →
    ∃ u, exec (.ltLd t cl i) s = .next u ∧ s.CoreTraps u t cl i 5 ∧ u.ledger = s.ledger) ∧
  (∀ (t : TileId) (cl : Fin 27) (i : Fin 32) (q : CoreReq) (s : State), s.AtExt t cl i 18 q → s.ownsSeq q.o.1 q.rs1.toNat = true → q.rs1.toNat ≤ 65535 → ∀ o r, s.tileRun t = some (o, r) → r.partner = false → (s.seqEntry q.rs1.toNat).live = true →
    0 ≤ ((s.seqEntry q.rs1.toNat).len : Int) + q.rs2.toInt → ((s.seqEntry q.rs1.toNat).len : Int) + q.rs2.toInt ≤ s.lenLimit q.o.1 (s.seqEntry q.rs1.toNat) → ∃ u, exec (.ltAdd t cl i) s = .next u ∧ u.ledger.entries = s.ledger.entries ∧
    u.seqEntry q.rs1.toNat = { s.seqEntry q.rs1.toNat with len := (((s.seqEntry q.rs1.toNat).len : Int) + q.rs2.toInt).toNat } ∧
    (∀ n, n ≠ q.rs1.toNat → u.seqEntry n = s.seqEntry n) ∧ { s with ledger := u.ledger }.CoreRet u q (word (s.seqEntry q.rs1.toNat).len)) ∧
  (∀ (t : TileId) (cl : Fin 27) (i : Fin 32) (q : CoreReq) (s : State) (o : Nat × Nat × Nat) (r : ExecRun), s.AtExt t cl i 18 q → s.ownsSeq q.o.1 q.rs1.toNat = false → (s.tile t).prepFault.getLsbD 31 = false → s.tileRun t = some (o, r) → r.ending = none →
    ∃ u, exec (.ltAdd t cl i) s = .next u ∧ s.CoreTraps u t cl i 7 ∧ u.ledger = s.ledger) ∧
  (∀ (t : TileId) (cl : Fin 27) (i : Fin 32) (q : CoreReq) (s : State), s.AtExt t cl i 19 q → s.ownsSeq q.o.1 q.rs1.toNat = true → q.rs1.toNat ≤ 65535 → ∃ u, exec (.plMap t cl i) s = .next u ∧ s.CoreRet u q ((let e := s.seqEntry q.rs1.toNat
    let k := q.rs2.toNat / s.kvT q.o.1
    let at_ := e.base + k * s.planes q.o.1
    if e.live = true ∧ q.rs2.toNat < 2 ^ 24 ∧ k < e.cap ∧ entryValid (s.entry at_) = true then word at_ else 0xFFFFFFFF#32))) ∧
  (∀ (t : TileId) (cl : Fin 27) (i : Fin 32) (q : CoreReq) (s : State), s.AtExt t cl i 20 q → s.ownsEntries q.o.1 q.rs1.toNat 1 = true → q.rs1.toNat ≤ 2097151 → ∃ u, exec (.plLdl t cl i) s = .next u ∧ s.CoreRet u q (word ((s.entry q.rs1.toNat).toNat % 2 ^ 32))) ∧
  (∀ (t : TileId) (cl : Fin 27) (i : Fin 32) (q : CoreReq) (s : State), s.AtExt t cl i 21 q → s.ownsEntries q.o.1 q.rs1.toNat 1 = true → q.rs1.toNat ≤ 2097151 → ∃ u, exec (.plLdh t cl i) s = .next u ∧ s.CoreRet u q (word ((s.entry q.rs1.toNat).toNat / 2 ^ 32))) ∧
  (∀ (t : TileId) (cl : Fin 27) (i : Fin 32) (q : CoreReq) (s : State), s.AtExt t cl i 22 q → s.ownsEntries q.o.1 q.rs1.toNat 1 = true → q.rs1.toNat ≤ 2097151 → ∀ o r, s.tileRun t = some (o, r) → r.partner = false → (q.rs2.toNat + 8 ≤ 0x2000 ∨ 0x10000 ≤ q.rs2.toNat ∧ q.rs2.toNat + 8 ≤ 0x50000) →
    ∀ (bs : List Byte) (v : DWord), s.coreRead q q.rs2.toNat 8 = .data bs → v = dword (leNat bs) → fld v.toNat 44 17 = 0 → fld v.toNat 62 2 < 2 → s.inRange q.o.1 (entryObj v) = true →
    s.ledger.entries.Pairwise (fun x y => x.1 < y.1) → ∃ u, exec (.plSt t cl i) s = .next u ∧ u.entry q.rs1.toNat = (if entryValid v = true then v else 0#64) ∧ (∀ n, n ≠ q.rs1.toNat → u.entry n = s.entry n) ∧
    u.ledger.seqs = s.ledger.seqs ∧ { s with ledger := u.ledger }.CoreIs u t cl i { q.core with pc := q.core.pc + 4#32 }) ∧
  (∀ (t : TileId) (cl : Fin 27) (i : Fin 32) (q : CoreReq) (s : State) (o : Nat × Nat × Nat) (r : ExecRun), s.AtExt t cl i 22 q → (q.rs2.toNat + 8 ≤ 0x2000 ∨ 0x10000 ≤ q.rs2.toNat ∧ q.rs2.toNat + 8 ≤ 0x50000) → ∀ (bs : List Byte), s.coreRead q q.rs2.toNat 8 = .data bs →
    (s.ownsEntries q.o.1 q.rs1.toNat 1 = false ∨ 2 ≤ fld (dword (leNat bs)).toNat 62 2 ∨ fld (dword (leNat bs)).toNat 44 17 ≠ 0 ∨ s.inRange q.o.1 (entryObj (dword (leNat bs))) = false) → (s.tile t).prepFault.getLsbD 31 = false → s.tileRun t = some (o, r) → r.ending = none →
    ∃ u, exec (.plSt t cl i) s = .next u ∧ s.CoreTraps u t cl i 7 ∧ u.ledger = s.ledger) ∧
  (∀ (t : TileId) (cl : Fin 27) (i : Fin 32) (q : CoreReq) (s : State), s.AtExt t cl i 23 q → ∀ (v : DWord) (x : Obj) (len off : Nat), v = s.entry q.rs2.toNat → s.obj? (entryObj v) = some x →
    len = (if (q.core.getCsr 0x7E0).toNat = 0 then 65536 else (q.core.getCsr 0x7E0).toNat) → off = (q.core.getCsr 0x7E1).toNat → q.rs1.toNat + len ≤ storeBytes →
    q.rs2.toNat ≤ 2097151 → s.ownsEntries q.o.1 q.rs2.toNat 1 = true → entryValid v = true → entryShared v = false → x.ctx = q.o.1 → x.state ≠ 2 → x.readOnly = false →
    off + len ≤ s.pageBytes q.o.1 → entryPage v * s.pageBytes q.o.1 + off + len ≤ x.size → ∀ o r, s.tileRun t = some (o, r) → r.partner = false → ∃ u, exec (.scPut t cl i) s = .next u ∧ u.mem.data = s.mem.data ∧ (∀ c j, ¬(c = cl.val ∧ j = i.val) → u.core t c j = s.core t c j) ∧
    u.core t cl i = { q.core with
      puts := q.core.puts ++ [(x.ubase + entryPage v * s.pageBytes q.o.1 + off, (s.seenNow t).store.readN q.rs1.toNat len)]
      pc := q.core.pc + 4#32 }) ∧
  (∀ (t : TileId) (cl : Fin 27) (i : Fin 32) (q : CoreReq) (s : State), s.AtExt t cl i 24 q → s.putsWait q.core = false → ∃ u, exec (.scWait t cl i) s = .next u ∧ u.mem = (s.flushPuts t cl i).mem ∧ u.core t cl i = { q.core with puts := [], pc := q.core.pc + 4#32 } ∧ (u.tile t).store = (s.tile t).store)

/-- CREATE for which a base and frames are found makes the object with those frames, LIVE, touched, at a base that meets no other object, its slow-tier blocks marked as zero-filled, and ends with RESULT that base. RELEASE makes it invisible, its frames held until the other started work has completed. PROMOTE whose blocks are in HBM and DEMOTE whose blocks are in the slow tier end at once with RESULT 0 (PROMOTE with PIN pins); DEMOTE of a one-block object in HBM starts its move to the lowest free slow-tier frame, or ends with NOSPACE if there is none. With frames enough, PROMOTE starts the moves of its slow-tier blocks to free frames of the object's stacks, DEMOTE those of its HBM blocks to the lowest free slow-tier frames, and REHOME those of HBM blocks outside the new mask, which it sets, to free frames of it; each is then in progress. REHOME with nothing to move sets the mask and advances the epoch. SET_FLAGS sets PIN and READ_ONLY; LIFT returns a quarantined object to service. A failed check changes nothing but the descriptor. That the lowest free frame is taken is the model's choice (log 16). -/
def Obligations.PlaceOperations : Prop :=
  (∀ (c : CtxId) (q : RingId) (p : Word) (d : Desc) (s s' : State) (b : Nat) (fs : List Nat), s.Passes c q p d (placeChk 1 c) → isPlace 1 d = true → s.freeBase (ceilDiv (d.num 24 8) blockBytes) = some b →
    let o : Obj := { ubase := b, size := d.num 24 8, ctx := c, cls := d.num 17 1, pin := bitOf (placeFlags d) 0, readOnly := bitOf (placeFlags d) 2,
                      stackMask := BitVec.ofNat 16 (stackMaskOf (d.num 40 2)), touch := s.touchNow }
    State.drawNew c (placeObj d) (stackMaskOf (d.num 40 2)) (bitOf (placeFlags d) 1) (ceilDiv (d.num 24 8) blockBytes)
      (s.setObj (placeObj d) { o with promoting := 1 }) (lowestStack (stackMaskOf (d.num 40 2))) [] = .done s' fs true →
    ∃ t, exec (.placeCreate c q p) s = .next t ∧ t.Ended c d { status := stOk, result := dword b } ∧ t.obj? (placeObj d) = some { o with frames := fs } ∧
      o.state = 1 ∧ t.mem.data = s'.mem.data ∧ (∀ i, i < fs.length → isHbm (fs.getD i 0) = false → b / blockBytes + i ∈ t.mem.zeroed) ∧
      (∀ x ∈ s.mem.objs, b + blockBytes * o.blocks ≤ x.2.ubase ∨ x.2.ubase + blockBytes * x.2.blocks ≤ b)) ∧
  (∀ (c : CtxId) (q : RingId) (p : Word) (d : Desc) (s : State) (o : Obj), s.Passes c q p d (placeChk 2 c) → isPlace 2 d = true → s.obj? (placeObj d) = some o → ∃ t, exec (.placeRelease c q p) s = .next t ∧ t.Ended c d { status := stOk } ∧
    t.obj? (placeObj d) = some { o with
      state := 2
      touch := s.touchNow
      waits := (s.ctx c).startsOf (fun e => decide (e.ring ≠ d.ring ∨ e.pos ≠ d.pos)) } ∧ (∀ k, k ≠ placeObj d → t.obj? k = s.obj? k) ∧ t.mem.data = s.mem.data) ∧
  (∀ (c : CtxId) (q : RingId) (p : Word) (d : Desc) (s : State) (o : Obj), s.Passes c q p d (placeChk 3 c) → isPlace 3 d = true → s.obj? (placeObj d) = some o → o.state = 1 → (∀ b, b < o.blocks → isHbm (o.frames.getD b 0) = true ∧ s.moving (placeObj d) b = false) →
    ∃ t, exec (.placePromote c q p) s = .next t ∧ t.Ended c d { status := stOk } ∧
      t.obj? (placeObj d) = some { o with touch := s.touchNow, pin := o.pin || bitOf (placeFlags d) 0 } ∧ ∀ k, k ≠ placeObj d → t.obj? k = s.obj? k) ∧
  (∀ (c : CtxId) (q : RingId) (p : Word) (d : Desc) (s : State) (o : Obj), s.Passes c q p d (placeChk 4 c) → isPlace 4 d = true → s.obj? (placeObj d) = some o → o.state = 1 → (∀ b, b < o.blocks → isHbm (o.frames.getD b 0) = false ∧ s.moving (placeObj d) b = false) →
    ∃ t, exec (.placeDemote c q p) s = .next t ∧ t.Ended c d { status := stOk } ∧
      t.obj? (placeObj d) = some { o with touch := s.touchNow } ∧ ∀ k, k ≠ placeObj d → t.obj? k = s.obj? k) ∧
  (∀ (c : CtxId) (q : RingId) (p : Word) (d : Desc) (s : State) (o : Obj) (f : Nat), s.Passes c q p d (placeChk 4 c) → isPlace 4 d = true → s.obj? (placeObj d) = some o → o.state = 1 → o.blocks = 1 → isHbm (o.frames.getD 0 0) = true → s.moving (placeObj d) 0 = false →
    s.slowRoom c = true → s.freeSlow = some f → ∃ t, exec (.placeDemote c q p) s = .next t ∧ t.mem.migs = s.mem.migs ++ [⟨placeObj d, 0, f, []⟩] ∧
      (∃ y, (t.ctx c).find d.ring d.pos = some y ∧ y.ending = none ∧ y.start = some s.nextStart) ∧ t.mem.data = s.mem.data) ∧
  (∀ (c : CtxId) (q : RingId) (p : Word) (d : Desc) (s : State) (o : Obj), s.Passes c q p d (placeChk 4 c) → isPlace 4 d = true → s.obj? (placeObj d) = some o → o.state = 1 → o.blocks = 1 → isHbm (o.frames.getD 0 0) = true → s.moving (placeObj d) 0 = false →
    s.slowRoom c = false ∨ s.freeSlow = none → ∃ t, exec (.placeDemote c q p) s = .next t ∧ t.Ended c d { status := stNospace } ∧ t.mem.migs = s.mem.migs ∧ t.mem.data = s.mem.data) ∧
  (∀ (c : CtxId) (q : RingId) (p : Word) (d : Desc) (s : State) (o : Obj) (bs : List Nat), s.Passes c q p d (placeChk 3 c) → isPlace 3 d = true → s.obj? (placeObj d) = some o → o.state = 1 →
    bs = (if bitOf (placeFlags d) 0 = true then List.range o.blocks else namedBlocks d o).filter (fun b => !isHbm (o.frames.getD b 0)) → bs ≠ [] →
    (∀ b, s.moving (placeObj d) b = false) → s.hbmFree (stackMaskOf o.stackMask.toNat) bs.length → ∃ t fs, exec (.placePromote c q p) s = .next t ∧
      s.Moves t c d (placeObj d) { o with touch := s.touchNow, promoting := o.promoting + 1, pinning := if bitOf (placeFlags d) 0 = true then o.pinning + 1 else o.pinning } bs fs ∧
      ∀ f ∈ fs, s.poolFrame f = true ∧ (stackMaskOf o.stackMask.toNat).testBit (stackOf f) = true) ∧
  (∀ (c : CtxId) (q : RingId) (p : Word) (d : Desc) (s : State) (o : Obj) (bs : List Nat), s.Passes c q p d (placeChk 4 c) → isPlace 4 d = true → s.obj? (placeObj d) = some o → o.state = 1 → bs = (namedBlocks d o).filter (fun b => isHbm (o.frames.getD b 0)) → bs ≠ [] →
    (∀ b, s.moving (placeObj d) b = false) → s.mem.objs.Pairwise (fun x y => x.1 < y.1) → bs.length ≤ s.freeSlowCount →
    (fld (s.reg (rSlowLimit c)) 0 24 = 0 ∨ s.slowUse c + bs.length ≤ fld (s.reg (rSlowLimit c)) 0 24) → ∃ t fs, exec (.placeDemote c q p) s = .next t ∧
      s.Moves t c d (placeObj d) { o with touch := s.touchNow } bs fs ∧ fs.Pairwise (fun x y => x < y) ∧
      ∀ f ∈ fs, hbmFrames ≤ f ∧ f < hbmFrames + s.slowTotal ∧ ∀ g, hbmFrames ≤ g → g < f → g ∈ s.usedFrames ∨ g ∈ fs) ∧
  (∀ (c : CtxId) (q : RingId) (p : Word) (d : Desc) (s : State) (o : Obj) (bs : List Nat), s.Passes c q p d (placeChk 5 c) → isPlace 5 d = true → s.obj? (placeObj d) = some o → o.state = 1 →
    bs = (List.range o.blocks).filter (fun b => isHbm (o.frames.getD b 0) && !(stackMaskOf (d.num 40 2)).testBit (stackOf (o.frames.getD b 0))) → bs ≠ [] →
    (∀ b, s.moving (placeObj d) b = false) → s.hbmFree (stackMaskOf (d.num 40 2)) bs.length → ∃ t fs, exec (.placeRehome c q p) s = .next t ∧
      s.Moves t c d (placeObj d) { o with touch := s.touchNow, stackMask := BitVec.ofNat 16 (stackMaskOf (d.num 40 2)) } bs fs ∧ (t.ctx c).epoch = (s.ctx c).epoch ∧
      ∀ f ∈ fs, s.poolFrame f = true ∧ (stackMaskOf (d.num 40 2)).testBit (stackOf f) = true) ∧
  (∀ (c : CtxId) (q : RingId) (p : Word) (d : Desc) (s : State) (o : Obj), s.Passes c q p d (placeChk 5 c) → isPlace 5 d = true → s.obj? (placeObj d) = some o → o.state = 1 →
    (∀ b, b < o.blocks → isHbm (o.frames.getD b 0) = true → (stackMaskOf (d.num 40 2)).testBit (stackOf (o.frames.getD b 0)) = true) → (s.ctx c).newer = [] → (s.ctx c).pair = none →
    ∃ t, exec (.placeRehome c q p) s = .next t ∧ t.Ended c d { status := stOk } ∧ (t.ctx c).epoch = nextEpoch (s.ctx c).epoch ∧
      (t.obj? (placeObj d)).map (fun o => o.stackMask.toNat) = some (stackMaskOf (d.num 40 2))) ∧
  (∀ (c : CtxId) (q : RingId) (p : Word) (d : Desc) (s : State) (o : Obj), s.Passes c q p d (placeChk 6 c) → isPlace 6 d = true → s.obj? (placeObj d) = some o → ∃ t, exec (.placeSetFlags c q p) s = .next t ∧ t.Ended c d { status := stOk } ∧
    t.obj? (placeObj d) = some { o with
      touch := s.touchNow
      pin := bitOf (placeFlags d) 0
      readOnly := bitOf (placeFlags d) 2 } ∧ (∀ k, k ≠ placeObj d → t.obj? k = s.obj? k) ∧ t.mem.data = s.mem.data) ∧
  (∀ (c : CtxId) (q : RingId) (p : Word) (d : Desc) (s : State) (o : Obj), s.Passes c q p d (placeChk 7 c) → isPlace 7 d = true → s.obj? (placeObj d) = some o → ∃ t, exec (.placeLift c q p) s = .next t ∧ t.Ended c d { status := stOk } ∧
    t.obj? (placeObj d) = some (if o.state = 3 then { o with touch := s.touchNow, state := 1, poisoned := false } else { o with touch := s.touchNow }) ∧
    ∀ k, k ≠ placeObj d → t.obj? k = s.obj? k) ∧
  (∀ (c : CtxId) (q : RingId) (p : Word) (d : Desc) (s : State) (e : Ending), isPlace 2 d = true → s.Fails c q p d (placeChk 2 c) e → ∃ t, exec (.placeRelease c q p) s = .next t ∧ t.Ended c d e ∧
    t = { s with ctxs := t.ctxs, nextStart := s.nextStart + 1 })

/-- RELEASE_FRAMES_FREE of a released object on which nothing started before still runs removes it: its bytes in HBM read zero, every other byte and object is as before. MIGRATION_SWITCH of a block whose copy may end, with no failing read of the slow tier in it, while no move has a block without a frame and no other block lies in a retired frame, makes the block point at its new frame and takes it out of the moves. FRAME_CLEARED takes the frame off the list to clear, where no block lies in a retired frame. PREFETCH_PLAN that passes its checks, whose plan reads whole and whose records are as R240 gives, stores its steps, items and lead and ends with OK; with a bad record it ends with FORMAT and stores nothing. -/
def Obligations.BlocksAndFrames : Prop :=
  (∀ (id : Nat) (o : Obj) (s : State), s.obj? id = some o → o.state = 2 → (s.ctx o.ctx).allDone o.waits = true → s.mem.objs.Pairwise (fun x y => x.1 < y.1) →
    ∃ t, exec (.releaseFramesFree id) s = .next t ∧ t = { s with mem := t.mem, ctxs := t.ctxs } ∧ t.obj? id = none ∧ (∀ k, k ≠ id → t.obj? k = s.obj? k) ∧
      (∀ a, o.ubase ≤ a → a < o.ubase + blockBytes * o.blocks → t.mem.data.read a = 0#8) ∧
      (∀ a, a < o.ubase ∨ o.ubase + blockBytes * o.blocks ≤ a → t.mem.data.read a = s.mem.data.read a) ∧
      (∀ f ∈ o.frames, isHbm f = true → f ∉ s.flash.retired → f ∈ t.mem.clearing)) ∧
  (∀ (id blk : Nat) (o : Obj) (m : Mig) (s : State), s.mem.migs.find? (fun m => m.obj == id && m.blk == blk) = some m → s.migReady m = true → s.obj? id = some o → blk < o.frames.length → (s.failLines o blk = [] ∨ s.zeroFilled (o.block blk) = true) →
    (∀ x ∈ s.ctxs, (∀ j ∈ x.2.pfJobs, j.left = []) ∧ ∀ d ∈ x.2.descs, ∀ r, d.work = .place r → r.job.left = []) →
    (∀ f ∈ s.flash.retired, f ≠ m.frame ∧ ∀ x ∈ s.mem.objs, ∀ b, x.2.frames[b]? = some f → x.1 = id ∧ b = blk) →
    ∃ t, exec (.migrationSwitch id blk) s = .next t ∧ (t.obj? id).map (fun o => o.frame blk) = some m.frame ∧ t.moving id blk = false) ∧
  (∀ (f : Nat) (s : State), s.noRetiredBlocks → exec (.frameCleared f) s = .next { s with mem := { s.mem with clearing := s.mem.clearing.filter (fun g => g != f) } }) ∧
  (∀ (c : CtxId) (q : RingId) (p : Word) (d : Desc) (s : State), s.Passes c q p d (planChk c) → d.opcode = 7 →
    let nst := d.num 28 2
    let nit := d.num 30 2
    let s1 := (s.beginDesc c d).touchRefs c [d.num 16 8]
    let g := s1.readTarget c (s1.resolve c (d.num 16 8)) (16 * nst + 32 * nit)
    let sr := records 16 nst g.data
    let ir := records 32 nit (g.data.drop (16 * nst))
    g.stop = none →
    (sr.all (s.planStepOk c nit) = true → ir.all (s.planItemOk c) = true → ∃ t pl, exec (.prefetchPlan c q p) s = .next t ∧ t.Ended c d { status := stOk } ∧
      (t.ctx c).plan = some pl ∧ pl.lead = d.num 32 1 ∧ pl.steps.length = nst ∧ pl.items.length = nit ∧ pl.cursor = none ∧
      (∀ (i : Nat) (r : List Byte), sr[i]? = some r → (pl.steps[i]?).map (fun (x : PfStep) => x.first) = some (recNat r 8 4)) ∧ t.mem = s1.mem) ∧
    (¬(sr.all (s.planStepOk c nit) = true ∧ ir.all (s.planItemOk c) = true) → ∃ t, exec (.prefetchPlan c q p) s = .next t ∧
      t.Ended c d { status := stFormat, secondary := 0x8010#16 } ∧ (t.ctx c).plan = (s.ctx c).plan ∧ t.mem = s1.mem))

/-- In stage 4, within one block: a BAR4 read of an object without poison returns its bytes and changes only its touch, of a poisoned line sends a poisoned TLP, of no object returns ones and is counted; a write to a writable object is the write of those bytes to device memory, and to a read-only object or none is only counted. ECC_CORRECTED counts for its stack, and the row's eighth error in 24 hours retires its HBM frame. UNCORRECTABLE_ERROR in HBM is counted, poisons its line, quarantines the object and retires the frame; PATROL_SCRUB does that for what it finds, and nothing while off. SLOW_READ_FAIL without a second path poisons the lines read and quarantines. The last two are stated while no block moves, the last while no block lies in a retired frame; that data stay, where besides a spare frame is ready. -/
def Obligations.WindowAndMemoryErrors : Prop :=
  (∀ (off n id : Nat) (o : Obj) (s : State), s.chip.stage = 4 → off < s.mem.barW → s.objAt (s.winBase + off) = some (id, o) → (s.winBase + off) % blockBytes + n ≤ blockBytes →
    ((s.devRead (s.winBase + off) n).stop = none → exec (.bar4Read off n) s = .next ((s.touchObj id).emit (.readData (s.devRead (s.winBase + off) n).data)) ∧
      (s.devRead (s.winBase + off) n).data = s.devBytes (s.winBase + off) n) ∧
    ((s.devRead (s.winBase + off) n).stop ≠ none → exec (.bar4Read off n) s = .next (((s.reach (s.winBase + off) n).touchObj id).emit .poisonedTlp))) ∧
  (∀ (off n : Nat) (s : State), s.chip.stage = 4 → off < s.mem.barW → s.objAt (s.winBase + off) = none → (s.winBase + off) % blockBytes + n ≤ blockBytes →
    exec (.bar4Read off n) s = .next { s with
      chip := { s.chip with errors := s.chip.errors + 1 }
      out := s.out ++ [.readData (List.replicate n 0xFF#8)] }) ∧
  (∀ (off : Nat) (bs : List Byte) (s : State), s.chip.stage = 4 → off < s.mem.barW → (s.winBase + off) % blockBytes + bs.length ≤ blockBytes →
    (∀ id o, s.objAt (s.winBase + off) = some (id, o) → o.readOnly = false → exec (.bar4Write off bs) s = .next ((s.devWrite (s.winBase + off) bs).touchObj id)) ∧
    ((s.objAt (s.winBase + off) = none ∨ ∃ x, s.objAt (s.winBase + off) = some x ∧ x.2.readOnly = true) →
      exec (.bar4Write off bs) s = .next { s with chip := { s.chip with errors := s.chip.errors + 1 } })) ∧
  (∀ (st : StackId) (row f : Nat) (s : State),
    let n := ((s.mem.eccRows.get [] (2 ^ 21 * st.val + row)).filter (fun x => decide ((s.time - x).toNat < 86400 * 10 ^ 9))).length
    ∃ t, exec (.eccCorrected st row f) s = .next t ∧
    (t.mem.eccCorrected.get 0#32 st).toNat = min 0xFFFFFFFF ((s.mem.eccCorrected.get 0#32 st).toNat + 1) ∧
    (n < 7 → t.mem.data = s.mem.data ∧ t.mem.poison = s.mem.poison ∧ t.mem.objs = s.mem.objs ∧ t.flash.retired = s.flash.retired) ∧
    (isHbm f = true → 7 ≤ n → f ∈ t.flash.retired)) ∧
  (∀ (a id : Nat) (o : Obj) (s : State), s.blockOwner a = some (id, o) → s.obj? id = some o → o.state = 1 → s.noMoves →
    let f := o.frames.getD ((a - o.ubase) / blockBytes) hbmFrames
    isHbm f = true → ∃ t, exec (.uncorrectableError a) s = .next t ∧ a / 64 ∈ t.mem.poison ∧ f ∈ t.flash.retired ∧ (s.spareReady → t.mem.data = s.mem.data) ∧
      (t.obj? id).map (fun o => (o.state, o.poisoned)) = some (3, true) ∧
      (t.mem.eccUncorrected.get 0#16 (stackOf f)).toNat = min 65535 ((s.mem.eccUncorrected.get 0#16 (stackOf f)).toNat + 1) ∧
      (bitOf (s.reg rScrub) 31 = true → exec (.patrolScrub [a]) s = .next t)) ∧
  (∀ (l : List Nat) (s : State), bitOf (s.reg rScrub) 31 = false → exec (.patrolScrub l) s = .next s) ∧
  (∀ (a n id : Nat) (o : Obj) (ok : Bool) (s : State), s.blockOwner a = some (id, o) → s.obj? id = some o → o.state = 1 → s.noMoves → s.noRetiredBlocks → isHbm (o.frames.getD ((a - o.ubase) / blockBytes) 0) = false →
    ((ok = false ∨ s.hostA.presents .pf = false ∨ s.hostB.presents .pf = false) → ∃ t, exec (.slowReadFail a n ok) s = .next t ∧ t.mem.data = s.mem.data ∧
      (t.obj? id).map (fun o => (o.state, o.poisoned)) = some (3, true) ∧
      (∀ l, a / 64 ≤ l → 64 * l < a + n → 64 * l < o.ubase + blockBytes * o.blocks → l ∈ t.mem.poison)) ∧
    (ok = true → s.hostA.presents .pf = true → s.hostB.presents .pf = true → exec (.slowReadFail a n ok) s = .next s))

/-- In stage 4, by physical function 0: an object, ledger or sequence range is set if it fits its table, meets no other context's and leaves nothing of the context outside, and else only CFG_ERR is set; a floor is set if it does not rise or the floors then fit the pool, else CFG_ERR; a slow-tier base of a region in use sets CFG_ERR, of another is held rounded down to a block; a size that is whole, within 16 TiB in all and clear of the other regions puts base and size in force, else CFG_ERR. CTX_KV_LAYOUT is set in Idle with no live sequence, T a multiple of 64 above 0 and PLANES above 0, else nothing. By a virtual function the owner's writes change nothing. That a floor may be lowered while the floors pass a shrunk pool is the model's reading of R237 (log 121). -/
def Obligations.MemoryConfiguration : Prop :=
  (∀ (c : CtxId) (v : DWord) (s : State), s.chip.stage = 4 →
    let b := fld v.toNat 0 19
    let n := fld v.toNat 32 20
    let ok := b + n ≤ 524288 ∧ (∀ k, k < 64 → k ≠ c.val → rangesMeet b n (fld (s.reg (rObjRange k)) 0 19) (fld (s.reg (rObjRange k)) 32 20) = false) ∧
      ∀ o ∈ s.mem.objs, o.2.ctx = c.val → b ≤ o.1 ∧ o.1 < b + n
    (ok → exec (.memCtxObjRangeWrite .pf c v) s = .next { s with regs := s.regs.set (rObjRange c) (dword (b + n * 2 ^ 32)) }) ∧
    (¬ok → exec (.memCtxObjRangeWrite .pf c v) s = .next { s with mem := { s.mem with cfgErr := true } })) ∧
  (∀ (c : CtxId) (v : Word) (s : State), s.chip.stage = 4 →
    (fld v.toNat 0 20 ≤ s.floor c ∨ s.floorSum + fld v.toNat 0 20 ≤ s.poolSize + s.floor c → exec (.memCtxFloorWrite .pf c v) s = .next { s with regs := s.regs.set (rFloor c) (dword (fld v.toNat 0 20)) }) ∧
    (s.floor c < fld v.toNat 0 20 → s.poolSize + s.floor c < s.floorSum + fld v.toNat 0 20 → exec (.memCtxFloorWrite .pf c v) s = .next { s with mem := { s.mem with cfgErr := true } })) ∧
  (∀ (c : CtxId) (v : DWord) (s : State), s.chip.stage = 4 →
    let b := fld v.toNat 0 21
    let n := fld v.toNat 32 22
    let ok := b + n ≤ 2097152 ∧ (∀ k, k < 64 → k ≠ c.val → rangesMeet b n (s.entryLo k) (s.entryN k) = false) ∧
      ∀ x ∈ s.ledger.entries, s.entryLo c ≤ x.1 → x.1 < s.entryLo c + s.entryN c → b ≤ x.1 ∧ x.1 < b + n
    (ok → exec (.memCtxLedgerWrite .pf c v) s = .next { s with regs := s.regs.set (rLedgerRange c) (dword (b + n * 2 ^ 32)) }) ∧
    (¬ok → exec (.memCtxLedgerWrite .pf c v) s = .next { s with mem := { s.mem with cfgErr := true } })) ∧
  (∀ (c : CtxId) (v : DWord) (s : State), s.chip.stage = 4 →
    let b := fld v.toNat 0 16
    let n := fld v.toNat 32 17
    let ok := b + n ≤ 65536 ∧ (∀ k, k < 64 → k ≠ c.val → rangesMeet b n (s.seqLo k) (s.seqN k) = false) ∧
      ∀ x ∈ s.ledger.seqs, x.2.live = true → s.ownsSeq c x.1 = true → b ≤ x.1 ∧ x.1 < b + n
    (ok → exec (.memCtxSeqWrite .pf c v) s = .next { s with regs := s.regs.set (rSeqRange c) (dword (b + n * 2 ^ 32)) }) ∧
    (¬ok → exec (.memCtxSeqWrite .pf c v) s = .next { s with mem := { s.mem with cfgErr := true } })) ∧
  (∀ (n : Fin 16) (v : DWord) (s : State), s.chip.stage = 4 →
    (s.regionInUse n = false → exec (.memSlowBaseWrite .pf n v) s = .next { s with regs := s.regs.set (rSlowBase n) (dword (v.toNat / blockBytes * blockBytes)) }) ∧
    (s.regionInUse n = true → exec (.memSlowBaseWrite .pf n v) s = .next { s with mem := { s.mem with cfgErr := true } })) ∧
  (∀ (n : Fin 16) (v : DWord) (s : State), s.chip.stage = 4 →
    let size := v.toNat % 2 ^ 45
    let base := s.reg (rSlowBase n)
    let ok := s.regionInUse n = false ∧ size % blockBytes = 0 ∧ ((((List.range 16).filter (fun k => k != n.val)).map (fun k => s.reg (rSlowSize k))).sum + size ≤ 2 ^ 44) ∧
      ∀ k, k < 16 → k ≠ n.val → 0 < size → 0 < s.reg (rSlowSize k) → ¬(base < s.slowIova k + s.reg (rSlowSize k) ∧ s.slowIova k < base + size)
    (ok → ∃ t, exec (.memSlowSizeWrite .pf n v) s = .next t ∧ t.regs = s.regs.set (rSlowSize n) (dword size) ∧ t.slowIova n = base ∧
      (∀ k, k ≠ n.val → t.slowIova k = s.slowIova k) ∧ t.mem.data = s.mem.data) ∧
    (¬ok → exec (.memSlowSizeWrite .pf n v) s = .next { s with mem := { s.mem with cfgErr := true } })) ∧
  (∀ (f : Func) (c : CtxId) (v : Word) (s : State), s.chip.stage = 4 → s.holds f c = true →
    let t := fld v.toNat 0 16
    let pl := fld v.toNat 16 12
    let ok := (s.ctx c).state = .idle ∧ s.liveSeqs c = [] ∧ 0 < pl ∧ t % 64 = 0 ∧ 0 < t
    (ok → exec (.ctxKvLayoutWrite f c v) s = .next { s with regs := s.regs.set (rKvLayout c) (dword (t + pl * 2 ^ 16 + fld v.toNat 30 2 * 2 ^ 30)) }) ∧
    (¬ok → exec (.ctxKvLayoutWrite f c v) s = .next s)) ∧
  (∀ (k c : CtxId) (n : Fin 16) (v : DWord) (w : Word) (s : State), exec (.memCtxFloorWrite (.vf k) c w) s = .next s ∧ exec (.memCtxObjRangeWrite (.vf k) c v) s = .next s ∧ exec (.memCtxLedgerWrite (.vf k) c v) s = .next s ∧
    exec (.memCtxSeqWrite (.vf k) c v) s = .next s ∧ exec (.memSlowBaseWrite (.vf k) n v) s = .next s ∧ exec (.memSlowSizeWrite (.vf k) n v) s = .next s)

/-- A Causeway retry changes nothing. A lane of a link that is not down takes one of the four spares of its direction, which SPARED and the log note; the fifth loss of a direction is a link that is down, which DOWN and the log note and makes DEGRADED read 1 (that the fifth loss ends the link is the model's choice, log 116). With no link down the path of two dies goes along the row first. The connector switch opening sends the die's ports in TRAIN and UP to HOLD and those in PROBE and LOOP to DARK, a lost return its port in TRAIN or UP to HOLD; the switch closing sends DARK to PROBE. SWAPPED is cleared with DARK. A probe burst with the module's serial leaves in PROBE and LOOP. A probe seen in PROBE leads to TRAIN, of this module itself to LOOP; the end with the lower pair of a crossed fibre exchanges its roles. Training ends in UP with 512 credits a channel, or after three failures in FAIL; HOLD and FAIL expire to DARK, or PROBE with the switch closed. DISABLE sends a port to OFF and keeps it there. In stage 4, by physical function 0: OPX_MODULE_ADDR is set while no COLLECTIVE is in flight, OPX_ROUTE_MASK sets the entry its index names, OPX_CTX_TAG the tag of a context that is Idle or Off unless another has it; a write discarded sets CFG_ERR. A virtual function changes nothing. -/
def Obligations.LinksAndPorts : Prop :=
  (∀ (l : LinkId) (s : State), exec (.causewayCrcRetry l) s = .next s) ∧
  (∀ (l : LinkDir) (s : State),
    let k := 2 * l.link.val + (if l.back = true then 1 else 0)
    let n := s.fabric.cwSpares.get 0 k
    (s.fabric.cwDown.getLsbD l.link = false → n < 4 → ∃ t, exec (.causewayLaneSpare l) s = .next t ∧ t.fabric.cwSpared.getLsbD l.link = true ∧
      (∀ j, j ≠ l.link.val → t.fabric.cwSpared.getLsbD j = s.fabric.cwSpared.getLsbD j) ∧ t.fabric.cwSpares.get 0 k = n + 1 ∧
      (∀ j, j ≠ k → t.fabric.cwSpares.get 0 j = s.fabric.cwSpares.get 0 j) ∧
      t = { s with
        fabric := { s.fabric with cwSpared := t.fabric.cwSpared, cwSpares := t.fabric.cwSpares }
        flash := { s.flash with log := s.flash.log ++ [⟨3, [l.link.val]⟩] } }) ∧
    (s.fabric.cwDown.getLsbD l.link = false → 4 ≤ n → exec (.causewayLaneSpare l) s = exec (.causewayLinkDown l.link) s) ∧
    (s.fabric.cwDown.getLsbD l.link = true → exec (.causewayLaneSpare l) s = .next s)) ∧
  (∀ a b : DieId, a ≠ b → cwPath 0#10 a b = some (cwAlong (cwDies a b)) ∧ (cwDies a b).head? = some a.val ∧ (cwDies a b).getLast? = some b.val ∧
    (cwAlong (cwDies a b)).length + 1 = (cwDies a b).length ∧ (cwAlong (cwDies a b)).length ≤ 4) ∧
  (∀ (l : LinkId) (s : State), ∃ t, exec (.causewayLinkDown l) s = .next t ∧ t.fabric.cwDown.getLsbD l = true ∧ t.degraded = true ∧
    (∀ k, k ≠ l.val → t.fabric.cwDown.getLsbD k = s.fabric.cwDown.getLsbD k) ∧ t.flash.log = s.flash.log ++ [⟨4, [l.val]⟩] ∧ t.fabric = { s.fabric with cwDown := t.fabric.cwDown } ∧
    (1 ∈ (t.ctx 0).msiPending ∨ ∃ h, t.out = s.out ++ [.msix h (s.ctx 0).func 1])) ∧
  (∀ (d : DieId) (s : State), ∃ t, exec (.portConnectorOpen d) s = .next t ∧ (∀ p : PortId, p.val / 8 = d.val → (t.port p).conn = false ∧ (t.port p).ret = false ∧
      (t.port p).state = (if (s.port p).state = 2 ∨ (s.port p).state = 6 then 1 else if (s.port p).state = 3 ∨ (s.port p).state = 4 then 5 else (s.port p).state) ∧
      (t.port p).swapped = (if (s.port p).state = 2 ∨ (s.port p).state = 6 then false else (s.port p).swapped)) ∧
    (∀ p : PortId, p.val / 8 ≠ d.val → (t.port p).state = (s.port p).state ∧ (t.port p).conn = (s.port p).conn) ∧
    (s.quiet → t.mem = s.mem ∧ t.ctxs = s.ctxs)) ∧
  (∀ (p : PortId) (s : State), ∃ t, exec (.portReturnLost p) s = .next t ∧ (t.port p).ret = false ∧
    (t.port p).state = (if (s.port p).state = 3 ∨ (s.port p).state = 4 then 5 else (s.port p).state) ∧
    ∀ k, k ≠ p.val → (t.port k).state = (s.port k).state ∧ (t.port k).ret = (s.port k).ret) ∧
  (∀ (d : DieId) (s : State), ∃ t, exec (.portConnectorClose d) s = .next t ∧ t = { s with fabric := t.fabric } ∧ (∀ p : PortId, t.port p =
    if p.val / 8 = d.val then { s.port p with conn := true, state := if (s.port p).state = 1 then 2 else (s.port p).state } else s.port p)) ∧
  (∀ (p : PortId) (s : State), exec (.portProbeBurst p) s = .next (if (s.port p).state = 2 ∨ (s.port p).state = 6 then { s with out := s.out ++ [.probe p.val Config.serial] } else s)) ∧
  (∀ (p : PortId) (n : DWord) (k : Fin 64) (s : State), (s.port p).state = 2 →
    (∃ t, exec (.portProbeSeen p n k) s = .next t ∧ t = { s with fabric := t.fabric } ∧ (t.port p).state = (if n = Config.serial then 6 else 3) ∧ (t.port p).peerPort = k.val ∧
      ∀ j, j ≠ p.val → t.port j = s.port j) ∧
    (∃ t, exec (.portCrossedPair p n k) s = .next t ∧ t = { s with fabric := t.fabric } ∧ (t.port p).state = 2 ∧
      (t.port p).swapped = ((s.port p).swapped || decide (Config.serial < n ∨ (Config.serial = n ∧ p.val < k.val))) ∧ ∀ j, j ≠ p.val → t.port j = s.port j) ∧
    (∃ t, exec (.portLoopDetect p) s = .next t ∧ t.port p = { s.port p with state := 6 } ∧ ∀ j, j ≠ p.val → t.port j = s.port j)) ∧
  (∀ (p : PortId) (m : BitVec 12) (k : Fin 64) (s : State), (s.port p).state = 3 → ∃ t, exec (.portTrainDone p m k) s = .next t ∧ (t.port p).state = 4 ∧
    (t.port p).peerMod = m.toNat ∧ (t.port p).peerPort = k.val ∧ (s.fabric.waiting = [] → s.quiet → ∀ v, v < 4 → (t.port p).credits.get 0 v = 512) ∧
    ∀ j, j ≠ p.val → (t.port j).state = (s.port j).state) ∧
  (∀ (p : PortId) (s : State), (s.port p).state = 3 → ∃ t, exec (.portTrainFail p) s = .next t ∧ (∀ j, j ≠ p.val → t.port j = s.port j) ∧
    t.port p = if 2 ≤ (s.port p).fails then { s.port p with state := 7, fails := 0 } else { s.port p with fails := (s.port p).fails + 1 }) ∧
  (∀ (p : PortId) (s : State),
    ((s.port p).state = 5 → ∃ t, exec (.portHoldExpire p) s = .next t ∧ t.port p = (if (s.port p).conn = true then { s.port p with state := 2 } else { s.port p with state := 1, swapped := false }) ∧
      ∀ j, j ≠ p.val → t.port j = s.port j) ∧
    ((s.port p).state = 7 → ∃ t, exec (.portFailExpire p) s = .next t ∧ t.port p = (if (s.port p).conn = true then { s.port p with state := 2 } else { s.port p with state := 1, swapped := false }) ∧
      ∀ j, j ≠ p.val → t.port j = s.port j)) ∧
  (∀ (p : PortId) (v : Word) (s : State), s.chip.stage = 4 → ∃ t, exec (.opxPortDisable .pf p v) s = .next t ∧ t.reg (rPortCtl p) = v.toNat % 2 ∧
    (v.getLsbD 0 = true → (t.port p).state = 0 ∧ (t.port p).swapped = (s.port p).swapped) ∧ (v.getLsbD 0 = false → (s.port p).state ≠ 0 → (t.port p).state = (s.port p).state) ∧
    ∀ j, j ≠ p.val → (t.port j).state = (s.port j).state) ∧
  (∀ (n : CtxId) (p : PortId) (v : Word) (s : State), exec (.opxPortDisable (.vf n) p v) s = .next s) ∧
  (∀ (v : Word) (s : State), s.chip.stage = 4 →
    (s.anyColl = false → exec (.opxModuleAddrWrite .pf v) s = .next { s with regs := s.regs.set rModAddr (dword (v.toNat &&& 0x80000FFF)) }) ∧
    (s.anyColl = true → exec (.opxModuleAddrWrite .pf v) s = .next { s with fabric := { s.fabric with cfgErr := true } })) ∧
  (∀ (v : DWord) (s : State), s.chip.stage = 4 → ∃ t, exec (.opxRouteMaskWrite .pf v) s = .next t ∧ t = { s with fabric := { s.fabric with routes := t.fabric.routes } } ∧
    t.fabric.routes.get 0#64 (s.reg rRouteIdx) = v ∧ ∀ k, k ≠ s.reg rRouteIdx → t.fabric.routes.get 0#64 k = s.fabric.routes.get 0#64 k) ∧
  (∀ (c : CtxId) (v : Word) (s : State), s.chip.stage = 4 →
    let n := v.toNat % 2 ^ 24
    let ok := ((s.ctx c).state = .idle ∨ (s.ctx c).state = .off) ∧ (n ≠ 0 → ∀ k : CtxId, k ≠ c → s.tag k ≠ n)
    (ok → exec (.opxCtxTagWrite .pf c v) s = .next { s with regs := s.regs.set (rCtxTag c) (dword n) }) ∧
    (¬ok → exec (.opxCtxTagWrite .pf c v) s = .next { s with fabric := { s.fabric with cfgErr := true } })) ∧
  (∀ (n c : CtxId) (v : Word) (w : DWord) (s : State), exec (.opxModuleAddrWrite (.vf n) v) s = .next s ∧ exec (.opxRouteMaskWrite (.vf n) w) s = .next s ∧
    exec (.opxCtxTagWrite (.vf n) c v) s = .next s)

/-- On a port in UP, while no COLLECTIVE and no turn is in progress: every frame counts its FEC; one that FEC or HDR_CRC fails is answered with NAK and has no effect. DATA, READY, CREDIT and CTRL are of the link sequence: one that skips a number is answered with NAK, a repeated one with ACK, the next one with ACK. DATA for another module goes on with one hop fewer or without hops is counted and dropped; with a tag of no context it is counted and dropped; with a bad PAY_CRC its port is noted in CTX_INTEG; of an older epoch it is counted as stale, of a newer one held; of the current one its bytes count in the open slot of a stage queue. READY without a COLLECTIVE for it is kept, and one with a bad PAY_CRC is noted for it. A link CREDIT adds credits of its channel, a slot CREDIT those of a producer queue, or those it will have once it opens; link CTRL, and CTRL that carries no message, changes no context and no memory, and a message has the effect of its own row at the context of the tag. ACK frees the frames up to the one named. NAK, and the timer of a frame not acknowledged, send that frame and the later ones again, and send the port to TRAIN at the eighth time. On a port not in UP nothing changes. A repeated frame answered with ACK, the first number 0 and the eighth replay still sent are log 63, a skipped number answered with NAK log 130, the message that a CTRL frame carries logs 18 and 26, a failed READY whose COLLECTIVE has not begun log 114. -/
def Obligations.ReceivedFrames : Prop :=
  (∀ (p : PortId) (fec : Fec) (h : HdrWord) (bs : List Byte) (crc : Word) (vc : Fin 4) (n op dt k : Nat) (s : State), (s.port p).state = 4 → s.quiet →
    let f : RxFrame := { fec := fec, hdr := h, payload := bs, crc := crc }
    let r : ReadyFrame := { rx := f, op := op, dtype := dt, count := k }
    let x := s.port p
    let d := (BitVec.ofNat 16 (hdrLinkSeq h) - x.recvSeq).toNat
    let nak := s.answer p 5 x.recvSeq
    let ack := s.answer p 4 (BitVec.ofNat 16 (hdrLinkSeq h))
    let sequenced := fun (P : State → Prop) => (∃ t, exec (.frameData p fec h bs crc) s = .next t ∧ P t) ∧ (∃ t, exec (.frameReady p r) s = .next t ∧ P t) ∧
      (∃ t, exec (.frameCredit p vc n f) s = .next t ∧ P t) ∧ (∃ t, exec (.frameCtrl p f) s = .next t ∧ P t)
    (¬s.intact p fec h → sequenced (fun t => s.onlyAnswers t p fec nak) ∧ (∃ t, exec (.frameAck p f) s = .next t ∧ s.onlyAnswers t p fec nak) ∧
      (∃ t, exec (.frameNak p f) s = .next t ∧ s.onlyAnswers t p fec nak)) ∧
    (s.intact p fec h → d ≠ 0 → d < 32768 → sequenced (fun t => s.onlyAnswers t p fec nak)) ∧
    (s.intact p fec h → 32768 ≤ d → sequenced (fun t => s.onlyAnswers t p fec ack)) ∧
    (s.accepts p fec h → sequenced (fun t => (t.port p).recvSeq = x.recvSeq + 1#16 ∧ ack ∈ t.out))) ∧
  (∀ (p : PortId) (fec : Fec) (h : HdrWord) (bs : List Byte) (crc : Word) (s : State), s.accepts p fec h → s.quiet → ∃ t, exec (.frameData p fec h bs crc) s = .next t ∧
    (s.isMe (hdrDst h) = false → t.ctxs = s.ctxs ∧ t.mem = s.mem ∧
      (hdrHops h = 0 → t.fabric.dropHops = min 65535 (s.fabric.dropHops + 1)) ∧
      (hdrHops h ≠ 0 → ∃ g ∈ t.heldFrames, hdrHops g.hdr = hdrHops h - 1 ∧ hdrDst g.hdr = hdrDst h ∧ hdrTag g.hdr = hdrTag h ∧ hdrVc g.hdr = hdrVc h ∧
        g.payload = bs ∧ g.crc = crc)) ∧
    (s.isMe (hdrDst h) = true → s.ctxOfTag (hdrTag h) = none → t.fabric.dropTag = min 65535 (s.fabric.dropTag + 1) ∧ t.ctxs = s.ctxs ∧ t.mem = s.mem) ∧
    (∀ c, s.isMe (hdrDst h) = true → s.ctxOfTag (hdrTag h) = some c → crc32c bs ≠ crc → (t.ctx c).integ = (s.ctx c).integ ||| BitVec.ofNat 64 (2 ^ p.val)) ∧
    (∀ c, s.reaches c h bs crc → olderEpoch (hdrEpoch h) (s.ctx c).epoch.toNat = true → (t.ctx c).staleDrop = (s.ctx c).staleDrop + 1#32 ∧ t.mem = s.mem) ∧
    (∀ c, s.reaches c h bs crc → hdrEpoch h ≠ (s.ctx c).epoch.toNat → olderEpoch (hdrEpoch h) (s.ctx c).epoch.toNat = false →
      (t.ctx c).newer = (s.ctx c).newer ++ [(p.val, { hdr := h, payload := bs, crc := crc, since := s.time })] ∧ t.mem = s.mem) ∧
    (∀ c y, s.reaches c h bs crc → hdrEpoch h = (s.ctx c).epoch.toNat → hdrVc h = 2 → (s.ctx c).queues.find? (hdrGroup h) = some y → y.role = 2 → y.seen = [] →
      y.flushing = false → y.next ≤ hdrSeq h → hdrSeq h < y.next + y.slots →
      ((t.ctx c).queues.find? (hdrGroup h)).map (fun z => z.got (hdrSeq h)) = some (y.got (hdrSeq h) + bs.length))) ∧
  (∀ (p : PortId) (r : ReadyFrame) (s : State), s.accepts p r.rx.fec r.rx.hdr → s.quiet →
    (s.isMe (hdrDst r.rx.hdr) = true → s.ctxOfTag (hdrTag r.rx.hdr) = none → ∃ t, exec (.frameReady p r) s = .next t ∧ t.ctxs = s.ctxs ∧ t.mem = s.mem ∧
      t.fabric.dropTag = min 65535 (s.fabric.dropTag + 1)) ∧
    (∀ c, s.reaches c r.rx.hdr r.rx.payload r.rx.crc → hdrGroup r.rx.hdr < 256 →
      (olderEpoch (hdrEpoch r.rx.hdr) (s.ctx c).epoch.toNat = true → ∃ t, exec (.frameReady p r) s = .next t ∧ t.ctxs = s.ctxs ∧ t.mem = s.mem) ∧
      (olderEpoch (hdrEpoch r.rx.hdr) (s.ctx c).epoch.toNat = false → ∃ t, exec (.frameReady p r) s = .next t ∧ t.mem = s.mem ∧
        t.ctx c = { s.ctx c with readies := (s.ctx c).readies ++ [readyInfo r] })) ∧
    (∀ c, s.isMe (hdrDst r.rx.hdr) = true → s.ctxOfTag (hdrTag r.rx.hdr) = some c → crc32c r.rx.payload ≠ r.rx.crc → hdrType r.rx.hdr = 2 → hdrVc r.rx.hdr ≠ 2 →
      hdrGroup r.rx.hdr < 256 → (s.ctx c).mile.state ≠ 2 → ∃ t, exec (.frameReady p r) s = .next t ∧ t.mem = s.mem ∧
        (t.ctx c).badReadies = (s.ctx c).badReadies ++ [(hdrGroup r.rx.hdr, hdrSeq r.rx.hdr, BitVec.ofNat 16 (p.val + 0x100))])) ∧
  (∀ (p : PortId) (vc : Fin 4) (n : Nat) (f : RxFrame) (s : State), s.accepts p f.fec f.hdr → s.quiet →
    (hdrIsLink f.hdr = true → crc32c f.payload = f.crc → (s.port p).queued = [] → ∃ t, exec (.frameCredit p vc n f) s = .next t ∧
      (t.port p).credits.get 0 vc = (s.port p).credits.get 0 vc + n ∧ (∀ v, v ≠ vc.val → (t.port p).credits.get 0 v = (s.port p).credits.get 0 v) ∧ t.ctxs = s.ctxs) ∧
    (∀ c y, hdrIsLink f.hdr = false → s.reaches c f.hdr f.payload f.crc → (s.ctx c).queues.find? (hdrGroup f.hdr) = some y → y.role = 1 →
      ∃ t, exec (.frameCredit p vc n f) s = .next t ∧ (t.ctx c).queues.find? (hdrGroup f.hdr) = some { y with credits := y.credits + n } ∧ t.mem = s.mem) ∧
    (∀ c, hdrIsLink f.hdr = false → s.reaches c f.hdr f.payload f.crc → (s.ctx c).queues.find? (hdrGroup f.hdr) = none →
      ∃ t, exec (.frameCredit p vc n f) s = .next t ∧ (t.ctx c).slotCredits.get 0 (hdrGroup f.hdr) = (s.ctx c).slotCredits.get 0 (hdrGroup f.hdr) + n ∧
        (∀ k, k ≠ hdrGroup f.hdr → (t.ctx c).slotCredits.get 0 k = (s.ctx c).slotCredits.get 0 k) ∧ t.mem = s.mem) ∧
    ((hdrIsLink f.hdr = true ∨ ctrlOf f.payload = none ∧ ∃ c, s.reaches c f.hdr f.payload f.crc) → ∃ t, exec (.frameCtrl p f) s = .next t ∧ t.ctxs = s.ctxs ∧ t.mem = s.mem) ∧
    (∀ c m, hdrIsLink f.hdr = false → s.reaches c f.hdr f.payload f.crc → ctrlOf f.payload = some m →
      ∃ u : State, u = { s with fabric := u.fabric, out := s.out ++ [s.answer p 4 (BitVec.ofNat 16 (hdrLinkSeq f.hdr))], pmcMod := u.pmcMod, pmcModOvf := u.pmcModOvf } ∧
        u.fabric = { s.fabric with ports := u.fabric.ports } ∧ u.port p = { (s.port p).counted f.fec with recvSeq := (s.port p).recvSeq + 1#16 } ∧
        (∀ k, k ≠ p.val → u.port k = s.port k) ∧ exec (.frameCtrl p f) s = .next ((u.hearCtrl c f.hdr m).returnCredit p (frameOf f)))) ∧
  (∀ (p : PortId) (f : RxFrame) (s : State), s.intact p f.fec f.hdr → s.quiet → (s.port p).queued = [] → ∃ t, exec (.frameAck p f) s = .next t ∧ (t.port p).state = 4 ∧
    (t.port p).replay = (s.port p).replay.filter (fun g => decide (32768 ≤ (BitVec.ofNat 16 (hdrLinkSeq f.hdr) - BitVec.ofNat 16 (hdrLinkSeq g.hdr)).toNat)) ∧ t.ctxs = s.ctxs) ∧
  (∀ (p : PortId) (f : RxFrame) (seq : Half) (s : State), (s.port p).state = 4 → s.quiet →
    let again := fun (g : Frame) => decide ((BitVec.ofNat 16 (hdrLinkSeq g.hdr) - seq).toNat < 32768)
    let fs := (s.port p).replay.filter again
    let replays := fun (t : State) => s.out ++ fs.map (fun g => Out.frame p g.hdr g.payload g.crc) <+: t.out ∧
      ((∀ g ∈ (s.port p).replay, again g = true → g.replays < 7) → (∀ g ∈ (s.port p).replay, again g = false → g.replays < 8) →
        t.out = s.out ++ fs.map (fun g => Out.frame p g.hdr g.payload g.crc) ∧ (t.port p).state = 4 ∧ (t.port p).recvSeq = (s.port p).recvSeq) ∧
      ((∃ g ∈ (s.port p).replay, again g = true ∧ 7 ≤ g.replays) → (t.port p).state = 3 ∧ (t.port p).replay = [] ∧ (t.port p).queued = [])
    (s.intact p f.fec f.hdr → BitVec.ofNat 16 (hdrLinkSeq f.hdr) = seq → ∃ t, exec (.frameNak p f) s = .next t ∧ replays t) ∧
    ((∃ g ∈ (s.port p).replay, BitVec.ofNat 16 (hdrLinkSeq g.hdr) = seq) → ∃ t, exec (.frameAckTimeout p seq) s = .next t ∧ replays t) ∧
    ((∀ g ∈ (s.port p).replay, BitVec.ofNat 16 (hdrLinkSeq g.hdr) ≠ seq) → exec (.frameAckTimeout p seq) s = .next s)) ∧
  (∀ (p : PortId) (fec : Fec) (h : HdrWord) (bs : List Byte) (crc : Word) (r : ReadyFrame) (f : RxFrame) (vc : Fin 4) (n : Nat) (s : State),
    (s.port p).state ≠ 4 → exec (.frameReady p r) s = .next s ∧ exec (.frameNak p f) s = .next s ∧ exec (.frameCtrl p f) s = .next s ∧
      (s.quiet → exec (.frameAck p f) s = .next s ∧ exec (.frameCredit p vc n f) s = .next s ∧ exec (.frameData p fec h bs crc) s = .next s))

/-- For each of REDUCE_SCATTER, ALL_GATHER, ALL_REDUCE, BROADCAST, SEND and RECV that passes its checks, whose group reads, and that is not armed on a trigger: the command answers a state in which the descriptor has its start order, the group's SEQ is one higher and no other group's has changed, and READY with the context's tag, its epoch, the group, that SEQ and the operation, types and count of the descriptor has gone to every rank that this one receives from. In a group of one rank, with no other COLLECTIVE in progress, ALL_REDUCE and REDUCE_SCATTER write the elements of SRC, converted to the output type, to DST and end with OK and RESULT the bytes written. -/
def Obligations.CollectivesBegin : Prop :=
  (∀ (c : CtxId) (q : RingId) (p : Word) (d : Desc) (s : State) (g : Group), isColl 1 d = true → s.Passes c q p d (collChk 1 c) → (s.beginDesc c d).readGroup c (d.num 20 2) = .ok g →
    bitOf (collFlags d) 1 = false → ∃ t, exec (.reduceScatter c q p) s = .next t ∧ s.CollBegins t c d 1 g) ∧
  (∀ (c : CtxId) (q : RingId) (p : Word) (d : Desc) (s : State) (g : Group), isColl 2 d = true → s.Passes c q p d (collChk 2 c) → (s.beginDesc c d).readGroup c (d.num 20 2) = .ok g →
    bitOf (collFlags d) 1 = false → ∃ t, exec (.allGather c q p) s = .next t ∧ s.CollBegins t c d 2 g) ∧
  (∀ (c : CtxId) (q : RingId) (p : Word) (d : Desc) (s : State) (g : Group), isColl 3 d = true → s.Passes c q p d (collChk 3 c) → (s.beginDesc c d).readGroup c (d.num 20 2) = .ok g →
    bitOf (collFlags d) 1 = false → ∃ t, exec (.allReduce c q p) s = .next t ∧ s.CollBegins t c d 3 g) ∧
  (∀ (c : CtxId) (q : RingId) (p : Word) (d : Desc) (s : State) (g : Group), isColl 4 d = true → s.Passes c q p d (collChk 4 c) → (s.beginDesc c d).readGroup c (d.num 20 2) = .ok g →
    bitOf (collFlags d) 1 = false → ∃ t, exec (.broadcast c q p) s = .next t ∧ s.CollBegins t c d 4 g) ∧
  (∀ (c : CtxId) (q : RingId) (p : Word) (d : Desc) (s : State) (g : Group), isColl 5 d = true → s.Passes c q p d (collChk 5 c) → (s.beginDesc c d).readGroup c (d.num 20 2) = .ok g →
    bitOf (collFlags d) 1 = false → ∃ t, exec (.send c q p) s = .next t ∧ s.CollBegins t c d 5 g) ∧
  (∀ (c : CtxId) (q : RingId) (p : Word) (d : Desc) (s : State) (g : Group), isColl 6 d = true → s.Passes c q p d (collChk 6 c) → (s.beginDesc c d).readGroup c (d.num 20 2) = .ok g →
    bitOf (collFlags d) 1 = false → ∃ t, exec (.recv c q p) s = .next t ∧ s.CollBegins t c d 6 g) ∧
  (∀ (op : Nat) (c : CtxId) (q : RingId) (p : Word) (d : Desc) (s s2 : State) (g : Group), op = 1 ∨ op = 3 → isColl op d = true → s.Passes c q p d (collChk op c) →
    (s.beginDesc c d).readGroup c (d.num 20 2) = .ok g → g.ranks.length = 1 → bitOf (collFlags d) 1 = false → s.noColls → (s.ctx c).mile.setup = none → s.fabric.waiting = [] →
    (∀ x ∈ s.fabric.ports, x.2.queued = []) →
    let s1 := (s.beginDesc c d).touchRefs c [d.num 24 8, d.num 32 8]
    let r := s1.readHeld c (dword (s.pinRef c (d.num 24 8))).toNat 0 (d.num 40 8 * dtSize (d.num 17 1 % 16))
    let bs := outElems (d.num 17 1 / 16) (wideElems (d.num 17 1 % 16) r.data)
    r.stop = none → s1.writeHeld c (dword (s.pinRef c (d.num 32 8))).toNat 0 bs = (s2, none) →
    ∃ t, exec (if op = 1 then .reduceScatter c q p else .allReduce c q p) s = .next t ∧ t.Ended c d { status := stOk, result := BitVec.ofNat 64 bs.length } ∧
      t.mem = s2.mem ∧ t.host = s2.host)

/-- With no COLLECTIVE in progress and without a trigger: QSEND that passes its checks and whose SRC reads takes a credit and the next SEQ of its queue, sends SRC as DATA of that slot on VC2, and ends with OK and RESULT 0 once none of those frames waits to leave; without a credit it stays in progress. QRECV whose slot is filled and reads writes it to DST, sends the slot credit to the producer, moves to the next SEQ and ends with OK and RESULT the bytes. COLLECTIVE_TIMEOUT ends a COLLECTIVE in progress that is not armed and is no QSEND waiting for a credit with TIMEOUT and the bytes written so far; QSEND_TIMEOUT ends a QSEND that waits for a credit with TIMEOUT and keeps the queue's credits; neither ends an armed one. A flush marker discards the slots before its SEQ and grants every slot again. -/
def Obligations.QueuesAndTimeouts : Prop :=
  (∀ (c : CtxId) (q : RingId) (p : Word) (d : Desc) (s : State) (y : QueueSt), isColl 7 d = true → s.Passes c q p d (collChk 7 c) → bitOf (collFlags d) 1 = false → s.noColls → (s.ctx c).queues.find? (d.num 20 2) = some y →
    (y.credits = 0 → ∃ t z, exec (.qsend c q p) s = .next t ∧ (t.ctx c).find d.ring d.pos = some z ∧ z.start = some s.nextStart ∧ z.ending = none) ∧
    (0 < y.credits → (((s.beginDesc c d).touchRefs c [d.num 24 8]).readHeld c (dword (s.pinRef c (d.num 24 8))).toNat 0 (d.num 40 8)).stop = none →
      let bs := (((s.beginDesc c d).touchRefs c [d.num 24 8]).readHeld c (dword (s.pinRef c (d.num 24 8))).toNat 0 (d.num 40 8)).data
      ∃ t z, exec (.qsend c q p) s = .next t ∧ (t.ctx c).find d.ring d.pos = some z ∧ z.start = some s.nextStart ∧
        z.ending = (if t.unsentSlot (s.tag c) (d.num 20 2) y.next = [] then some { status := stOk } else none) ∧
        (∀ x ∈ frameParts (bs.length / 4096 + 1) 0 bs, ∃ f ∈ t.heldFrames, hdrType f.hdr = 1 ∧ hdrVc f.hdr = 2 ∧ hdrHops f.hdr = 4 ∧ hdrTag f.hdr = s.tag c ∧
          hdrDst f.hdr = y.peer % 2 ^ 12 ∧ hdrEpoch f.hdr = (s.ctx c).epoch.toNat ∧ hdrGroup f.hdr = d.num 20 2 ∧ hdrSeq f.hdr = y.next % 2 ^ 32 ∧ hdrOff f.hdr = x.1 ∧
          f.payload = x.2 ∧ f.crc = crc32c x.2) ∧
        (∀ k, k ≠ d.num 20 2 → (t.ctx c).queues.find? k = (s.ctx c).queues.find? k) ∧
        ((t.ctx c).queues.find? (d.num 20 2)).map (fun z => (z.credits, z.next, z.role)) = some (y.credits - 1, y.next + 1, y.role))) ∧
  (∀ (c : CtxId) (q : RingId) (p : Word) (d : Desc) (s s2 : State) (y : QueueSt) (bs : List Byte), isColl 8 d = true → s.Passes c q p d (collChk 8 c) → bitOf (collFlags d) 1 = false → s.noColls →
    (s.ctx c).queues.find? (d.num 20 2) = some y → y.flushing = false → (∀ x ∈ y.bad, x.1 ≠ y.next) → ceilDiv (d.num 40 8) 4 * 4 ≤ y.got y.next →
    let s1 := (s.beginDesc c d).touchRefs c [d.num 32 8]
    let slot := (s1.resolve c y.buf.toNat).plus (y.next % y.slots * y.slotBytes)
    d.num 40 8 ≤ slot.extent → s1.readTarget c slot (d.num 40 8) = { data := bs, stop := none } →
    s1.writeHeld c (dword (s.pinRef c (d.num 32 8))).toNat 0 bs = (s2, none) →
    ∃ t, exec (.qrecv c q p) s = .next t ∧ t.Ended c d { status := stOk, result := BitVec.ofNat 64 (d.num 40 8) } ∧ t.mem = s2.mem ∧ t.host = s2.host ∧
      (s.maySend c = true → s.carries t c y.peer (d.num 20 2) 0 (.slotCredit 1)) ∧ (t.ctx c).queues.find? (d.num 20 2) = some (y.upTo (y.next + 1))) ∧
  (∀ (c : CtxId) (q : RingId) (p : Word) (d : Desc) (r : CollRun) (s : State), s.desc? c q p = some d → d.work = .coll r → d.ending = none →
    let fresh := ∀ f ∈ (s.ctx c).newer, (s.time - f.2.since).toNat < s.collTimeoutNs c
    (r.armed = none → (r.op ≠ 7 ∨ r.final = true) → (∃ t e, exec (.collectiveTimeout c q p) s = .next t ∧ t.Ended c d e ∧ e.status = stTimeout ∧
      e.result = BitVec.ofNat 64 r.written ∧ t.mem = s.mem ∧ (t.ctx c).queues = (s.ctx c).queues) ∧ exec (.qsendTimeout c q p) s = .next s) ∧
    (r.armed ≠ none → (fresh → exec (.collectiveTimeout c q p) s = .next s) ∧ exec (.qsendTimeout c q p) s = .next s) ∧
    (r.armed = none → r.op = 7 → r.final = false → (fresh → exec (.collectiveTimeout c q p) s = .next s) ∧
      ∃ t e, exec (.qsendTimeout c q p) s = .next t ∧ t.Ended c d e ∧ e.status = stTimeout ∧ t.mem = s.mem ∧
      ((t.ctx c).queues.find? r.group).map (fun z => (z.credits, z.next)) = ((s.ctx c).queues.find? r.group).map (fun z => (z.credits, z.next)))) ∧
  (∀ (c : CtxId) (k : Fin 64) (seq : Nat) (y : QueueSt) (s : State), s.noColls → (s.ctx c).queues.find? k = some y → y.role = 2 → s.maySend c = true → s.hears c = true →
    ∃ t, exec (.queueFlushMarker c k seq) s = .next t ∧ s.carries t c y.peer k 0 (.slotCredit y.slots) ∧ t.mem = s.mem ∧
      (t.ctx c).queues.find? k = some { (y.upTo seq) with flushing := false, marked := !y.flushing })

/-- Closing the latch of an empty bay with ORIENT from 9 to 11 kOhm leads to CHECK, otherwise to OUT with cause 1; over no cartridge the bay stays EMPTY with its latch closed. From stage 3 on, a cartridge whose chain leads to the root, whose P-384 signature over nonce, record and certificate holds and whose certificate names its serial, beside one in service is IN and both ramp; alone it is SOLO, the engine is in service and its ports in OFF leave it where nothing else holds them; one not authentic is OUT with cause 2. The end of a ramp makes a ramping cartridge IN and a retiring one OUT with cause 6. The interlock opening empties the bay. Sense fault, over-power and over-temperature take a cartridge in service out with causes 3, 4 and 5. The hourly wear grows by 10 for half load at 55 degrees, in proportion to load and twofold each 10 degrees; the life prediction is 0 and the warning set once WEAR reaches the rated life. RETIRE acts only with both cartridges IN. A cartridge that is IN while it ramps and lit when the ramp is done, the wear kept of an emptied bay, and what the signature covers byte by byte are log 70. -/
def Obligations.LaserBays : Prop :=
  (∀ (b : BayId) (orient : Option Nat) (s : State), ∃ t, exec (.bayLatchClose b orient) s = .next t ∧ t = { s with fabric := t.fabric } ∧
    (∀ k, k ≠ b.val → t.bay k = s.bay k) ∧ ((s.bay b).state ≠ bayEmpty ∨ (s.bay b).ilk = true → t.bay b = s.bay b) ∧
    ((s.bay b).state = bayEmpty → (s.bay b).ilk = false → (orient = none → t.bay b = { s.bay b with ilk := true }) ∧
      ∀ ohm, orient = some ohm → t.bay b = (if 9000 ≤ ohm ∧ ohm ≤ 11000 then { s.bay b with ilk := true, state := bayCheck }
        else { s.bay b with ilk := true, state := bayOut, cause := 1 }))) ∧
  (∀ (b : BayId) (a : CartProof) (r : CartRecord) (s : State), (s.bay b).state ≠ bayCheck ∨ s.chip.stage < 3 → exec (.cartridgeAuthenticated b a r) s = .next s) ∧
  (∀ (b : BayId) (a : CartProof) (r : CartRecord) (s : State), (s.bay b).state = bayCheck → 3 ≤ s.chip.stage →
    let x : Bay := { s.bay b with serial := r.serial, record := some r, wear := r.wear }
    (cartOk a r = true → (s.bay (partnerOf b)).lit = true → ∃ t, exec (.cartridgeAuthenticated b a r) s = .next t ∧ t = { s with fabric := t.fabric } ∧
      s.BaysAre t b { x with state := bayIn, ramping := true } { s.bay (partnerOf b) with ramping := true }) ∧
    (cartOk a r = true → (s.bay (partnerOf b)).lit = false → ∃ t, exec (.cartridgeAuthenticated b a r) s = .next t ∧ t.engineOff (b.val / 2) = false ∧
      s.BaysAre t b { x with state := baySolo, ramping := false } (s.bay (partnerOf b)) ∧
      ∀ p : PortId, p.val / 8 = b.val / 2 → (s.port p).state = 0 → bitOf (s.reg (rPortCtl p)) 0 = false →
        s.inputs.domainsOff.contains (386 + 3 * (p.val / 8)) = false → (t.port p).state = if (s.port p).conn = true then 2 else 1) ∧
    (cartOk a r = false → ∃ t, exec (.cartridgeAuthenticated b a r) s = .next t ∧ s.GoesOut t b 2)) ∧
  (∀ (d : DieId) (s : State), (s.bay (2 * d)).ramping = true → (s.bay (2 * d)).state = bayIn → (s.bay (2 * d + 1)).ramping = true → (s.bay (2 * d + 1)).state = bayIn →
    ∃ t, exec (.cartridgeRampDone d) s = .next t ∧ s.BaysAre t (2 * d) { s.bay (2 * d) with ramping := false } { s.bay (2 * d + 1) with ramping := false }) ∧
  (∀ (b : BayId) (s : State), (s.bay b).state = bayRetiring → (s.bay (partnerOf b)).state = bayIn → (s.bay (partnerOf b)).ramping = false →
    ∃ t, exec (.cartridgeRampDone ⟨b.val / 2, by omega⟩) s = .next t ∧ s.GoesOut t b 6) ∧
  (∀ (b : BayId) (s : State), ∃ t, exec (.bayInterlockOpen b) s = .next t ∧ t.bay b = { wear := (s.bay b).wear } ∧ (∀ k, k ≠ b.val → k ≠ partnerOf b → t.bay k = s.bay k) ∧
    ((s.bay b).lit = true → (s.bay (partnerOf b)).lit = true → (t.bay (partnerOf b)).state = baySolo) ∧
    ((s.bay b).lit = true → (s.bay (partnerOf b)).lit = false → t.engineOff (b.val / 2) = true ∧ t.inputs.faultN = true)) ∧
  (∀ (b : BayId) (s : State), ((s.bay b).state ≠ bayEmpty → (s.bay b).state ≠ bayOut → ∃ t, exec (.cartridgeSenseFault b) s = .next t ∧ s.GoesOut t b 3) ∧
    ((s.bay b).lit = true → (∃ t, exec (.cartridgeOverPower b) s = .next t ∧ s.GoesOut t b 4) ∧ ∃ t, exec (.cartridgeOverTemp b) s = .next t ∧ s.GoesOut t b 5) ∧
    ((s.bay b).lit = false → exec (.cartridgeOverPower b) s = .next s ∧ exec (.cartridgeOverTemp b) s = .next s)) ∧
  (∀ (b : BayId) (load temp bias power j : Nat) (r : CartRecord) (s : State), (s.bay b).record = some r → (s.bay b).lit = true → (temp ≤ 550 ∧ j = 0 ∨ temp = 550 + 100 * j) →
    let n := (s.bay b).wear.toNat + (load * 2 ^ j + 25) / 50
    ∃ t, exec (.wearHourly b load temp bias power) s = .next t ∧ (t.bay b).wear = BitVec.ofNat 32 n ∧ (t.bay b).bias = BitVec.ofNat 16 bias ∧
      (t.bay b).state = (s.bay b).state ∧ (r.ratedLife.toNat ≤ n → (t.bay b).life = 0#32 ∧ (t.bay b).lifeWarn = true) ∧ ∀ k, k ≠ b.val → t.bay k = s.bay k) ∧
  (∀ (b : BayId) (s : State), s.chip.stage = 4 →
    ((s.bay b).state = bayIn ∧ (s.bay (partnerOf b)).state = bayIn → ∃ t, exec (.lsrBayRetire .pf b) s = .next t ∧ t = { s with fabric := t.fabric } ∧
      s.BaysAre t b { s.bay b with state := bayRetiring, retire := true } (s.bay (partnerOf b))) ∧
    (¬((s.bay b).state = bayIn ∧ (s.bay (partnerOf b)).state = bayIn) → exec (.lsrBayRetire .pf b) s = .next s)) ∧
  (∀ (n : CtxId) (b : BayId) (s : State), exec (.lsrBayRetire (.vf n) b) s = .next s)

/-- LEDGER_EDIT whose records read and pass step 1 waits with EDIT_WAIT set on its sequences; a record that fails ends it with its status and index; the ledger is unchanged in both. Once the wait is over a record that fails ends the edit with its status and index and no row, entry or version has changed; a row outside the context's entries fails with AUTH. A single OPEN gives the sequence its row, empty, live and of length 0; SET_LENGTH the length; MAP the entries; CLOSE without FREE makes it free and empties shared entries alone; each adds 1 to VERSION and leaves every other row and entry, and ends with RESULT 1. PIN of a prefix nobody waits for marks its entries SHARED in the row and in the handle's range and keeps the handle. RELEASE of a handle in use lets it drain, and without room for the entries it frees changes nothing. -/
def Obligations.LedgerEdits : Prop :=
  (∀ (c : CtxId) (q : RingId) (p : Word) (d : Desc) (s : State), d.opcode = 8 → s.Passes c q p d (editChk c) →
    let s1 := (s.beginDesc c d).touchRefs c [d.num 16 8, d.num 32 8]
    let g := s1.readTarget c (s1.resolve c (d.num 16 8)) (32 * d.num 24 4)
    g.stop = none →
    (∀ recs, s1.readEdits c (records 32 (d.num 24 4) g.data) [] = .ok recs → ∃ t y r, exec (.ledgerEdit c q p) s = .next t ∧ (t.ctx c).find d.ring d.pos = some y ∧
      y.ending = none ∧ y.work = .edit r ∧ r.recs = recs ∧ t.ledger.entries = s.ledger.entries ∧ (∀ x ∈ recs, (t.seqEntry x.seq).editWait = true) ∧ ∀ k, s.SameRow t k) ∧
    (∀ st i, s1.readEdits c (records 32 (d.num 24 4) g.data) [] = .error (st, i) → ∃ t, exec (.ledgerEdit c q p) s = .next t ∧ t.ledger = s.ledger ∧
      t.Ended c d { status := st, secondary := 0x8010#16, result := BitVec.ofNat 64 i })) ∧
  (∀ (c : CtxId) (q : RingId) (p : Word) (d : Desc) (s : State) (r : EditRun) (st : Byte) (i : Nat), s.desc? c q p = some d → d.work = .edit r → r.pin = false → (s.ctx c).editReady d r = true →
    (∀ s0 : State, s0 = { s with ledger := s0.ledger } → s0.ledger.entries = s.ledger.entries → (∀ k, s.SameRow s0 k) → applyEdits c { s := s0 } r.recs 0 = .error (st, i)) →
    ∃ t, exec (.ledgerEditApply c q p) s = .next t ∧ t.Ended c d { status := st, result := BitVec.ofNat 64 i } ∧ t.ledger.entries = s.ledger.entries ∧
      (∀ k, s.SameRow t k) ∧ t.mem = s.mem) ∧
  (∀ (c : CtxId) (q : RingId) (p : Word) (d : Desc) (x : EditRec) (s : State), x.op = 1 → s.EditOf c q p d x → s.ownsEntries c x.arg0 (x.arg1 * s.planes c) = true → (s.seqEntry x.seq).live = false → s.anyShared x.arg0 (x.arg1 * s.planes c) = false →
    ∃ t, exec (.ledgerEditApply c q p) s = .next t ∧ s.OneEdit t c d x.seq { (s.seqEntry x.seq).edited with len := 0, base := x.arg0, cap := x.arg1, live := true } ∧
      (∀ e, x.arg0 ≤ e → e < x.arg0 + x.arg1 * s.planes c → t.entry e = 0#64) ∧ (∀ e, e < x.arg0 ∨ x.arg0 + x.arg1 * s.planes c ≤ e → t.entry e = s.entry e) ∧ t.mem = s.mem) ∧
  (∀ (c : CtxId) (q : RingId) (p : Word) (d : Desc) (x : EditRec) (s : State), x.op = 2 → x.free = false → s.EditOf c q p d x → s.rowOutside c 2 x.seq = false → (s.seqEntry x.seq).live = true → x.arg0 ≤ s.lenLimit c (s.seqEntry x.seq) →
    ∃ t, exec (.ledgerEditApply c q p) s = .next t ∧ s.OneEdit t c d x.seq { (s.seqEntry x.seq).edited with len := x.arg0 } ∧ t.ledger.entries = s.ledger.entries ∧ t.mem = s.mem) ∧
  (∀ (c : CtxId) (q : RingId) (p : Word) (d : Desc) (x : EditRec) (s : State), x.op = 3 → s.EditOf c q p d x → s.rowOutside c 3 x.seq = false → (s.seqEntry x.seq).live = true → x.values.length = x.arg1 → x.arg0 + x.arg1 ≤ s.rowLen c (s.seqEntry x.seq) →
    let b := (s.seqEntry x.seq).base + x.arg0
    s.anyShared b x.arg1 = false → s.ledger.entries.Pairwise (fun x y => x.1 < y.1) →
    ∃ t, exec (.ledgerEditApply c q p) s = .next t ∧ s.OneEdit t c d x.seq (s.seqEntry x.seq).edited ∧
      (∀ i, i < x.arg1 → t.entry (b + i) = x.values.getD i 0#64) ∧ (∀ e, e < b ∨ b + x.arg1 ≤ e → t.entry e = s.entry e) ∧ t.mem = s.mem) ∧
  (∀ (c : CtxId) (q : RingId) (p : Word) (d : Desc) (x : EditRec) (s : State), x.op = 4 → x.free = false → s.EditOf c q p d x → s.rowOutside c 4 x.seq = false → (s.seqEntry x.seq).live = true → (s.ctx c).rollout.requests.find? x.seq = none →
    (∀ h ∈ s.mem.handles, h.ctx ≠ c.val) → s.ledger.entries.Pairwise (fun x y => x.1 < y.1) →
    let e := s.seqEntry x.seq
    ∃ t, exec (.ledgerEditApply c q p) s = .next t ∧ s.OneEdit t c d x.seq { e.edited with len := 0, live := false } ∧ t.mem = s.mem ∧
      ∀ k, t.entry k = if e.base ≤ k ∧ k < e.base + s.rowLen c e ∧ entryShared (s.entry k) = true then 0#64 else s.entry k) ∧
  (∀ (c : CtxId) (q : RingId) (p : Word) (d : Desc) (x : EditRec) (s : State), s.EditOf c q p d x → (s.rowOutside c x.op x.seq = true ∨ x.op = 1 ∧ s.ownsEntries c x.arg0 (x.arg1 * s.planes c) = false) →
    ∃ t, exec (.ledgerEditApply c q p) s = .next t ∧ t.Ended c d { status := stAuth } ∧ t.ledger.entries = s.ledger.entries ∧ (∀ k, s.SameRow t k) ∧ t.mem = s.mem) ∧
  (∀ (c : CtxId) (q : RingId) (p : Word) (d : Desc) (s : State), isPrefix 1 d = true → s.Passes c q p d (prefixChk 1 c) →
    let e := s.seqEntry (d.num 32 2)
    let n := s.prefixEntries c (d.num 36 4)
    (∀ y ∈ (s.ctx c).descs, y.start = none ∧ y.work = .idle) → s.handle? c (BitVec.ofNat 64 (d.num 24 8)) = none → s.mem.handles.length < 8192 → e.live = true →
    d.num 36 4 ≤ e.len → n ≤ s.rowLen c e → (∀ i, i < n → entryValid (s.entry (e.base + i)) = true) → s.entriesIn (d.num 40 4) n = [] → s.outsideRows c (d.num 40 4) n = true →
    ∃ t, exec (.prefixPin c q p) s = .next t ∧ t.Ended c d { status := stOk } ∧
      t.mem.handles = s.mem.handles ++ [⟨c, BitVec.ofNat 64 (d.num 24 8), d.num 40 4, n, d.num 36 4, [d.num 32 2], false⟩] ∧
      (∀ i, i < n → t.entry (e.base + i) = withShared (s.entry (e.base + i)) ∧ t.entry (d.num 40 4 + i) = withShared (s.entry (e.base + i))) ∧
      (t.seqEntry (d.num 32 2)).version = e.version + 1#16 ∧ (t.seqEntry (d.num 32 2)).len = e.len) ∧
  (∀ (c : CtxId) (q : RingId) (p : Word) (d : Desc) (s : State), isPrefix 2 d = true → s.Passes c q p d (prefixChk 2 c) →
    let h := BitVec.ofNat 64 (d.num 24 8)
    let m := ((s.beginDesc c d).touchRefs c [d.num 48 8]).mem
    let mark := fun (x : Prefix) => if x.ctx = c.val ∧ x.handle = h then { x with draining := true } else x
    ((∀ x ∈ s.mem.handles, x.ctx = c.val → x.users ≠ []) → ∃ t, exec (.prefixRelease c q p) s = .next t ∧ t.Ended c d { status := stOk } ∧ t.ledger = s.ledger ∧
      t.mem = { m with handles := m.handles.map mark }) ∧
    (∀ x, s.mem.handles.find? (fun y => y.ctx == c.val && y.handle == h) = some x → x.users = [] → d.num 44 4 < 16 * (s.entriesIn x.base x.pages).length →
      ∃ t, exec (.prefixRelease c q p) s = .next t ∧ t.Ended c d { status := stNospace } ∧ t.ledger = s.ledger ∧ t.mem = m))

/-- SERVE_STEP that passes its checks, may start, and whose batch, tokens and plan read, with no prefix to attach: it takes its cost from an enabled Tollgate, each FIRST record has its request, and it is admitted with all its records and entries, unless its step block cannot be written. One that fails a check ends with that status and changes nothing else. SERVE_PLAN_ENTRY of an admitted step: an entry that fails its checks ends the step with that status; one that has no effect is passed over; another one, whose arguments read, becomes the run in progress on the tile mask. SERVE_SAMPLE after the last entry: the sampler takes prep clusters 0 to 7 of the tiles if none is busy; then, where OUT is written, the step ends with OK and RESULT counts the samples and the repeats. That one SERVE_SAMPLE takes the clusters and a second one reports is log 44; steps with a prefix to attach are stated no further. -/
def Obligations.ServeSteps : Prop :=
  (∀ (c : CtxId) (q : RingId) (p : Word) (d : Desc) (s : State), d.opcode = 9 → s.Passes c q p d (serveChk c) → s.holdServe c = false → s.editHoldsServe c d = false →
    let s1 := s.beginDesc c d
    let g := s1.readTarget c (s1.resolve c (d.num 16 8)) (32 * serveNrec d)
    let xs := (records 32 (serveNrec d) g.data).map (s1.rawRec c)
    g.stop = none → (∀ x ∈ xs, (rFeed x.r = false → (s1.readTarget c (s1.resolve c (recNat x.r 8 8)) (4 * rNew x.r)).stop = none) ∧
      (rFirst x.r = true → rHandle x.r = 0#64 ∧ (s1.readTarget c (s1.resolve c (recNat x.r 24 8)) 64).stop = none)) →
    (s1.readTarget c (s1.resolve c (d.num 32 8)) (32 * serveNplan d)).stop = none →
    ∃ t y v, exec (.serveStep c q p) s = .next t ∧ (t.ctx c).find d.ring d.pos = some y ∧ y.work = .serve v ∧ (y.ending = none ↔ v.admitted = true) ∧
      v.batch.length = serveNrec d ∧ v.plan.length = serveNplan d ∧ v.index = 0 ∧ v.serveId = BitVec.ofNat 64 (d.num 56 8) ∧
      (∀ b ∈ v.batch, b.first = true → (t.ctx c).rollout.requests.find? b.seq ≠ none) ∧ t.ledger.entries = s.ledger.entries ∧
      (t.ctx c).rollout.level = (s.ctx c).rollout.level - (if bitOf (s.reg (rTgCtl c)) 31 = true then s.serveCost c (records 32 (serveNrec d) g.data) else 0)) ∧
  (∀ (c : CtxId) (q : RingId) (p : Word) (d : Desc) (e : Ending) (s : State), d.opcode = 9 → s.Fails c q p d (serveChk c) e → s.holdServe c = false → s.editHoldsServe c d = false →
    ∃ t, exec (.serveStep c q p) s = .next t ∧ t.Ended c d e ∧ t = { s with ctxs := t.ctxs, nextStart := s.nextStart + 1 } ∧ (t.ctx c).rollout = (s.ctx c).rollout) ∧
  (∀ (c : CtxId) (q : RingId) (p : Word) (d : Desc) (v : ServeRun) (e : PlanEntry) (s : State), s.ServeOf c q p d v → v.run = none → v.plan[v.index]? = some e → s.refWaits c e.args.toNat = false →
    (∀ x, s.planBad c e = some x → ∃ t, exec (.servePlanEntry c q p) s = .next t ∧ t.Ended c d x ∧ t.mem = s.mem ∧ t.tiles = s.tiles) ∧
    (s.planBad c e = none → (s.readTarget c (s.resolve c e.args.toNat) e.argBytes).stop = none →
      ((s.ctx c).mask = 0#96 ∨ e.codeBytes = 0 → ∃ t y, exec (.servePlanEntry c q p) s = .next t ∧ t = { s with ctxs := t.ctxs } ∧ (t.ctx c).find d.ring d.pos = some y ∧
        y.ending = none ∧ y.work = .serve { v with index := v.index + 1 }) ∧
      ((s.ctx c).mask ≠ 0#96 → e.codeBytes ≠ 0 → ∃ t y w r, exec (.servePlanEntry c q p) s = .next t ∧ (t.ctx c).find d.ring d.pos = some y ∧ y.ending = none ∧
        y.work = .serve w ∧ w.index = v.index ∧ w.run = some r ∧ r.tiles = (s.ctx c).mask ∧ r.codeBytes = e.codeBytes ∧ r.ending = none))) ∧
  (∀ (c : CtxId) (q : RingId) (p : Word) (d : Desc) (v : ServeRun) (s : State), s.ServeOf c q p d v → v.run = none → v.plan.length ≤ v.index →
    (v.sampling = false → (∀ k ∈ s.samplerClusters c, (s.cluster k.1 k.2).idle = true) → ∃ t y, exec (.serveSample c q p) s = .next t ∧
      (t.ctx c).find d.ring d.pos = some y ∧ y.work = .serve { v with sampling := true } ∧ y.ending = none ∧ (∀ k ∈ s.samplerClusters c, (t.cluster k.1 k.2).desc = true) ∧ t.mem = s.mem) ∧
    (∀ (s1 s3 : State) (bs : List Byte), v.sampling = true → s.refWaits c v.out.toNat = false → s.refWaits c (s.reg (rServeLogits c)) = false →
      s.sampleAll c v (s.pinRef c (s.reg (rServeLogits c))) = (s1, bs, none) →
      let n := (v.batch.filter (fun b => b.sample)).length
      (s1.holdClusters c false).writeHeld c v.out.toNat 0 (summaryArea v n ++ bs) = (s3, none) →
      ∃ t, exec (.serveSample c q p) s = .next t ∧ t.mem = s3.mem ∧ t.host = s3.host ∧
        t.Ended c d { status := stOk, result := BitVec.ofNat 64 (n + (v.repeated.map (fun x => x.2.2.2)).sum % 65536 * 2 ^ 32) }))

/-- BIND that passes its checks, with no earlier version of that ID, adds the version with its rank and object, without a reference, and pins the object and makes it READ_ONLY; RESULT is 0. Over a version with references that one drains, the new one is the ID's current version, and RESULT holds the earlier version and its references. UNBIND of a version with references lets it drain and RESULT holds its version and references. TOLLGATE_CREDIT in stage 4 adds 256 x RATE, with the remainder carried, over 10,000 to the level in 256ths, never above DEPTH. In stage 4, by physical function 0: setting ENABLE in CTX_TG_CTL fills the bucket to DEPTH, another write leaves the level; a smaller DEPTH lowers the level to it; RATE stores its 24 bits. A virtual function changes nothing. That a write of ENABLE 1 over 1 leaves the level is log 65. -/
def Obligations.AdaptersAndTollgate : Prop :=
  (∀ (c : CtxId) (q : RingId) (p : Word) (d : Desc) (o : Obj) (s : State), isAdapter 1 d = true → s.Passes c q p d (adapterChk 1 c) → s.obj? (d.num 24 4) = some o →
    (∀ a ∈ s.mem.adapters, ¬(a.ctx = c.val ∧ a.id = d.num 18 2) ∧ a.draining = false) →
    ∃ t, exec (.adapterBind c q p) s = .next t ∧ t.Ended c d { status := stOk } ∧
      t.mem.adapters = s.mem.adapters ++ [{ ctx := c, id := d.num 18 2, version := d.num 20 2, rank := d.num 22 2, obj := d.num 24 4 }] ∧
      t.obj? (d.num 24 4) = some { o with pin := true, readOnly := true, touch := s.touchNow } ∧ (∀ k, k ≠ d.num 24 4 → t.obj? k = s.obj? k) ∧ t.mem.data = s.mem.data) ∧
  (∀ (c : CtxId) (q : RingId) (p : Word) (d : Desc) (o : Obj) (a : Adapter) (s : State), isAdapter 1 d = true → s.Passes c q p d (adapterChk 1 c) → s.obj? (d.num 24 4) = some o →
    s.currentAdapter c (d.num 18 2) = some a → (∀ x ∈ s.mem.adapters, x.refs ≠ 0) → ∃ t, exec (.adapterBind c q p) s = .next t ∧
      t.Ended c d { status := stOk, result := BitVec.ofNat 64 (a.version + a.refs % 2 ^ 32 * 2 ^ 16) } ∧ t.mem.adapters.length = s.mem.adapters.length + 1 ∧
      t.currentAdapter c (d.num 18 2) = some { ctx := c, id := d.num 18 2, version := d.num 20 2, rank := d.num 22 2, obj := d.num 24 4 } ∧
      t.obj? (d.num 24 4) = some { o with pin := true, readOnly := true, touch := s.touchNow } ∧ t.mem.data = s.mem.data) ∧
  (∀ (c : CtxId) (q : RingId) (p : Word) (d : Desc) (a : Adapter) (s : State), isAdapter 2 d = true → s.Passes c q p d (adapterChk 2 c) → s.currentAdapter c (d.num 18 2) = some a →
    (∀ x ∈ s.mem.adapters, x.refs ≠ 0) → ∃ t, exec (.adapterUnbind c q p) s = .next t ∧
      t.Ended c d { status := stOk, result := BitVec.ofNat 64 (a.version + a.refs % 2 ^ 32 * 2 ^ 16) } ∧ t.currentAdapter c (d.num 18 2) = none ∧
      t.mem = { s.mem with adapters := t.mem.adapters } ∧ t.mem.adapters.length = s.mem.adapters.length) ∧
  (∀ (c : CtxId) (s : State), s.chip.stage = 4 → ∃ t, exec (.tollgateCredit c) s = .next t ∧ t = { s with ctxs := t.ctxs } ∧ (∀ k, k ≠ c.val → t.ctx k = s.ctx k) ∧
    let n := (s.ctx c).rollout.carry + 256 * fld (s.reg (rTgRate c)) 0 24
    (t.ctx c).rollout.level = min ((s.ctx c).rollout.level + n / 10000) (256 * fld (s.reg (rTgDepth c)) 0 24) ∧ (t.ctx c).rollout.carry = n % 10000) ∧
  (∀ (c : CtxId) (v : Word) (s : State), s.chip.stage = 4 →
    (∃ t, exec (.ctxTgCtlWrite .pf c v) s = .next t ∧ t.reg (rTgCtl c) = v.toNat &&& 0x800001FF ∧ (t.ctx c).rollout.level =
      if v.getLsbD 31 = true ∧ bitOf (s.reg (rTgCtl c)) 31 = false then 256 * fld (s.reg (rTgDepth c)) 0 24 else (s.ctx c).rollout.level) ∧
    (∃ t, exec (.ctxTgDepthWrite .pf c v) s = .next t ∧ t.reg (rTgDepth c) = v.toNat % 2 ^ 24 ∧
      (t.ctx c).rollout.level = min (s.ctx c).rollout.level (256 * (v.toNat % 2 ^ 24)) ∧ (t.ctx c).descs = (s.ctx c).descs) ∧
    exec (.ctxTgRateWrite .pf c v) s = .next { s with regs := s.regs.set (rTgRate c) (dword (v.toNat % 2 ^ 24)) }) ∧
  (∀ (n c : CtxId) (v : Word) (s : State), s.chip.stage = 4 → exec (.ctxTgCtlWrite (.vf n) c v) s = .next s ∧ exec (.ctxTgDepthWrite (.vf n) c v) s = .next s ∧ exec (.ctxTgRateWrite (.vf n) c v) s = .next s)

/-- DECLARE that passes its checks, whose group and map read, whose records, banks and alias are as the rules ask and fit, makes the pair in phase LEARN with bank 0 active and both banks READ_ONLY, and ends with OK; with a malformed record it ends with FORMAT and that record's index and makes none. TO_ROLLOUT that passes its checks in a group of several ranks from which no agreement has come begins the turn: phase TURNING, stage 1, the group's next SEQ, and an agreement with STEP and the map's digest to every other rank. TO_LEARNER of an ASYNC pair, or with no SERVE_STEP started, ends at once with phase LEARN; DROP, with no SERVE_STEP or EXEC started, ends with no pair; with one started it waits. -/
def Obligations.SwitchbackPairs : Prop :=
  (∀ (c : CtxId) (q : RingId) (p : Word) (d : Desc) (g : Group) (s : State), isSwitchback 1 d = true → (s.ctx c).flipWaiting = false → s.Passes c q p d (sbChk 1 c) → (s.beginDesc c d).readGroup c (d.num 18 2) = .ok g →
    let s1 := s.beginDesc c d
    let m := s1.readTarget c (s1.resolve c (d.num 24 8)) (48 * d.num 32 4)
    let raw := records 48 (d.num 32 4) m.data
    let kept := (segsOf raw 0 0).filter (fun r => r.srcRank == g.me || r.slice == g.me % d.num 44 1)
    m.stop = none → g.ranks.length % d.num 44 1 = 0 →
    (raw.all (segRecOk g.ranks.length (d.num 44 1)) = true → s.inRange c (d.num 20 4) = true → s.inRange c (d.num 36 4) = true → s.inRange c (d.num 40 4) = true →
      (s.ctx c).pair = none → s.obj? (d.num 20 4) = none → (s.obj? (d.num 36 4)).map (fun o => (o.ctx, o.state)) = some (c.val, 1) →
      (s.obj? (d.num 40 4)).map (fun o => (o.ctx, o.state)) = some (c.val, 1) → d.num 36 4 ≠ d.num 40 4 → s.objSize c (d.num 36 4) = s.objSize c (d.num 40 4) →
      (∀ r ∈ kept, (r.srcRank = g.me → r.srcOff + 4 * r.elems ≤ s.objSize c r.srcObj) ∧ r.dstOff + r.elemBytes ≤ s.objSize c (d.num 36 4) ∧
        r.scaleOff + r.scaleBytes ≤ s.objSize c (d.num 36 4) ∧ overlapAt kept r = false) → kept.length ≤ 1048576 →
      ∃ t x, exec (.switchbackDeclare c q p) s = .next t ∧ t.Ended c d { status := stOk } ∧ (t.ctx c).pair = some x ∧ x.phase = 1 ∧ x.active = 0 ∧ x.st0 = 0 ∧ x.st1 = 0 ∧
        x.turn = none ∧ x.bank0 = d.num 36 4 ∧ x.bank1 = d.num 40 4 ∧ x.aliasId = d.num 20 4 ∧ x.recs = kept ∧ x.ranks = g.ranks ∧ x.async = bitOf (d.num 17 1) 0 ∧
        (t.obj? (d.num 36 4)).map (fun o => o.readOnly) = some true ∧ (t.obj? (d.num 40 4)).map (fun o => o.readOnly) = some true ∧ t.mem.data = s.mem.data) ∧
    (∀ i, raw.findIdx? (fun r => !segRecOk g.ranks.length (d.num 44 1) r) = some i → ∃ t, exec (.switchbackDeclare c q p) s = .next t ∧
      t.Ended c d { status := stFormat, secondary := 0x8018#16, result := BitVec.ofNat 64 i } ∧ (t.ctx c).pair = (s.ctx c).pair ∧ t.mem.data = s.mem.data)) ∧
  (∀ (c : CtxId) (q : RingId) (p : Word) (d : Desc) (x : Pair) (g : Group) (s : State), isSwitchback 2 d = true → (s.ctx c).flipWaiting = false → s.Passes c q p d (sbChk 2 c) → (s.ctx c).pair = some x →
    (s.beginDesc c d).readGroup c x.group = .ok g → g.me = x.me → g.ranks.length = x.nranks → 2 ≤ x.nranks → (s.ctx c).sbAgrees = [] →
    ∃ t y u, exec (.switchbackToRollout c q p) s = .next t ∧ (t.ctx c).find d.ring d.pos = some y ∧ y.ending = none ∧ y.work = .turn ∧
      (t.ctx c).pair = some { x with ranks := g.ranks, phase := 2, turn := some u } ∧ u.stage = 1 ∧ u.step = BitVec.ofNat 64 (d.num 48 8) ∧
      u.seq = (s.ctx c).collSeq.get 0 x.group ∧ (t.ctx c).collSeq.get 0 x.group = u.seq + 1 ∧
      (∀ k ∈ otherRanks g.ranks g.me, s.carries t c k.2 x.group u.seq (.sbAgree u.step x.mapDigest)) ∧ t.mem = s.mem) ∧
  (∀ (c : CtxId) (q : RingId) (p : Word) (d : Desc) (x : Pair) (s : State), isSwitchback 3 d = true → (s.ctx c).flipWaiting = false → s.Passes c q p d (sbChk 3 c) → (s.ctx c).pair = some x →
    (x.async = true ∨ (∀ y ∈ (s.ctx c).descs, y.opcode = 9 → y.start = none)) →
    ∃ t, exec (.switchbackToLearner c q p) s = .next t ∧ t.Ended c d { status := stOk } ∧ (t.ctx c).pair = some { x with phase := 1 } ∧ t.mem = s.mem) ∧
  (∀ (c : CtxId) (q : RingId) (p : Word) (d : Desc) (x : Pair) (s : State), isSwitchback 4 d = true → (s.ctx c).flipWaiting = false → s.Passes c q p d (sbChk 4 c) → (s.ctx c).pair = some x →
    ((∀ y ∈ (s.ctx c).descs, y.opcode = 9 ∨ y.opcode = 3 → y.start = none) →
      ∃ t, exec (.switchbackDrop c q p) s = .next t ∧ t.Ended c d { status := stOk } ∧ (t.ctx c).pair = none ∧ t.mem = s.mem) ∧
    (∀ y n, y ∈ (s.ctx c).descs → y.opcode = 9 ∨ y.opcode = 3 → y.start = some n → (y.ring ≠ d.ring ∨ y.pos ≠ d.pos) →
      ∃ t z, exec (.switchbackDrop c q p) s = .next t ∧ (t.ctx c).find d.ring d.pos = some z ∧ z.ending = none ∧ z.work ≠ .idle ∧ (t.ctx c).pair = some x ∧ t.mem = s.mem))

/-- In a turn whose SWITCHBACK is unfinished, on a module with a valid address and a context with a tag: an agreement of the turn's SEQ with another step or map in stages 1 to 5 ends the turn with STATE; one that matches while others are missing is held; one of a later SEQ is kept for its turn, one of an earlier SEQ has no effect. In stage 4 a segment whose bytes do not match the digest that came with it ends the turn with CHECK. In stage 5 a confirmation is held while others are missing; with all of them, a rank whose digest differs from its slice's ends the turn with CHECK naming that rank, and with none the flip waits in stage 6. SB_FLIP in stage 6 with nothing left to wait for makes the other bank active, the phase ROLLOUT, advances the epoch and ends with OK and the bytes written. An ABORT in stages 1 to 5 ends the turn with its status, rank and stage, and the timer ends it with TIMEOUT; in stage 6 neither ends it. Without a tag or a valid address no frame has an effect. A turn that fails leaves phase LEARN, no turn, and an INVALID standby bank of free contents. That the Switchback timer does not end a turn in stage 6, through whose wait R378 has it run, is the model's reading (R377; log 64). -/
def Obligations.SwitchbackTurns : Prop :=
  (∀ (c : CtxId) (x : Pair) (u : Turn) (d : Desc) (s : State), (s.ctx c).pair = some x → x.turn = some u → (s.ctx c).find u.ring u.pos = some d → d.ending = none →
    (∀ y ∈ (s.ctx c).descs, y.ring = u.ring → y.pos = u.pos → y = d) → s.hears c = true →
    let failed := fun (t : State) (st : Byte) (rank stage : Nat) => t.Ended c d { status := st, result := BitVec.ofNat 64 (rank + stage * 2 ^ 16) } ∧
      ∃ y, (t.ctx c).pair = some y ∧ y.phase = 1 ∧ y.turn = none ∧ y.active = x.active ∧ (if x.active = 0 then y.st1 else y.st0) = 0 ∧ y.activeState = x.activeState
    let freed := (s.devWrite (s.objBase x.standby) (s.freeBytes (((s.obj? x.standby).map (fun o => o.size)).getD 0))).mem
    let ok := fun (a : Agree) => a.step = u.step ∧ a.digest = x.mapDigest
    let settled := u.sent = true ∧ ∀ a ∈ u.agrees, ok a
    (∀ (rank : Nat) (step : DWord) (dig : BitVec 256), (∀ a ∈ u.agrees, a.rank ≠ rank) →
      let a : Agree := ⟨rank, u.seq, step, dig⟩
      (u.stage ≤ 5 → ¬ok a → ∃ t, exec (.sbAgreeFrame c ⟨rank, u.seq⟩ step dig) s = .next t ∧ failed t stState x.me u.stage ∧ t.mem = freed) ∧
      (ok a → (∀ b ∈ u.agrees, ok b) → (∃ k ∈ otherRanks x.ranks x.me, k.1 ≠ rank ∧ ∀ b ∈ u.agrees, b.rank ≠ k.1) →
        ∃ t, exec (.sbAgreeFrame c ⟨rank, u.seq⟩ step dig) s = .next t ∧ (t.ctx c).pair = some { x with turn := some { u with agrees := a :: u.agrees } } ∧
          t.out = s.out ∧ t.mem = s.mem)) ∧
    (∀ (k : TurnRank) (step : DWord) (dig : BitVec 256), (k.seq < u.seq → exec (.sbAgreeFrame c k step dig) s = .next s) ∧
      (u.seq < k.seq → ∃ t, exec (.sbAgreeFrame c k step dig) s = .next t ∧ t = { s with ctxs := t.ctxs } ∧ (t.ctx c).pair = some x ∧
        (⟨k.rank, k.seq, step, dig⟩ : Agree) ∈ (t.ctx c).sbAgrees)) ∧
    (u.stage = 4 → settled → (∃ r ∈ x.receives, sha256 (s.segInBank x r) ≠ u.arrived.readN (r.base + r.bytes) 32) →
      ∃ t, exec (.sliceDigestFormed c) s = .next t ∧ failed t stCheck x.me 4 ∧ t.mem = freed) ∧
    (u.stage = 4 → settled → (∀ r ∈ x.receives, sha256 (s.segInBank x r) = u.arrived.readN (r.base + r.bytes) 32) → (∃ k, k < x.nranks ∧ k ≠ x.me ∧ ∀ a ∈ u.confirms, a.1 ≠ k) →
      ∃ t w dig, exec (.sliceDigestFormed c) s = .next t ∧ (t.ctx c).pair = some { x with turn := some w } ∧ w.stage = 5 ∧ w.slice = some dig ∧ (x.me, dig) ∈ w.confirms ∧
        (s.maySend c = true → ∀ k ∈ otherRanks x.ranks x.me, s.carries t c k.2 x.group u.seq (.sbConfirm dig))) ∧
    (∀ (rank : Nat) (dig : BitVec 256), u.stage = 5 →
      let cs := (rank, dig) :: u.confirms.filter (fun a => a.1 != rank)
      ((∃ k, k < x.nranks ∧ ∀ a ∈ cs, a.1 ≠ k) → ∃ t, exec (.sbConfirmFrame c rank dig) s = .next t ∧ (t.ctx c).pair = some { x with turn := some { u with confirms := cs } } ∧
        t.mem = s.mem) ∧
      ((∀ k, k < x.nranks → ∃ a ∈ cs, a.1 = k) →
        (∀ k l, x.oddRanks cs = k :: l → ∃ t, exec (.sbConfirmFrame c rank dig) s = .next t ∧ failed t stCheck k 5 ∧ t.mem = freed) ∧
        (x.oddRanks cs = [] → ∃ t w, exec (.sbConfirmFrame c rank dig) s = .next t ∧ (t.ctx c).pair = some { x with turn := some w } ∧ w.stage = 6 ∧ w.flipWaits ≠ none))) ∧
    (u.stage = 6 → (s.ctx c).allDone (u.flipWaits.getD []) = true → d.work = .turn → ∃ t y, exec (.sbFlip c) s = .next t ∧ (t.ctx c).pair = some y ∧ y.phase = 3 ∧ y.turn = none ∧
      y.active = 1 - x.active ∧ y.activeState = 1 ∧ (t.ctx c).epoch = nextEpoch (s.ctx c).epoch ∧ t.Ended c d { status := stOk, result := BitVec.ofNat 64 u.written } ∧
      (t.ctx c).sb.step = u.step ∧ (t.ctx c).sb.done = (s.ctx c).sb.done + 1#32) ∧
    (∀ (rank stage : Nat) (st : Byte), (u.stage ≤ 5 → ∃ t, exec (.sbAbort c rank st stage) s = .next t ∧ failed t (carriedStatus st) rank stage ∧ t.mem = freed) ∧
      (5 < u.stage → ∃ t, exec (.sbAbort c rank st stage) s = .next t ∧ (t.ctx c).pair = some x ∧ t = { s with ctxs := t.ctxs })) ∧
    (u.stage ≤ 5 → ∃ t, exec (.sbTimerExpire c) s = .next t ∧ failed t stTimeout x.me u.stage ∧ t.mem = freed ∧
      (s.maySend c = true → ∀ k ∈ otherRanks x.ranks x.me, s.carries t c k.2 x.group u.seq (.sbAbort x.me stTimeout u.stage))) ∧
    (5 < u.stage → ∃ t, exec (.sbTimerExpire c) s = .next t ∧ (t.ctx c).pair = some x ∧ t = { s with ctxs := t.ctxs })) ∧
  (∀ (c : CtxId) (k : TurnRank) (rank stage : Nat) (st : Byte) (step : DWord) (dig : BitVec 256) (s : State), s.hears c = false →
    exec (.sbAgreeFrame c k step dig) s = .next s ∧ exec (.sbConfirmFrame c rank dig) s = .next s ∧ exec (.sbAbort c rank st stage) s = .next s)

/-- LOAD_SIGNED that passes its checks: where a step before the data stops (a malformed manifest, a key of no valid slot, a bad signature, no shard of this rank) it ends with that status and has changed nothing but the last use of the objects it names (and, where a memory error stopped it, what that error leaves). In particular a manifest that reads and is well formed, with an allowed conversion and the key of a valid slot of this context, but a signature that does not verify, ends with AUTH. With REPAIR into a visible object of the right size, whose chunks all read and match their digests, it ends with OK, and RESULT holds the bytes, the slot and whether an element saturated; the object is signed and verified. A chunk that fails ends it with its status and index. SEC_PUB_CTL by physical function 0 sets VALID; a virtual function changes nothing. -/
def Obligations.SignedLoads : Prop :=
  (∀ (c : CtxId) (q : RingId) (p : Word) (d : Desc) (e : Ending) (s : State), d.opcode = 5 → s.Passes c q p d (loadChk c) → (s.beginDesc c d).loadFind c (s.begun d) = .stop e → s.loadFind c d = .stop e →
    ∃ t, exec (.loadSigned c q p) s = .next t ∧ t.Ended c d e ∧ t.mem.data = s.mem.data ∧ (e.status ≠ stPoison →
      t = { s with ctxs := t.ctxs, nextStart := s.nextStart + 1, mem := ((s.beginDesc c d).touchRefs c [d.num 16 8, d.num 32 8, d.num 40 4 * 2 ^ 40]).mem })) ∧
  (∀ (c : CtxId) (d : Desc) (k : Nat) (s : State),
    let g := s.readTarget c (s.heldRef c d 16) (d.num 24 4)
    let m := manifestOf g.data
    g.stop = none → m.ok g.data = true → convAllowed m.efmt (d.num 29 1) = true → s.keySlot c ((g.data.drop m.keyOff).take 97) = some k → m.signed g.data = false →
    s.loadFind c d = .stop { status := stAuth }) ∧
  (∀ (c : CtxId) (q : RingId) (p : Word) (d : Desc) (m : Manifest) (digests : List (List Byte)) (slot first bytes : Nat) (o : Obj) (s s1 : State) (r : Option (Nat × Byte)) (sat : Bool), d.opcode = 5 →
    s.Passes c q p d (loadChk c) → (s.beginDesc c d).loadFind c (s.begun d) = .shard m digests slot first bytes → s.loadFind c d = .shard m digests slot first bytes →
    s.inRange c (d.num 40 4) = true → bitOf (d.num 28 1) 1 = true → s.visible c (d.num 40 4) = some o →
    let out := outBytes m.efmt (d.num 29 1) bytes
    o.size = out.1 + out.2 →
    State.loadChunks c ((s.beginDesc c d).heldRef c d 32) m (d.num 29 1) ((s.beginDesc c d).objBase (d.num 40 4)) first bytes
      ((List.range (ceilDiv bytes chunkBytes)).map (fun i => (first / chunkBytes + i, digests.getD (first / chunkBytes + i) [])))
      ((s.beginDesc c d).touchRefs c [d.num 16 8, d.num 32 8, d.num 40 4 * 2 ^ 40]) 0 [] false = (s1, r, sat) →
    (r = none → ∃ t, exec (.loadSigned c q p) s = .next t ∧ t.mem.data = s1.mem.data ∧
      t.Ended c d { status := stOk, result := BitVec.ofNat 64 (out.1 + out.2 + slot * 2 ^ 48 + (if sat = true then 2 ^ 63 else 0)) } ∧
      ∀ y, s1.obj? (d.num 40 4) = some y → (t.obj? (d.num 40 4)).map (fun z => (z.signed, z.verified)) = some (true, true)) ∧
    (∀ i st, r = some (i, st) → ∃ t, exec (.loadSigned c q p) s = .next t ∧ t.mem = s1.mem ∧ t.Ended c d { status := st, result := BitVec.ofNat 64 i })) ∧
  (∀ (k : Fin 32) (v : Word) (s : State), exec (.secPubCtlWrite .pf k v) s = .next { s with regs := s.regs.set (rPubCtl k) (dword (v.toNat &&& 0x80000000)) }) ∧
  (∀ (n : CtxId) (k : Fin 32) (v : Word) (s : State), exec (.secPubCtlWrite (.vf n) k v) s = .next s)

/-- OPEN that passes its checks opens the step with its attempt and group, clears CTX_INTEG and every trigger count, and ends with OK; where a norm record cannot be stamped it ends with that status and opens none. COMMIT of a step with failed work fails it with cause 0x01 and CHECK; of one whose shard or shadow step lags it stays in progress, the step COMMITTING; of a failed step it ends with CHECK for this rank's own failure, else REPEAT. ABANDON fails the open step with cause 0x06 and ends with OK. A FAIL of this step and attempt fails it with cause 0x05 (0x0B as received) and its rank; another is counted; one by the replica digests of its group has no effect while this rank forms its own verdict. The digests are formed and the shadow digest sent to the successor; a shadow digest that differs from the shard's fails the step with 0x0B, one that agrees leads to the contribution. Without a tag or a valid module address no frame has an effect. The commit result, this rank's own entry being what it contributed, with a failing rank fails the step with its cause; without, the step commits and the commit word is written, COMMIT ending with the status of a write that fails. The timer fails a step not contributed, and leaves a contributed one UNKNOWN with TIMEOUT. A received FAIL kept as 0x05 but 0x0B as itself, a FAIL by replica digests that waits for this rank's own verdict, and an OPEN whose norm record cannot be written are log 62. -/
def Obligations.MilepostSteps : Prop :=
  (∀ (c : CtxId) (q : RingId) (p : Word) (d : Desc) (g : Group) (s : State), isMilepost 1 d = true → s.Passes c q p d (mileChk 1 c) → (s.beginDesc c d).group? c (d.num 18 2) = some g →
    let m := (s.ctx c).mile
    (∀ st, (s.beginDesc c d).stampFails c m.step = some st → ∃ t, exec (.milepostOpen c q p) s = .next t ∧ (t.ctx c).mile = m ∧ t.mem = s.mem ∧
      t.Ended c d { status := st, result := mileResult m }) ∧
    ((s.beginDesc c d).stampFails c m.step = none → ∃ t, exec (.milepostOpen c q p) s = .next t ∧ (t.ctx c).mile.state = 2 ∧ (t.ctx c).mile.attempt.toNat = d.num 20 4 ∧ (t.ctx c).mile.ranks = g.ranks ∧ (t.ctx c).mile.me = g.me ∧
      (t.ctx c).mile.last = m.last ∧ (t.ctx c).integ = 0#64 ∧ (t.ctx c).trig.length = (s.ctx c).trig.length ∧ (∀ e ∈ (t.ctx c).trig, e.count = 0 ∧ e.fired = false) ∧
      t.Ended c d { status := stOk, result := BitVec.ofNat 64 (d.num 20 4 * 2 ^ 32 + m.failRank % 4096 * 2 ^ 8 + m.cause.toNat) })) ∧
  (∀ (c : CtxId) (q : RingId) (p : Word) (d : Desc) (u : MpSetup) (s : State), isMilepost 2 d = true → s.Passes c q p d (mileChk 2 c) →
    let m := (s.ctx c).mile
    (m.state = 4 → ∃ t, exec (.milepostCommit c q p) s = .next t ∧ (t.ctx c).mile = m ∧ t.Ended c d { status := if m.ownFail = true then stCheck else stRepeat, result := mileResult m }) ∧
    (m.state = 2 → m.setup = some u → (∀ y ∈ (s.ctx c).descs, y.start = none) →
      (m.badWork = true → ∃ t, exec (.milepostCommit c q p) s = .next t ∧ (t.ctx c).mile.state = 4 ∧ (t.ctx c).mile.cause = 0x01#8 ∧ (t.ctx c).mile.failRank = m.me ∧
        (t.ctx c).mile.ownFail = true ∧ t.Ended c d { status := stCheck, result := BitVec.ofNat 64 (m.attempt.toNat * 2 ^ 32 + m.me % 4096 * 2 ^ 8 + 1) }) ∧
      (m.badWork = false → (s.ctx c).integ = 0#64 → (∀ e ∈ (s.ctx c).trig, e.fired = true) → (m.shard ≠ m.last ∨ m.shadow ≠ m.last) →
        ∃ t y, exec (.milepostCommit c q p) s = .next t ∧ (t.ctx c).mile.state = 3 ∧ (t.ctx c).find d.ring d.pos = some y ∧ y.ending = none ∧ y.work = .commit ∧ t.mem = s.mem))) ∧
  (∀ (c : CtxId) (q : RingId) (p : Word) (d : Desc) (s : State), isMilepost 3 d = true → s.Passes c q p d (mileChk 3 c) →
    let m := (s.ctx c).mile
    ∃ t, exec (.milepostAbandon c q p) s = .next t ∧ (t.ctx c).mile.state = 4 ∧ (t.ctx c).mile.cause = 0x06#8 ∧ (t.ctx c).mile.expected = m.attempt + 1#32 ∧
      t.Ended c d { status := stOk, result := BitVec.ofNat 64 (m.attempt.toNat * 2 ^ 32 + m.me % 4096 * 2 ^ 8 + 6) }) ∧
  (∀ (c : CtxId) (step : DWord) (attempt : Word) (cause : Byte) (rank : Nat) (s : State), s.hears c = true →
    let m := (s.ctx c).mile
    let mine := (m.state = 2 ∨ m.state = 3) ∧ step = m.last + 1#64 ∧ attempt = m.attempt
    let waits := (cause = 0x08#8 ∨ cause = 0x09#8 ∨ cause = 0x0A#8) ∧ (∃ r, m.commit = some r ∧ r.formed = true ∧ r.contributed = false) ∧ s.inReplica c rank = true
    (mine → ¬waits → ∃ t, exec (.failFrame c step attempt cause rank) s = .next t ∧ (t.ctx c).mile.state = 4 ∧
      (t.ctx c).mile.cause = (if cause = 0x0B#8 then 0x0B#8 else 0x05#8) ∧ (t.ctx c).mile.failRank = rank ∧ (t.ctx c).mile.ownFail = false) ∧
    (mine → waits → exec (.failFrame c step attempt cause rank) s = .next s) ∧
    (¬mine → exec (.failFrame c step attempt cause rank) s =
      .next (s.setCtx c { s.ctx c with mile := { m with staleFail := if 255 ≤ m.staleFail + 1 then 255 else m.staleFail + 1 } }))) ∧
  (∀ (c : CtxId) (step : DWord) (attempt : Word) (cause : Byte) (rank : Nat) (k : DigestKind) (dig : BitVec 256) (ks : List Contribution) (s : State), s.hears c = false →
    exec (.failFrame c step attempt cause rank) s = .next s ∧ exec (.digestFrame c k rank dig) s = .next s ∧ (1 < ks.length → exec (.commitResult c ks) s = .next s)) ∧
  (∀ (c : CtxId) (r : CommitRun) (u : MpSetup) (g : Group) (dig : BitVec 256) (s : State),
    let m := (s.ctx c).mile
    m.state = 3 → m.commit = some r → m.setup = some u → u.replicaGroup = 0xFFFF → s.group? c u.shadowGroup = some g → 2 ≤ g.ranks.length → r.contributed = false → s.hears c = true →
    (r.formed = true → dig ≠ r.shard → ∃ t, exec (.digestFrame c .shadow 0 dig) s = .next t ∧ (t.ctx c).mile.state = 4 ∧ (t.ctx c).mile.cause = 0x0B#8) ∧
    (r.formed = true → dig = r.shard → (otherRanks m.ranks m.me = [] ∨ ∃ k ∈ otherRanks m.ranks m.me, ∀ x ∈ m.contribs, x.1 ≠ k.1) → ∃ t, exec (.digestFrame c .shadow 0 dig) s = .next t ∧ (t.ctx c).mile.state = 3 ∧
      ((t.ctx c).mile.commit).map (fun x => x.contributed) = some true ∧ ∀ k ∈ otherRanks m.ranks m.me, s.carries t c k.2 m.group 0 (.contribution (s.contribution c))) ∧
    (r.formed = false → exec (.digestFrame c .shadow 0 dig) s = .next (s.setCtx c { s.ctx c with mile := { m with shadowIn := some dig } })) ∧
    (r.checked = true → r.formed = false → m.shadowIn = none → r.taken = s.digestBytesOf u → (s.readSpans (s.rangeSpans u.replica)).stop = none → (s.readSpans (s.rangeSpans u.shard)).stop = none →
      (s.readSpans (s.rangeSpans u.shadow)).stop = none → ∃ t, exec (.weightDigestFormed c) s = .next t ∧ (t.ctx c).mile.state = 3 ∧
        ((t.ctx c).mile.commit).map (fun x => (x.formed, x.contributed, x.shard)) = some (true, false, digest256 (weightDigest (s.readSpans (s.rangeSpans u.shard)).data)) ∧
        s.carries t c g.successor u.shadowGroup 0 (.digest .shadow (digest256 (weightDigest (s.readSpans (s.rangeSpans u.shadow)).data))))) ∧
  (∀ (c : CtxId) (ks : List Contribution) (r : CommitRun) (d : Desc) (s : State),
    let m := (s.ctx c).mile
    let all := ks.set m.me (s.contribution c)
    let base := if !m.block.isEmpty && m.setup.any (fun u => (s.obj? u.stateObj).any (fun o => o.readOnly)) then stAuth else stOk
    let word := (commitWord (fld (s.reg (rTrigCfg c)) 30 2) (word (s.reg (rClipMax c))) (word (s.reg (rClipEps c))) (m.last + 1#64) (reduceRanks all)).1
    let none_ := fld (s.reg (rTrigCfg c)) 30 2 = 0 ∧ s.reg (rCommitOut c) = 0
    m.state = 3 → m.commit = some r → r.contributed = true → ks.length = m.ranks.length → (s.hears c = true ∨ ks.length ≤ 1) → (s.ctx c).find d.ring d.pos = some d → d.work = .commit → d.ending = none →
    let bad := fun (k : Contribution) => k.fail || k.step != m.last + 1#64 || k.attempt != m.attempt
    (∀ k i, all.zipIdx.find? (fun x => bad x.1) = some (k, i) → ∃ t e, exec (.commitResult c ks) s = .next t ∧ (t.ctx c).mile.state = 4 ∧
      (t.ctx c).mile.cause = (if k.fail = true then k.cause else 0x0E#8) ∧ (t.ctx c).mile.failRank = (if k.fail = true then k.failRank else i) ∧ t.Ended c d e ∧ e.status = stRepeat) ∧
    ((∀ k ∈ all, bad k = false) → ∃ t, exec (.commitResult c ks) s = .next t ∧ (t.ctx c).mile.state = 1 ∧ (t.ctx c).mile.last = m.last + 1#64 ∧ (t.ctx c).mile.expected = 0#32 ∧
      (t.ctx c).mile.commit = none ∧ t.Ended c d { status := if none_ then base else (s.writeRefFails c (s.reg (rCommitOut c)) 0 word).getD base, result := mileResult m } ∧
      (bitOf (s.reg (rRecCfg c)) 31 = false → m.block = [] → t.mem = (if none_ then s.mem else (s.writeRef c (s.reg (rCommitOut c)) 0 word).mem)))) ∧
  (∀ (c : CtxId) (r : CommitRun) (d : Desc) (s : State),
    let m := (s.ctx c).mile
    m.state = 3 → m.commit = some r → (s.ctx c).find d.ring d.pos = some d → d.work = .commit → d.ending = none →
    (∀ y ∈ (s.ctx c).descs, y.ring = d.ring → y.pos = d.pos → y = d) → ∃ t e, exec (.commitTimerExpire c) s = .next t ∧
      (t.ctx c).mile.state = (if r.contributed = true then 5 else 4) ∧ t.Ended c d e ∧ e.status = stTimeout ∧ (t.ctx c).mile.last = m.last)

/-- SETUP of a block that reads, is well formed, names objects of the context and fits them copies its lists, enters CLOSED with STEP as last, shard and shadow step, and ends with OK; a malformed header ends it with FORMAT at field 24. ADVANCE sets the shard step, or the shadow step, to the last one. WAYMARK writes its header and the shadow's bytes to DST and ends with OK, holding what it read of the shadow until it completes. RESTORE of bytes that do not match the digest of their header ends with CHECK; of bytes that do it enters CLOSED at STEP. FILL_SEND waits until it is asked; FILL_RECV asks the sender; either ends with TIMEOUT when no progress is made. TAKEOVER enters CLOSED with the given attempt, sets every group's SEQ to 0 and advances the epoch. EXPEL ends the Milepost's work, and no frame of its own with the context's tag is left to send but the ABORT messages, with status EXPELLED, of a turn in stages 1 to 5. That the ABORT still goes out is log 117 (R376, R388), the bytes of the message log 18. -/
def Obligations.ShadowControl : Prop :=
  (∀ (c : CtxId) (q : RingId) (p : Word) (d : Desc) (s : State), isShadow 1 d = true → s.Passes c q p d (shadowChk 1 c) →
    let s1 := s.beginDesc c d
    let a := s1.resolve c (d.num 24 8)
    let h := s1.readTarget c a 64
    let n := recNat h.data 4 2
    let k := recNat h.data 6 2
    let b := s1.readTarget c (a.plus 64) (32 * (2 * n + k))
    let rs := records 32 (2 * n + k) b.data
    64 ≤ a.extent → h.stop = none →
    (setupHdrOk h.data = false → ∃ t, exec (.shadowSetup c q p) s = .next t ∧ t.Ended c d { status := stFormat, secondary := 0x8018#16 } ∧ (t.ctx c).mile = (s.ctx c).mile) ∧
    (setupHdrOk h.data = true → 64 + 32 * (2 * n + k) ≤ a.extent → b.stop = none → rs.all rangeRecOk = true →
      (∀ i x y, i < n → (rs.map rangeOf)[i]? = some x → (rs.map rangeOf)[n + i]? = some y → x.len = y.len) →
      (∀ x ∈ rs.map rangeOf, s.inRange c x.obj = true ∧ s.rangeFits c x = true) → s.inRange c (recNat h.data 16 4) = true → s.inRange c (recNat h.data 20 4) = true →
      131072 ≤ s.objSize c (recNat h.data 20 4) → ∃ t u, exec (.shadowSetup c q p) s = .next t ∧ t.Ended c d { status := stOk } ∧ (t.ctx c).mile.state = 1 ∧
        (t.ctx c).mile.setup = some u ∧ u.shard ++ u.shadow ++ u.replica = rs.map rangeOf ∧ u.shard.length = n ∧ u.shadow.length = n ∧ (t.ctx c).mile.last.toNat = recNat h.data 8 8 ∧
        (t.ctx c).mile.shard = (t.ctx c).mile.last ∧ (t.ctx c).mile.shadow = (t.ctx c).mile.last ∧ t.mem = (s1.touchRefs c [d.num 24 8]).mem)) ∧
  (∀ (c : CtxId) (q : RingId) (p : Word) (d : Desc) (s : State), isShadow 2 d = true → s.Passes c q p d (shadowChk 2 c) → (s.ctx c).mile.commit = none →
    let m := (s.ctx c).mile
    ∃ t, exec (.shadowAdvance c q p) s = .next t ∧ t.Ended c d { status := stOk } ∧ t.mem = s.mem ∧
      (t.ctx c).mile = if bitOf (d.num 17 1) 0 = true then { m with shard := m.last } else { m with shadow := m.last }) ∧
  (∀ (c : CtxId) (q : RingId) (p : Word) (d : Desc) (u : MpSetup) (g : Group) (s s2 : State), isShadow 3 d = true → s.Passes c q p d (shadowChk 3 c) → (s.ctx c).mile.setup = some u →
    (s.beginDesc c d).readGroup c u.shadowGroup = .ok g →
    let n := spanBytes (s.rangeSpans u.shadow)
    let k := s.blockLen (s.objBase u.stateObj + 65536)
    let got := s.readSpans (s.rangeSpans u.shadow ++ [(s.objBase u.stateObj + 65536, k)])
    let hdr := leBytes 4 waymarkMagic ++ leBytes 2 ((g.me + 1) % g.ranks.length) ++ leBytes 2 g.ranks.length ++ leBytes 8 (s.ctx c).mile.last.toNat ++
      leBytes 8 (n + k) ++ leBytes 8 0 ++ weightDigest (got.data.take n)
    let s1 := (s.beginDesc c d).touchRefs c [d.num 24 8]
    64 + n + k ≤ d.num 32 8 → got.stop = none → s1.writeTarget c (s1.resolve c (d.num 24 8)) (hdr ++ got.data) = (s2, none) →
    exec (.shadowWaymark c q p) s = .next ((s2.setWork c d (.waymark (got.data.take n))).endHeld c d.ring d.pos { status := stOk })) ∧
  (∀ (c : CtxId) (q : RingId) (p : Word) (d : Desc) (u : MpSetup) (g : Group) (s : State), isShadow 4 d = true → s.Passes c q p d (shadowChk 4 c) → (s.ctx c).mile.setup = some u →
    (s.beginDesc c d).readGroup c u.shadowGroup = .ok g →
    let s1 := s.beginDesc c d
    let a := s1.resolve c (d.num 24 8)
    let h := s1.readTarget c a 64
    let sh := shadowFlag d
    let spans := s.rangeSpans (if sh = true then u.shadow else u.shard)
    let n := spanBytes spans
    let len := recNat h.data 16 8
    let b := s1.readTarget c (a.plus 64) len
    let s2 := (State.writeSpans spans (s1.touchRefs c [d.num 24 8]) 0 0 (b.data.take n)).devWrite (s.objBase u.stateObj + (if sh = true then 65536 else 0)) (b.data.drop n)
    h.stop = none → recNat h.data 0 4 = waymarkMagic → n ≤ len → len ≤ n + 65536 → recNat h.data 8 8 = d.num 40 8 →
    recNat h.data 4 2 = (if sh = true then (g.me + 1) % g.ranks.length else g.me) → 64 + len ≤ d.num 32 8 → b.stop = none →
    s.spansReadOnly (spans ++ [(s.objBase u.stateObj + (if sh = true then 65536 else 0), 65536)]) = false →
    (weightDigest (s2.readSpans spans).data ≠ (h.data.drop 32).take 32 → ∃ t, exec (.shadowRestore c q p) s = .next t ∧ t.Ended c d { status := stCheck } ∧ t.mem = (s2.reachSpans spans).mem ∧
      (t.ctx c).mile = (s.ctx c).mile) ∧
    (weightDigest (s2.readSpans spans).data = (h.data.drop 32).take 32 → ∃ t, exec (.shadowRestore c q p) s = .next t ∧ t.Ended c d { status := stOk } ∧ t.mem = s2.mem ∧
      (t.ctx c).mile.state = 1 ∧ (t.ctx c).mile.last = BitVec.ofNat 64 (d.num 40 8) ∧
      (if sh = true then (t.ctx c).mile.shadow else (t.ctx c).mile.shard) = BitVec.ofNat 64 (d.num 40 8))) ∧
  (∀ (c : CtxId) (q : RingId) (p : Word) (d : Desc) (s : State), isShadow 5 d = true → s.Passes c q p d (shadowChk 5 c) → (s.ctx c).readies = [] → ∃ t y r, exec (.shadowFillSend c q p) s = .next t ∧
    (t.ctx c).find d.ring d.pos = some y ∧ y.ending = none ∧ y.work = .fill r ∧ r.send = true ∧ r.kind = kindFlag d ∧ r.peer = d.num 18 2 % 4096 ∧ r.sent = false ∧ t.out = s.out) ∧
  (∀ (c : CtxId) (q : RingId) (p : Word) (d : Desc) (s : State), isShadow 6 d = true → s.Passes c q p d (shadowChk 6 c) → ∃ t y r, exec (.shadowFillRecv c q p) s = .next t ∧ (t.ctx c).find d.ring d.pos = some y ∧
    y.ending = none ∧ y.work = .fill r ∧ r.send = false ∧ r.kind = kindFlag d ∧ s.carries t c (d.num 18 2 % 4096) (fillGroup (kindFlag d)) 0 (.fill 9 r.total (s.fillLens c r)) ∧ t.mem = s.mem) ∧
  (∀ (c : CtxId) (q : RingId) (p : Word) (d : Desc) (r : FillRun) (s : State), s.desc? c q p = some d → d.work = .fill r → d.ending = none →
    exec (.fillNoProgressTimeout c q p) s = .next (s.endDesc c d.ring d.pos { status := stTimeout })) ∧
  (∀ (c : CtxId) (q : RingId) (p : Word) (d : Desc) (s : State), isShadow 7 d = true → s.Passes c q p d (shadowChk 7 c) → (s.ctx c).newer = [] → (s.ctx c).pair = none → ∃ t, exec (.shadowTakeover c q p) s = .next t ∧
    t.Ended c d { status := stOk } ∧ (t.ctx c).mile.state = 1 ∧ (t.ctx c).mile.expected.toNat = d.num 20 4 ∧ (∀ k, (t.ctx c).collSeq.get 0 k = 0) ∧
    (t.ctx c).epoch = nextEpoch (s.ctx c).epoch ∧ (t.ctx c).mile.last = (s.ctx c).mile.last) ∧
  (∀ (c : CtxId) (q : RingId) (p : Word) (d : Desc) (s : State), isShadow 8 d = true → s.Passes c q p d (shadowChk 8 c) → s.tag c ≠ 0 →
    (∀ x u, (s.ctx c).pair = some x → x.turn = some u → u.ring ≠ d.ring ∨ u.pos ≠ d.pos) → ∃ t, exec (.shadowExpel c q p) s = .next t ∧ t.Ended c d { status := stOk } ∧
    (t.ctx c).mile.state = 6 ∧ t.maySend c = false ∧ (∀ f ∈ t.fabric.waiting ++ (t.fabric.ports.map (fun (x : Nat × Port) => x.2.queued)).flatten, hdrTag f.hdr = s.tag c → hdrSrc f.hdr = s.moduleAddr →
      ∃ x u, (s.ctx c).pair = some x ∧ x.turn = some u ∧ u.stage ≤ 5 ∧ hdrType f.hdr = 6 ∧ hdrGroup f.hdr = x.group % 2 ^ 16 ∧ hdrSeq f.hdr = u.seq % 2 ^ 32 ∧
        f.payload = (Ctrl.sbAbort x.me stExpelled u.stage).bytes) ∧
    ∀ y ∈ (t.ctx c).descs, y.ending = none → ∀ r z, y.work ≠ .coll r ∧ y.work ≠ .fill z ∧ y.work ≠ .commit)

/-- For every state whose fuse words are strictly rising and at most 64, and every step that answers a next state, whatever the command: the fuse words before are a prefix of those after, and those after are again strictly rising and at most 64. So no command, no reset and no loss of power lowers the security version below which an image is refused (R59). -/
def Obligations.FusesOnlyRise : Prop :=
  ∀ s t : State, s.FusesRise → step s = .next t → t.FusesRise ∧ s.flash.fuses <+: t.flash.fuses ∧ s.flash.fuseSvn ≤ t.flash.fuseSvn

/-- For every state in which device and host memory list their bytes at strictly rising addresses and no zero byte, the object table lists objects at strictly rising IDs and the ledger lists entries at strictly rising numbers, none EMPTY, and every step that answers a next state: the same holds after it. So an object ID names at most one object, a ledger entry has one value, and equal contents are equal data. The canonical form is the model's own way to hold these tables. -/
def Obligations.TablesStayCanonical : Prop :=
  ∀ s t : State, s.Canonical → step s = .next t → t.Canonical
end

