-- ==== Sys2Proof/Laws/Memory.lean ====
section
/-!
SUPPORT. Laws of the byte memories: reading after writing, and the canonical form, which every operation keeps and reset has.
-/
namespace Sys2Proof.Machine

theorem Mem.wfFrom_mono {m : Mem} {lo lo' : Nat} (h : Mem.wfFrom lo m = true) (hl : lo' ≤ lo) : Mem.wfFrom lo' m = true := by
  cases m with
  | nil => rfl
  | cons p r =>
    obtain ⟨a, b⟩ := p
    simp only [Mem.wfFrom, Bool.and_eq_true, decide_eq_true_eq] at h ⊢
    exact ⟨⟨by omega, h.1.2⟩, h.2⟩

theorem Mem.read_of_below {m : Mem} {lo a : Nat} (h : Mem.wfFrom lo m = true) (ha : a < lo) : m.read a = 0#8 := by
  induction m generalizing lo with
  | nil => rfl
  | cons p r ih =>
    obtain ⟨k, b⟩ := p
    simp only [Mem.wfFrom, Bool.and_eq_true, decide_eq_true_eq] at h
    have : k ≠ a := by omega
    simp only [Mem.read, this, if_false]
    exact ih h.2 (by omega)

theorem Mem.write_wfFrom {m : Mem} {lo : Nat} (h : Mem.wfFrom lo m = true) (a : Nat) (v : Byte) (ha : lo ≤ a) :
    Mem.wfFrom lo (m.write a v) = true := by
  induction m generalizing lo with
  | nil =>
    simp only [Mem.write]
    split
    · rfl
    · next hv => simp [Mem.wfFrom, ha, hv]
  | cons p r ih =>
    obtain ⟨k, b⟩ := p
    have h0 := h
    simp only [Mem.wfFrom, Bool.and_eq_true, decide_eq_true_eq] at h
    simp only [Mem.write]
    split
    · next hk =>
      split
      · exact h0
      · next hv =>
        simp only [Mem.wfFrom, Bool.and_eq_true, decide_eq_true_eq]
        exact ⟨⟨ha, hv⟩, ⟨by omega, h.1.2⟩, h.2⟩
    · split
      · next hk =>
        subst hk
        split
        · exact Mem.wfFrom_mono h.2 (by omega)
        · next hv =>
          simp only [Mem.wfFrom, Bool.and_eq_true, decide_eq_true_eq]
          exact ⟨⟨ha, hv⟩, h.2⟩
      · next hk hne =>
        simp only [Mem.wfFrom, Bool.and_eq_true, decide_eq_true_eq]
        exact ⟨h.1, ih h.2 (by omega)⟩

/-- Writing a byte keeps the canonical form. -/
theorem Mem.write_wf {m : Mem} (h : m.wf = true) (a : Nat) (v : Byte) : (m.write a v).wf = true := Mem.write_wfFrom h a v (Nat.zero_le _)

/-- Writing bytes keeps the canonical form. -/
theorem Mem.writeN_wf {m : Mem} (h : m.wf = true) (a : Nat) (bs : List Byte) : (m.writeN a bs).wf = true := by
  induction bs generalizing m a with
  | nil => exact h
  | cons b bs ih => exact ih (Mem.write_wf h a b) (a + 1)

theorem Mem.clear_wfFrom {m : Mem} {lo : Nat} (h : Mem.wfFrom lo m = true) (a n : Nat) : Mem.wfFrom lo (m.clear a n) = true := by
  induction m generalizing lo with
  | nil => rfl
  | cons p r ih =>
    obtain ⟨k, b⟩ := p
    simp only [Mem.wfFrom, Bool.and_eq_true, decide_eq_true_eq] at h
    simp only [Mem.clear]
    split
    · exact ih (Mem.wfFrom_mono h.2 (by omega))
    · simp only [Mem.wfFrom, Bool.and_eq_true, decide_eq_true_eq]
      exact ⟨h.1, ih h.2⟩

/-- Zeroing bytes keeps the canonical form. -/
theorem Mem.clear_wf {m : Mem} (h : m.wf = true) (a n : Nat) : (m.clear a n).wf = true := Mem.clear_wfFrom h a n

/-- Writing the cells of a part keeps the canonical form. -/
theorem Mem.put_wf {m : Mem} (h : m.wf = true) (part : Mem) (b : Nat) : (m.put part b).wf = true := by
  unfold Mem.put
  induction part generalizing m with
  | nil => exact h
  | cons x part ih => exact ih (Mem.write_wf h _ _)

/-- Device memory and host memory have the canonical form at reset. -/
theorem reset_memory_wf : State.reset.mem.data.wf = true ∧ State.reset.host.data.wf = true := ⟨rfl, rfl⟩

theorem Mem.read_write_from {m : Mem} {lo : Nat} (h : Mem.wfFrom lo m = true) (a : Nat) (v : Byte) (j : Nat) :
    (m.write a v).read j = if j = a then v else m.read j := by
  induction m generalizing lo with
  | nil =>
    simp only [Mem.write]
    split
    · next hv => subst hv; simp [Mem.read]
    · simp only [Mem.read, eq_comm]
  | cons p r ih =>
    obtain ⟨k, b⟩ := p
    have h0 := h
    simp only [Mem.wfFrom, Bool.and_eq_true, decide_eq_true_eq] at h
    simp only [Mem.write]
    split
    · next hk =>
      split
      · next hv =>
        subst hv
        split
        · next hj => subst hj; exact Mem.read_of_below (lo := k) (by simp [Mem.wfFrom, h.1.2, h.2]) hk
        · rfl
      · simp only [Mem.read, eq_comm]
    · split
      · next hk =>
        subst hk
        split
        · next hv =>
          subst hv
          split
          · next hj => subst hj; exact Mem.read_of_below h.2 (by omega)
          · next hj => simp [Mem.read, Ne.symm hj]
        · by_cases hj : j = k
          · simp [Mem.read, hj]
          · simp [Mem.read, hj, Ne.symm hj]
      · next hk hne =>
        simp only [Mem.read]
        split
        · next hj => subst hj; simp [hne]
        · exact ih h.2

/-- A byte reads as the last one written there; every other byte is as before. -/
theorem Mem.read_write {m : Mem} (h : m.wf = true) (a : Nat) (v : Byte) (j : Nat) :
    (m.write a v).read j = if j = a then v else m.read j := Mem.read_write_from h a v j

/-- Reading after writing bytes. -/
theorem Mem.read_writeN {m : Mem} (h : m.wf = true) (a : Nat) (bs : List Byte) (j : Nat) :
    (m.writeN a bs).read j = if a ≤ j ∧ j < a + bs.length then bs.getD (j - a) 0#8 else m.read j := by
  induction bs generalizing m a with
  | nil => rw [if_neg (by simp only [List.length_nil]; omega)]; rfl
  | cons b bs ih =>
    simp only [Mem.writeN, ih (Mem.write_wf h a b), Mem.read_write h, List.length_cons]
    by_cases h1 : j = a
    · subst h1
      rw [if_neg (by omega), if_pos rfl, if_pos (by omega), Nat.sub_self]
      rfl
    · by_cases h2 : a + 1 ≤ j ∧ j < a + 1 + bs.length
      · have e : j - a = (j - (a + 1)) + 1 := by omega
        rw [if_pos h2, if_pos (by omega), e]
        rfl
      · rw [if_neg h2, if_neg h1, if_neg (by omega)]

theorem Mem.read_clear (m : Mem) (a n j : Nat) : (m.clear a n).read j = if a ≤ j ∧ j < a + n then 0#8 else m.read j := by
  induction m with
  | nil => simp [Mem.clear, Mem.read]
  | cons p r ih =>
    obtain ⟨k, b⟩ := p
    simp only [Mem.clear]
    split
    · next hk =>
      rw [ih]
      by_cases hj : k = j
      · subst hj; simp [hk]
      · simp [Mem.read, hj]
    · next hk =>
      by_cases hj : k = j
      · subst hj; simp [Mem.read, hk]
      · simp [Mem.read, hj, ih]

theorem Mem.readN_length (m : Mem) (a n : Nat) : (m.readN a n).length = n := by
  induction n generalizing a with
  | zero => rfl
  | succ n ih => simp [Mem.readN, ih]

end Sys2Proof.Machine
end

