-- ==== Sys2Proof/Laws/Table.lean ====
section
/-!
SUPPORT. Laws of the tables of Machine/Store.lean: reading what was set, and the rising order of the keys.
-/
namespace Sys2Proof.Machine

theorem Tab.find?_set_self (t : Tab α) (k : Nat) (v : α) : (t.set k v).find? k = some v := by
  induction t with
  | nil => simp [Tab.set, Tab.find?]
  | cons p r ih =>
    obtain ⟨a, x⟩ := p
    simp only [Tab.set]
    split
    · simp [Tab.find?]
    · split
      · simp [Tab.find?]
      · next h => simp [Tab.find?, h, ih]

theorem Tab.find?_set_ne (t : Tab α) {k j : Nat} (v : α) (h : j ≠ k) : (t.set k v).find? j = t.find? j := by
  induction t with
  | nil => simp [Tab.set, Tab.find?, h.symm]
  | cons p r ih =>
    obtain ⟨a, x⟩ := p
    simp only [Tab.set]
    split
    · simp [Tab.find?, h.symm]
    · split
      · next hk => subst hk; simp [Tab.find?, h.symm]
      · simp [Tab.find?, ih]

theorem Tab.get_eq_find? (d : α) (t : Tab α) (k : Nat) : t.get d k = (t.find? k).getD d := by
  induction t with
  | nil => rfl
  | cons p r ih =>
    obtain ⟨a, x⟩ := p
    simp only [Tab.get, Tab.find?]
    split <;> simp [ih]

@[simp] theorem Tab.get_set_self (d : α) (t : Tab α) (k : Nat) (v : α) : (t.set k v).get d k = v := by
  simp [Tab.get_eq_find?, Tab.find?_set_self]

theorem Tab.get_set_ne (d : α) (t : Tab α) {k j : Nat} (v : α) (h : j ≠ k) : (t.set k v).get d j = t.get d j := by
  simp [Tab.get_eq_find?, Tab.find?_set_ne t v h]

@[simp] theorem Tab.get_nil (d : α) (k : Nat) : Tab.get d [] k = d := rfl
@[simp] theorem Tab.find?_nil (k : Nat) : Tab.find? ([] : Tab α) k = none := rfl

/-- The keys of a table rise strictly. -/
def Tab.Rising (t : Tab α) : Prop := t.Pairwise (fun x y => x.1 < y.1)

theorem Tab.mem_set {t : Tab α} {k : Nat} {v : α} {p : Nat × α} (h : p ∈ t.set k v) : p = (k, v) ∨ p ∈ t := by
  induction t with
  | nil => simpa [Tab.set] using h
  | cons q r ih =>
    obtain ⟨a, x⟩ := q
    simp only [Tab.set] at h
    split at h
    · simpa using h
    · split at h
      · rcases List.mem_cons.1 h with h | h
        · exact .inl h
        · exact .inr (List.mem_cons_of_mem _ h)
      · rcases List.mem_cons.1 h with h | h
        · exact .inr (h ▸ List.mem_cons_self)
        · exact (ih h).imp_right (List.mem_cons_of_mem _)

theorem Tab.Rising.set {t : Tab α} (h : t.Rising) (k : Nat) (v : α) : (t.set k v).Rising := by
  induction t with
  | nil => simp [Tab.set, Tab.Rising]
  | cons q r ih =>
    obtain ⟨a, x⟩ := q
    have hr := List.pairwise_cons.1 h
    simp only [Tab.set]
    split
    · next hk =>
      refine List.pairwise_cons.2 ⟨fun p hp => ?_, h⟩
      rcases List.mem_cons.1 hp with rfl | hp
      · exact hk
      · exact Nat.lt_trans hk (hr.1 p hp)
    · next hk =>
      split
      · next he => subst he; exact List.pairwise_cons.2 ⟨hr.1, hr.2⟩
      · next he =>
        refine List.pairwise_cons.2 ⟨fun p hp => ?_, ih hr.2⟩
        rcases Tab.mem_set hp with rfl | hp
        · show a < k; omega
        · exact hr.1 p hp

theorem Tab.erase_sublist (t : Tab α) (k : Nat) : (t.erase k).Sublist t := by
  induction t with
  | nil => exact List.Sublist.refl _
  | cons q r ih =>
    obtain ⟨a, x⟩ := q
    simp only [Tab.erase]
    split
    · exact List.sublist_cons_self _ _
    · exact ih.cons_cons _

theorem Tab.Rising.erase {t : Tab α} (h : t.Rising) (k : Nat) : (t.erase k).Rising := h.sublist (Tab.erase_sublist t k)

theorem Tab.Rising.filter {t : Tab α} (h : t.Rising) (p : Nat × α → Bool) : Tab.Rising (t.filter p) := List.Pairwise.filter p h

theorem Tab.find?_erase_self {t : Tab α} (h : t.Rising) (k : Nat) : (t.erase k).find? k = none := by
  induction t with
  | nil => rfl
  | cons q r ih =>
    obtain ⟨a, x⟩ := q
    have hr := List.pairwise_cons.1 h
    simp only [Tab.erase]
    split
    · next he =>
      subst he
      have none_of : ∀ (l : Tab α), (∀ p ∈ l, a < p.1) → l.find? a = none := by
        intro l
        induction l with
        | nil => intro _; rfl
        | cons p l ihl =>
          intro hl
          have hp := hl p List.mem_cons_self
          have : p.1 ≠ a := by omega
          simp [Tab.find?, this, ihl (fun p hp => hl p (List.mem_cons_of_mem _ hp))]
      exact none_of r hr.1
    · next he => simp [Tab.find?, he, ih hr.2]

theorem Tab.find?_erase_ne (t : Tab α) {k j : Nat} (h : j ≠ k) : (t.erase k).find? j = t.find? j := by
  induction t with
  | nil => rfl
  | cons q r ih =>
    obtain ⟨a, x⟩ := q
    simp only [Tab.erase]
    split
    · next he => subst he; simp [Tab.find?, h.symm]
    · simp [Tab.find?, ih]

end Sys2Proof.Machine
end

