-- ==== Sys2Proof/Laws/State.lean ====
section
/-!
SUPPORT. What each named update of Machine/Ops.lean and Machine/Descr.lean leaves unchanged, one lemma per field or accessor, and what
reading back gives, so that no later proof unfolds an update of the state.
-/
namespace Sys2Proof.Machine

@[simp] theorem State.setCtx_time (s : State) (c : Nat) (x : Ctx) : (s.setCtx c x).time = s.time := rfl
@[simp] theorem State.setCtx_chip (s : State) (c : Nat) (x : Ctx) : (s.setCtx c x).chip = s.chip := rfl
@[simp] theorem State.setCtx_flash (s : State) (c : Nat) (x : Ctx) : (s.setCtx c x).flash = s.flash := rfl
@[simp] theorem State.setCtx_inputs (s : State) (c : Nat) (x : Ctx) : (s.setCtx c x).inputs = s.inputs := rfl
@[simp] theorem State.setCtx_mgmt (s : State) (c : Nat) (x : Ctx) : (s.setCtx c x).mgmt = s.mgmt := rfl
@[simp] theorem State.setCtx_power (s : State) (c : Nat) (x : Ctx) : (s.setCtx c x).power = s.power := rfl
@[simp] theorem State.setCtx_hostA (s : State) (c : Nat) (x : Ctx) : (s.setCtx c x).hostA = s.hostA := rfl
@[simp] theorem State.setCtx_hostB (s : State) (c : Nat) (x : Ctx) : (s.setCtx c x).hostB = s.hostB := rfl
@[simp] theorem State.setCtx_pll (s : State) (c : Nat) (x : Ctx) : (s.setCtx c x).pll = s.pll := rfl
@[simp] theorem State.setCtx_regs (s : State) (c : Nat) (x : Ctx) : (s.setCtx c x).regs = s.regs := rfl
@[simp] theorem State.setCtx_latches (s : State) (c : Nat) (x : Ctx) : (s.setCtx c x).latches = s.latches := rfl
@[simp] theorem State.setCtx_tiles (s : State) (c : Nat) (x : Ctx) : (s.setCtx c x).tiles = s.tiles := rfl
@[simp] theorem State.setCtx_mem (s : State) (c : Nat) (x : Ctx) : (s.setCtx c x).mem = s.mem := rfl
@[simp] theorem State.setCtx_ledger (s : State) (c : Nat) (x : Ctx) : (s.setCtx c x).ledger = s.ledger := rfl
@[simp] theorem State.setCtx_fabric (s : State) (c : Nat) (x : Ctx) : (s.setCtx c x).fabric = s.fabric := rfl
@[simp] theorem State.setCtx_host (s : State) (c : Nat) (x : Ctx) : (s.setCtx c x).host = s.host := rfl
@[simp] theorem State.setCtx_pmcMod (s : State) (c : Nat) (x : Ctx) : (s.setCtx c x).pmcMod = s.pmcMod := rfl
@[simp] theorem State.setCtx_pmcModOvf (s : State) (c : Nat) (x : Ctx) : (s.setCtx c x).pmcModOvf = s.pmcModOvf := rfl
@[simp] theorem State.setCtx_pmcTime (s : State) (c : Nat) (x : Ctx) : (s.setCtx c x).pmcTime = s.pmcTime := rfl
@[simp] theorem State.setCtx_nextFetch (s : State) (c : Nat) (x : Ctx) : (s.setCtx c x).nextFetch = s.nextFetch := rfl
@[simp] theorem State.setCtx_nextStart (s : State) (c : Nat) (x : Ctx) : (s.setCtx c x).nextStart = s.nextStart := rfl
@[simp] theorem State.setCtx_fresh (s : State) (c : Nat) (x : Ctx) : (s.setCtx c x).fresh = s.fresh := rfl
@[simp] theorem State.setCtx_out (s : State) (c : Nat) (x : Ctx) : (s.setCtx c x).out = s.out := rfl
@[simp] theorem State.setCtx_pending (s : State) (c : Nat) (x : Ctx) : (s.setCtx c x).pending = s.pending := rfl
@[simp] theorem State.setCtx_tile (s : State) (c : Nat) (x : Ctx) (k : Nat) : (s.setCtx c x).tile k = s.tile k := rfl
@[simp] theorem State.setCtx_port (s : State) (c : Nat) (x : Ctx) (k : Nat) : (s.setCtx c x).port k = s.port k := rfl
@[simp] theorem State.setCtx_bay (s : State) (c : Nat) (x : Ctx) (k : Nat) : (s.setCtx c x).bay k = s.bay k := rfl
@[simp] theorem State.setCtx_objOf (s : State) (c : Nat) (x : Ctx) (k : Nat) : (s.setCtx c x).obj? k = s.obj? k := rfl
@[simp] theorem State.setCtx_seqEntry (s : State) (c : Nat) (x : Ctx) (k : Nat) : (s.setCtx c x).seqEntry k = s.seqEntry k := rfl
@[simp] theorem State.setCtx_entry (s : State) (c : Nat) (x : Ctx) (k : Nat) : (s.setCtx c x).entry k = s.entry k := rfl
@[simp] theorem State.setCtx_touchNow (s : State) (c : Nat) (x : Ctx) : (s.setCtx c x).touchNow = s.touchNow := rfl

@[simp] theorem State.modCtx_time (s : State) (c : Nat) (f : Ctx → Ctx) : (s.modCtx c f).time = s.time := rfl
@[simp] theorem State.modCtx_chip (s : State) (c : Nat) (f : Ctx → Ctx) : (s.modCtx c f).chip = s.chip := rfl
@[simp] theorem State.modCtx_flash (s : State) (c : Nat) (f : Ctx → Ctx) : (s.modCtx c f).flash = s.flash := rfl
@[simp] theorem State.modCtx_inputs (s : State) (c : Nat) (f : Ctx → Ctx) : (s.modCtx c f).inputs = s.inputs := rfl
@[simp] theorem State.modCtx_mgmt (s : State) (c : Nat) (f : Ctx → Ctx) : (s.modCtx c f).mgmt = s.mgmt := rfl
@[simp] theorem State.modCtx_power (s : State) (c : Nat) (f : Ctx → Ctx) : (s.modCtx c f).power = s.power := rfl
@[simp] theorem State.modCtx_hostA (s : State) (c : Nat) (f : Ctx → Ctx) : (s.modCtx c f).hostA = s.hostA := rfl
@[simp] theorem State.modCtx_hostB (s : State) (c : Nat) (f : Ctx → Ctx) : (s.modCtx c f).hostB = s.hostB := rfl
@[simp] theorem State.modCtx_pll (s : State) (c : Nat) (f : Ctx → Ctx) : (s.modCtx c f).pll = s.pll := rfl
@[simp] theorem State.modCtx_regs (s : State) (c : Nat) (f : Ctx → Ctx) : (s.modCtx c f).regs = s.regs := rfl
@[simp] theorem State.modCtx_latches (s : State) (c : Nat) (f : Ctx → Ctx) : (s.modCtx c f).latches = s.latches := rfl
@[simp] theorem State.modCtx_tiles (s : State) (c : Nat) (f : Ctx → Ctx) : (s.modCtx c f).tiles = s.tiles := rfl
@[simp] theorem State.modCtx_mem (s : State) (c : Nat) (f : Ctx → Ctx) : (s.modCtx c f).mem = s.mem := rfl
@[simp] theorem State.modCtx_ledger (s : State) (c : Nat) (f : Ctx → Ctx) : (s.modCtx c f).ledger = s.ledger := rfl
@[simp] theorem State.modCtx_fabric (s : State) (c : Nat) (f : Ctx → Ctx) : (s.modCtx c f).fabric = s.fabric := rfl
@[simp] theorem State.modCtx_host (s : State) (c : Nat) (f : Ctx → Ctx) : (s.modCtx c f).host = s.host := rfl
@[simp] theorem State.modCtx_pmcMod (s : State) (c : Nat) (f : Ctx → Ctx) : (s.modCtx c f).pmcMod = s.pmcMod := rfl
@[simp] theorem State.modCtx_pmcModOvf (s : State) (c : Nat) (f : Ctx → Ctx) : (s.modCtx c f).pmcModOvf = s.pmcModOvf := rfl
@[simp] theorem State.modCtx_pmcTime (s : State) (c : Nat) (f : Ctx → Ctx) : (s.modCtx c f).pmcTime = s.pmcTime := rfl
@[simp] theorem State.modCtx_nextFetch (s : State) (c : Nat) (f : Ctx → Ctx) : (s.modCtx c f).nextFetch = s.nextFetch := rfl
@[simp] theorem State.modCtx_nextStart (s : State) (c : Nat) (f : Ctx → Ctx) : (s.modCtx c f).nextStart = s.nextStart := rfl
@[simp] theorem State.modCtx_fresh (s : State) (c : Nat) (f : Ctx → Ctx) : (s.modCtx c f).fresh = s.fresh := rfl
@[simp] theorem State.modCtx_out (s : State) (c : Nat) (f : Ctx → Ctx) : (s.modCtx c f).out = s.out := rfl
@[simp] theorem State.modCtx_pending (s : State) (c : Nat) (f : Ctx → Ctx) : (s.modCtx c f).pending = s.pending := rfl
@[simp] theorem State.modCtx_tile (s : State) (c : Nat) (f : Ctx → Ctx) (k : Nat) : (s.modCtx c f).tile k = s.tile k := rfl
@[simp] theorem State.modCtx_port (s : State) (c : Nat) (f : Ctx → Ctx) (k : Nat) : (s.modCtx c f).port k = s.port k := rfl
@[simp] theorem State.modCtx_bay (s : State) (c : Nat) (f : Ctx → Ctx) (k : Nat) : (s.modCtx c f).bay k = s.bay k := rfl
@[simp] theorem State.modCtx_objOf (s : State) (c : Nat) (f : Ctx → Ctx) (k : Nat) : (s.modCtx c f).obj? k = s.obj? k := rfl
@[simp] theorem State.modCtx_seqEntry (s : State) (c : Nat) (f : Ctx → Ctx) (k : Nat) : (s.modCtx c f).seqEntry k = s.seqEntry k := rfl
@[simp] theorem State.modCtx_entry (s : State) (c : Nat) (f : Ctx → Ctx) (k : Nat) : (s.modCtx c f).entry k = s.entry k := rfl
@[simp] theorem State.modCtx_touchNow (s : State) (c : Nat) (f : Ctx → Ctx) : (s.modCtx c f).touchNow = s.touchNow := rfl

@[simp] theorem State.setTile_time (s : State) (i : Nat) (x : Tile) : (s.setTile i x).time = s.time := rfl
@[simp] theorem State.setTile_chip (s : State) (i : Nat) (x : Tile) : (s.setTile i x).chip = s.chip := rfl
@[simp] theorem State.setTile_flash (s : State) (i : Nat) (x : Tile) : (s.setTile i x).flash = s.flash := rfl
@[simp] theorem State.setTile_inputs (s : State) (i : Nat) (x : Tile) : (s.setTile i x).inputs = s.inputs := rfl
@[simp] theorem State.setTile_mgmt (s : State) (i : Nat) (x : Tile) : (s.setTile i x).mgmt = s.mgmt := rfl
@[simp] theorem State.setTile_power (s : State) (i : Nat) (x : Tile) : (s.setTile i x).power = s.power := rfl
@[simp] theorem State.setTile_hostA (s : State) (i : Nat) (x : Tile) : (s.setTile i x).hostA = s.hostA := rfl
@[simp] theorem State.setTile_hostB (s : State) (i : Nat) (x : Tile) : (s.setTile i x).hostB = s.hostB := rfl
@[simp] theorem State.setTile_pll (s : State) (i : Nat) (x : Tile) : (s.setTile i x).pll = s.pll := rfl
@[simp] theorem State.setTile_regs (s : State) (i : Nat) (x : Tile) : (s.setTile i x).regs = s.regs := rfl
@[simp] theorem State.setTile_latches (s : State) (i : Nat) (x : Tile) : (s.setTile i x).latches = s.latches := rfl
@[simp] theorem State.setTile_ctxs (s : State) (i : Nat) (x : Tile) : (s.setTile i x).ctxs = s.ctxs := rfl
@[simp] theorem State.setTile_mem (s : State) (i : Nat) (x : Tile) : (s.setTile i x).mem = s.mem := rfl
@[simp] theorem State.setTile_ledger (s : State) (i : Nat) (x : Tile) : (s.setTile i x).ledger = s.ledger := rfl
@[simp] theorem State.setTile_fabric (s : State) (i : Nat) (x : Tile) : (s.setTile i x).fabric = s.fabric := rfl
@[simp] theorem State.setTile_host (s : State) (i : Nat) (x : Tile) : (s.setTile i x).host = s.host := rfl
@[simp] theorem State.setTile_pmcMod (s : State) (i : Nat) (x : Tile) : (s.setTile i x).pmcMod = s.pmcMod := rfl
@[simp] theorem State.setTile_pmcModOvf (s : State) (i : Nat) (x : Tile) : (s.setTile i x).pmcModOvf = s.pmcModOvf := rfl
@[simp] theorem State.setTile_pmcTime (s : State) (i : Nat) (x : Tile) : (s.setTile i x).pmcTime = s.pmcTime := rfl
@[simp] theorem State.setTile_nextFetch (s : State) (i : Nat) (x : Tile) : (s.setTile i x).nextFetch = s.nextFetch := rfl
@[simp] theorem State.setTile_nextStart (s : State) (i : Nat) (x : Tile) : (s.setTile i x).nextStart = s.nextStart := rfl
@[simp] theorem State.setTile_fresh (s : State) (i : Nat) (x : Tile) : (s.setTile i x).fresh = s.fresh := rfl
@[simp] theorem State.setTile_out (s : State) (i : Nat) (x : Tile) : (s.setTile i x).out = s.out := rfl
@[simp] theorem State.setTile_pending (s : State) (i : Nat) (x : Tile) : (s.setTile i x).pending = s.pending := rfl
@[simp] theorem State.setTile_ctx (s : State) (i : Nat) (x : Tile) (k : Nat) : (s.setTile i x).ctx k = s.ctx k := rfl
@[simp] theorem State.setTile_port (s : State) (i : Nat) (x : Tile) (k : Nat) : (s.setTile i x).port k = s.port k := rfl
@[simp] theorem State.setTile_bay (s : State) (i : Nat) (x : Tile) (k : Nat) : (s.setTile i x).bay k = s.bay k := rfl
@[simp] theorem State.setTile_objOf (s : State) (i : Nat) (x : Tile) (k : Nat) : (s.setTile i x).obj? k = s.obj? k := rfl
@[simp] theorem State.setTile_seqEntry (s : State) (i : Nat) (x : Tile) (k : Nat) : (s.setTile i x).seqEntry k = s.seqEntry k := rfl
@[simp] theorem State.setTile_entry (s : State) (i : Nat) (x : Tile) (k : Nat) : (s.setTile i x).entry k = s.entry k := rfl
@[simp] theorem State.setTile_touchNow (s : State) (i : Nat) (x : Tile) : (s.setTile i x).touchNow = s.touchNow := rfl

@[simp] theorem State.modTile_time (s : State) (i : Nat) (f : Tile → Tile) : (s.modTile i f).time = s.time := rfl
@[simp] theorem State.modTile_chip (s : State) (i : Nat) (f : Tile → Tile) : (s.modTile i f).chip = s.chip := rfl
@[simp] theorem State.modTile_flash (s : State) (i : Nat) (f : Tile → Tile) : (s.modTile i f).flash = s.flash := rfl
@[simp] theorem State.modTile_inputs (s : State) (i : Nat) (f : Tile → Tile) : (s.modTile i f).inputs = s.inputs := rfl
@[simp] theorem State.modTile_mgmt (s : State) (i : Nat) (f : Tile → Tile) : (s.modTile i f).mgmt = s.mgmt := rfl
@[simp] theorem State.modTile_power (s : State) (i : Nat) (f : Tile → Tile) : (s.modTile i f).power = s.power := rfl
@[simp] theorem State.modTile_hostA (s : State) (i : Nat) (f : Tile → Tile) : (s.modTile i f).hostA = s.hostA := rfl
@[simp] theorem State.modTile_hostB (s : State) (i : Nat) (f : Tile → Tile) : (s.modTile i f).hostB = s.hostB := rfl
@[simp] theorem State.modTile_pll (s : State) (i : Nat) (f : Tile → Tile) : (s.modTile i f).pll = s.pll := rfl
@[simp] theorem State.modTile_regs (s : State) (i : Nat) (f : Tile → Tile) : (s.modTile i f).regs = s.regs := rfl
@[simp] theorem State.modTile_latches (s : State) (i : Nat) (f : Tile → Tile) : (s.modTile i f).latches = s.latches := rfl
@[simp] theorem State.modTile_ctxs (s : State) (i : Nat) (f : Tile → Tile) : (s.modTile i f).ctxs = s.ctxs := rfl
@[simp] theorem State.modTile_mem (s : State) (i : Nat) (f : Tile → Tile) : (s.modTile i f).mem = s.mem := rfl
@[simp] theorem State.modTile_ledger (s : State) (i : Nat) (f : Tile → Tile) : (s.modTile i f).ledger = s.ledger := rfl
@[simp] theorem State.modTile_fabric (s : State) (i : Nat) (f : Tile → Tile) : (s.modTile i f).fabric = s.fabric := rfl
@[simp] theorem State.modTile_host (s : State) (i : Nat) (f : Tile → Tile) : (s.modTile i f).host = s.host := rfl
@[simp] theorem State.modTile_pmcMod (s : State) (i : Nat) (f : Tile → Tile) : (s.modTile i f).pmcMod = s.pmcMod := rfl
@[simp] theorem State.modTile_pmcModOvf (s : State) (i : Nat) (f : Tile → Tile) : (s.modTile i f).pmcModOvf = s.pmcModOvf := rfl
@[simp] theorem State.modTile_pmcTime (s : State) (i : Nat) (f : Tile → Tile) : (s.modTile i f).pmcTime = s.pmcTime := rfl
@[simp] theorem State.modTile_nextFetch (s : State) (i : Nat) (f : Tile → Tile) : (s.modTile i f).nextFetch = s.nextFetch := rfl
@[simp] theorem State.modTile_nextStart (s : State) (i : Nat) (f : Tile → Tile) : (s.modTile i f).nextStart = s.nextStart := rfl
@[simp] theorem State.modTile_fresh (s : State) (i : Nat) (f : Tile → Tile) : (s.modTile i f).fresh = s.fresh := rfl
@[simp] theorem State.modTile_out (s : State) (i : Nat) (f : Tile → Tile) : (s.modTile i f).out = s.out := rfl
@[simp] theorem State.modTile_pending (s : State) (i : Nat) (f : Tile → Tile) : (s.modTile i f).pending = s.pending := rfl
@[simp] theorem State.modTile_ctx (s : State) (i : Nat) (f : Tile → Tile) (k : Nat) : (s.modTile i f).ctx k = s.ctx k := rfl
@[simp] theorem State.modTile_port (s : State) (i : Nat) (f : Tile → Tile) (k : Nat) : (s.modTile i f).port k = s.port k := rfl
@[simp] theorem State.modTile_bay (s : State) (i : Nat) (f : Tile → Tile) (k : Nat) : (s.modTile i f).bay k = s.bay k := rfl
@[simp] theorem State.modTile_objOf (s : State) (i : Nat) (f : Tile → Tile) (k : Nat) : (s.modTile i f).obj? k = s.obj? k := rfl
@[simp] theorem State.modTile_seqEntry (s : State) (i : Nat) (f : Tile → Tile) (k : Nat) : (s.modTile i f).seqEntry k = s.seqEntry k := rfl
@[simp] theorem State.modTile_entry (s : State) (i : Nat) (f : Tile → Tile) (k : Nat) : (s.modTile i f).entry k = s.entry k := rfl
@[simp] theorem State.modTile_touchNow (s : State) (i : Nat) (f : Tile → Tile) : (s.modTile i f).touchNow = s.touchNow := rfl

@[simp] theorem State.setPort_time (s : State) (p : Nat) (x : Port) : (s.setPort p x).time = s.time := rfl
@[simp] theorem State.setPort_chip (s : State) (p : Nat) (x : Port) : (s.setPort p x).chip = s.chip := rfl
@[simp] theorem State.setPort_flash (s : State) (p : Nat) (x : Port) : (s.setPort p x).flash = s.flash := rfl
@[simp] theorem State.setPort_inputs (s : State) (p : Nat) (x : Port) : (s.setPort p x).inputs = s.inputs := rfl
@[simp] theorem State.setPort_mgmt (s : State) (p : Nat) (x : Port) : (s.setPort p x).mgmt = s.mgmt := rfl
@[simp] theorem State.setPort_power (s : State) (p : Nat) (x : Port) : (s.setPort p x).power = s.power := rfl
@[simp] theorem State.setPort_hostA (s : State) (p : Nat) (x : Port) : (s.setPort p x).hostA = s.hostA := rfl
@[simp] theorem State.setPort_hostB (s : State) (p : Nat) (x : Port) : (s.setPort p x).hostB = s.hostB := rfl
@[simp] theorem State.setPort_pll (s : State) (p : Nat) (x : Port) : (s.setPort p x).pll = s.pll := rfl
@[simp] theorem State.setPort_regs (s : State) (p : Nat) (x : Port) : (s.setPort p x).regs = s.regs := rfl
@[simp] theorem State.setPort_latches (s : State) (p : Nat) (x : Port) : (s.setPort p x).latches = s.latches := rfl
@[simp] theorem State.setPort_ctxs (s : State) (p : Nat) (x : Port) : (s.setPort p x).ctxs = s.ctxs := rfl
@[simp] theorem State.setPort_tiles (s : State) (p : Nat) (x : Port) : (s.setPort p x).tiles = s.tiles := rfl
@[simp] theorem State.setPort_mem (s : State) (p : Nat) (x : Port) : (s.setPort p x).mem = s.mem := rfl
@[simp] theorem State.setPort_ledger (s : State) (p : Nat) (x : Port) : (s.setPort p x).ledger = s.ledger := rfl
@[simp] theorem State.setPort_host (s : State) (p : Nat) (x : Port) : (s.setPort p x).host = s.host := rfl
@[simp] theorem State.setPort_pmcMod (s : State) (p : Nat) (x : Port) : (s.setPort p x).pmcMod = s.pmcMod := rfl
@[simp] theorem State.setPort_pmcModOvf (s : State) (p : Nat) (x : Port) : (s.setPort p x).pmcModOvf = s.pmcModOvf := rfl
@[simp] theorem State.setPort_pmcTime (s : State) (p : Nat) (x : Port) : (s.setPort p x).pmcTime = s.pmcTime := rfl
@[simp] theorem State.setPort_nextFetch (s : State) (p : Nat) (x : Port) : (s.setPort p x).nextFetch = s.nextFetch := rfl
@[simp] theorem State.setPort_nextStart (s : State) (p : Nat) (x : Port) : (s.setPort p x).nextStart = s.nextStart := rfl
@[simp] theorem State.setPort_fresh (s : State) (p : Nat) (x : Port) : (s.setPort p x).fresh = s.fresh := rfl
@[simp] theorem State.setPort_out (s : State) (p : Nat) (x : Port) : (s.setPort p x).out = s.out := rfl
@[simp] theorem State.setPort_pending (s : State) (p : Nat) (x : Port) : (s.setPort p x).pending = s.pending := rfl
@[simp] theorem State.setPort_ctx (s : State) (p : Nat) (x : Port) (k : Nat) : (s.setPort p x).ctx k = s.ctx k := rfl
@[simp] theorem State.setPort_tile (s : State) (p : Nat) (x : Port) (k : Nat) : (s.setPort p x).tile k = s.tile k := rfl
@[simp] theorem State.setPort_bay (s : State) (p : Nat) (x : Port) (k : Nat) : (s.setPort p x).bay k = s.bay k := rfl
@[simp] theorem State.setPort_objOf (s : State) (p : Nat) (x : Port) (k : Nat) : (s.setPort p x).obj? k = s.obj? k := rfl
@[simp] theorem State.setPort_seqEntry (s : State) (p : Nat) (x : Port) (k : Nat) : (s.setPort p x).seqEntry k = s.seqEntry k := rfl
@[simp] theorem State.setPort_entry (s : State) (p : Nat) (x : Port) (k : Nat) : (s.setPort p x).entry k = s.entry k := rfl
@[simp] theorem State.setPort_touchNow (s : State) (p : Nat) (x : Port) : (s.setPort p x).touchNow = s.touchNow := rfl

@[simp] theorem State.modPort_time (s : State) (p : Nat) (f : Port → Port) : (s.modPort p f).time = s.time := rfl
@[simp] theorem State.modPort_chip (s : State) (p : Nat) (f : Port → Port) : (s.modPort p f).chip = s.chip := rfl
@[simp] theorem State.modPort_flash (s : State) (p : Nat) (f : Port → Port) : (s.modPort p f).flash = s.flash := rfl
@[simp] theorem State.modPort_inputs (s : State) (p : Nat) (f : Port → Port) : (s.modPort p f).inputs = s.inputs := rfl
@[simp] theorem State.modPort_mgmt (s : State) (p : Nat) (f : Port → Port) : (s.modPort p f).mgmt = s.mgmt := rfl
@[simp] theorem State.modPort_power (s : State) (p : Nat) (f : Port → Port) : (s.modPort p f).power = s.power := rfl
@[simp] theorem State.modPort_hostA (s : State) (p : Nat) (f : Port → Port) : (s.modPort p f).hostA = s.hostA := rfl
@[simp] theorem State.modPort_hostB (s : State) (p : Nat) (f : Port → Port) : (s.modPort p f).hostB = s.hostB := rfl
@[simp] theorem State.modPort_pll (s : State) (p : Nat) (f : Port → Port) : (s.modPort p f).pll = s.pll := rfl
@[simp] theorem State.modPort_regs (s : State) (p : Nat) (f : Port → Port) : (s.modPort p f).regs = s.regs := rfl
@[simp] theorem State.modPort_latches (s : State) (p : Nat) (f : Port → Port) : (s.modPort p f).latches = s.latches := rfl
@[simp] theorem State.modPort_ctxs (s : State) (p : Nat) (f : Port → Port) : (s.modPort p f).ctxs = s.ctxs := rfl
@[simp] theorem State.modPort_tiles (s : State) (p : Nat) (f : Port → Port) : (s.modPort p f).tiles = s.tiles := rfl
@[simp] theorem State.modPort_mem (s : State) (p : Nat) (f : Port → Port) : (s.modPort p f).mem = s.mem := rfl
@[simp] theorem State.modPort_ledger (s : State) (p : Nat) (f : Port → Port) : (s.modPort p f).ledger = s.ledger := rfl
@[simp] theorem State.modPort_host (s : State) (p : Nat) (f : Port → Port) : (s.modPort p f).host = s.host := rfl
@[simp] theorem State.modPort_pmcMod (s : State) (p : Nat) (f : Port → Port) : (s.modPort p f).pmcMod = s.pmcMod := rfl
@[simp] theorem State.modPort_pmcModOvf (s : State) (p : Nat) (f : Port → Port) : (s.modPort p f).pmcModOvf = s.pmcModOvf := rfl
@[simp] theorem State.modPort_pmcTime (s : State) (p : Nat) (f : Port → Port) : (s.modPort p f).pmcTime = s.pmcTime := rfl
@[simp] theorem State.modPort_nextFetch (s : State) (p : Nat) (f : Port → Port) : (s.modPort p f).nextFetch = s.nextFetch := rfl
@[simp] theorem State.modPort_nextStart (s : State) (p : Nat) (f : Port → Port) : (s.modPort p f).nextStart = s.nextStart := rfl
@[simp] theorem State.modPort_fresh (s : State) (p : Nat) (f : Port → Port) : (s.modPort p f).fresh = s.fresh := rfl
@[simp] theorem State.modPort_out (s : State) (p : Nat) (f : Port → Port) : (s.modPort p f).out = s.out := rfl
@[simp] theorem State.modPort_pending (s : State) (p : Nat) (f : Port → Port) : (s.modPort p f).pending = s.pending := rfl
@[simp] theorem State.modPort_ctx (s : State) (p : Nat) (f : Port → Port) (k : Nat) : (s.modPort p f).ctx k = s.ctx k := rfl
@[simp] theorem State.modPort_tile (s : State) (p : Nat) (f : Port → Port) (k : Nat) : (s.modPort p f).tile k = s.tile k := rfl
@[simp] theorem State.modPort_bay (s : State) (p : Nat) (f : Port → Port) (k : Nat) : (s.modPort p f).bay k = s.bay k := rfl
@[simp] theorem State.modPort_objOf (s : State) (p : Nat) (f : Port → Port) (k : Nat) : (s.modPort p f).obj? k = s.obj? k := rfl
@[simp] theorem State.modPort_seqEntry (s : State) (p : Nat) (f : Port → Port) (k : Nat) : (s.modPort p f).seqEntry k = s.seqEntry k := rfl
@[simp] theorem State.modPort_entry (s : State) (p : Nat) (f : Port → Port) (k : Nat) : (s.modPort p f).entry k = s.entry k := rfl
@[simp] theorem State.modPort_touchNow (s : State) (p : Nat) (f : Port → Port) : (s.modPort p f).touchNow = s.touchNow := rfl

@[simp] theorem State.setBay_time (s : State) (b : Nat) (x : Bay) : (s.setBay b x).time = s.time := rfl
@[simp] theorem State.setBay_chip (s : State) (b : Nat) (x : Bay) : (s.setBay b x).chip = s.chip := rfl
@[simp] theorem State.setBay_flash (s : State) (b : Nat) (x : Bay) : (s.setBay b x).flash = s.flash := rfl
@[simp] theorem State.setBay_inputs (s : State) (b : Nat) (x : Bay) : (s.setBay b x).inputs = s.inputs := rfl
@[simp] theorem State.setBay_mgmt (s : State) (b : Nat) (x : Bay) : (s.setBay b x).mgmt = s.mgmt := rfl
@[simp] theorem State.setBay_power (s : State) (b : Nat) (x : Bay) : (s.setBay b x).power = s.power := rfl
@[simp] theorem State.setBay_hostA (s : State) (b : Nat) (x : Bay) : (s.setBay b x).hostA = s.hostA := rfl
@[simp] theorem State.setBay_hostB (s : State) (b : Nat) (x : Bay) : (s.setBay b x).hostB = s.hostB := rfl
@[simp] theorem State.setBay_pll (s : State) (b : Nat) (x : Bay) : (s.setBay b x).pll = s.pll := rfl
@[simp] theorem State.setBay_regs (s : State) (b : Nat) (x : Bay) : (s.setBay b x).regs = s.regs := rfl
@[simp] theorem State.setBay_latches (s : State) (b : Nat) (x : Bay) : (s.setBay b x).latches = s.latches := rfl
@[simp] theorem State.setBay_ctxs (s : State) (b : Nat) (x : Bay) : (s.setBay b x).ctxs = s.ctxs := rfl
@[simp] theorem State.setBay_tiles (s : State) (b : Nat) (x : Bay) : (s.setBay b x).tiles = s.tiles := rfl
@[simp] theorem State.setBay_mem (s : State) (b : Nat) (x : Bay) : (s.setBay b x).mem = s.mem := rfl
@[simp] theorem State.setBay_ledger (s : State) (b : Nat) (x : Bay) : (s.setBay b x).ledger = s.ledger := rfl
@[simp] theorem State.setBay_host (s : State) (b : Nat) (x : Bay) : (s.setBay b x).host = s.host := rfl
@[simp] theorem State.setBay_pmcMod (s : State) (b : Nat) (x : Bay) : (s.setBay b x).pmcMod = s.pmcMod := rfl
@[simp] theorem State.setBay_pmcModOvf (s : State) (b : Nat) (x : Bay) : (s.setBay b x).pmcModOvf = s.pmcModOvf := rfl
@[simp] theorem State.setBay_pmcTime (s : State) (b : Nat) (x : Bay) : (s.setBay b x).pmcTime = s.pmcTime := rfl
@[simp] theorem State.setBay_nextFetch (s : State) (b : Nat) (x : Bay) : (s.setBay b x).nextFetch = s.nextFetch := rfl
@[simp] theorem State.setBay_nextStart (s : State) (b : Nat) (x : Bay) : (s.setBay b x).nextStart = s.nextStart := rfl
@[simp] theorem State.setBay_fresh (s : State) (b : Nat) (x : Bay) : (s.setBay b x).fresh = s.fresh := rfl
@[simp] theorem State.setBay_out (s : State) (b : Nat) (x : Bay) : (s.setBay b x).out = s.out := rfl
@[simp] theorem State.setBay_pending (s : State) (b : Nat) (x : Bay) : (s.setBay b x).pending = s.pending := rfl
@[simp] theorem State.setBay_ctx (s : State) (b : Nat) (x : Bay) (k : Nat) : (s.setBay b x).ctx k = s.ctx k := rfl
@[simp] theorem State.setBay_tile (s : State) (b : Nat) (x : Bay) (k : Nat) : (s.setBay b x).tile k = s.tile k := rfl
@[simp] theorem State.setBay_port (s : State) (b : Nat) (x : Bay) (k : Nat) : (s.setBay b x).port k = s.port k := rfl
@[simp] theorem State.setBay_objOf (s : State) (b : Nat) (x : Bay) (k : Nat) : (s.setBay b x).obj? k = s.obj? k := rfl
@[simp] theorem State.setBay_seqEntry (s : State) (b : Nat) (x : Bay) (k : Nat) : (s.setBay b x).seqEntry k = s.seqEntry k := rfl
@[simp] theorem State.setBay_entry (s : State) (b : Nat) (x : Bay) (k : Nat) : (s.setBay b x).entry k = s.entry k := rfl
@[simp] theorem State.setBay_touchNow (s : State) (b : Nat) (x : Bay) : (s.setBay b x).touchNow = s.touchNow := rfl

@[simp] theorem State.setObj_time (s : State) (o : Nat) (x : Obj) : (s.setObj o x).time = s.time := rfl
@[simp] theorem State.setObj_chip (s : State) (o : Nat) (x : Obj) : (s.setObj o x).chip = s.chip := rfl
@[simp] theorem State.setObj_flash (s : State) (o : Nat) (x : Obj) : (s.setObj o x).flash = s.flash := rfl
@[simp] theorem State.setObj_inputs (s : State) (o : Nat) (x : Obj) : (s.setObj o x).inputs = s.inputs := rfl
@[simp] theorem State.setObj_mgmt (s : State) (o : Nat) (x : Obj) : (s.setObj o x).mgmt = s.mgmt := rfl
@[simp] theorem State.setObj_power (s : State) (o : Nat) (x : Obj) : (s.setObj o x).power = s.power := rfl
@[simp] theorem State.setObj_hostA (s : State) (o : Nat) (x : Obj) : (s.setObj o x).hostA = s.hostA := rfl
@[simp] theorem State.setObj_hostB (s : State) (o : Nat) (x : Obj) : (s.setObj o x).hostB = s.hostB := rfl
@[simp] theorem State.setObj_pll (s : State) (o : Nat) (x : Obj) : (s.setObj o x).pll = s.pll := rfl
@[simp] theorem State.setObj_regs (s : State) (o : Nat) (x : Obj) : (s.setObj o x).regs = s.regs := rfl
@[simp] theorem State.setObj_latches (s : State) (o : Nat) (x : Obj) : (s.setObj o x).latches = s.latches := rfl
@[simp] theorem State.setObj_ctxs (s : State) (o : Nat) (x : Obj) : (s.setObj o x).ctxs = s.ctxs := rfl
@[simp] theorem State.setObj_tiles (s : State) (o : Nat) (x : Obj) : (s.setObj o x).tiles = s.tiles := rfl
@[simp] theorem State.setObj_ledger (s : State) (o : Nat) (x : Obj) : (s.setObj o x).ledger = s.ledger := rfl
@[simp] theorem State.setObj_fabric (s : State) (o : Nat) (x : Obj) : (s.setObj o x).fabric = s.fabric := rfl
@[simp] theorem State.setObj_host (s : State) (o : Nat) (x : Obj) : (s.setObj o x).host = s.host := rfl
@[simp] theorem State.setObj_pmcMod (s : State) (o : Nat) (x : Obj) : (s.setObj o x).pmcMod = s.pmcMod := rfl
@[simp] theorem State.setObj_pmcModOvf (s : State) (o : Nat) (x : Obj) : (s.setObj o x).pmcModOvf = s.pmcModOvf := rfl
@[simp] theorem State.setObj_pmcTime (s : State) (o : Nat) (x : Obj) : (s.setObj o x).pmcTime = s.pmcTime := rfl
@[simp] theorem State.setObj_nextFetch (s : State) (o : Nat) (x : Obj) : (s.setObj o x).nextFetch = s.nextFetch := rfl
@[simp] theorem State.setObj_nextStart (s : State) (o : Nat) (x : Obj) : (s.setObj o x).nextStart = s.nextStart := rfl
@[simp] theorem State.setObj_fresh (s : State) (o : Nat) (x : Obj) : (s.setObj o x).fresh = s.fresh := rfl
@[simp] theorem State.setObj_out (s : State) (o : Nat) (x : Obj) : (s.setObj o x).out = s.out := rfl
@[simp] theorem State.setObj_pending (s : State) (o : Nat) (x : Obj) : (s.setObj o x).pending = s.pending := rfl
@[simp] theorem State.setObj_ctx (s : State) (o : Nat) (x : Obj) (k : Nat) : (s.setObj o x).ctx k = s.ctx k := rfl
@[simp] theorem State.setObj_tile (s : State) (o : Nat) (x : Obj) (k : Nat) : (s.setObj o x).tile k = s.tile k := rfl
@[simp] theorem State.setObj_port (s : State) (o : Nat) (x : Obj) (k : Nat) : (s.setObj o x).port k = s.port k := rfl
@[simp] theorem State.setObj_bay (s : State) (o : Nat) (x : Obj) (k : Nat) : (s.setObj o x).bay k = s.bay k := rfl
@[simp] theorem State.setObj_seqEntry (s : State) (o : Nat) (x : Obj) (k : Nat) : (s.setObj o x).seqEntry k = s.seqEntry k := rfl
@[simp] theorem State.setObj_entry (s : State) (o : Nat) (x : Obj) (k : Nat) : (s.setObj o x).entry k = s.entry k := rfl
@[simp] theorem State.setObj_touchNow (s : State) (o : Nat) (x : Obj) : (s.setObj o x).touchNow = s.touchNow := rfl

@[simp] theorem State.setReg_time (s : State) (a v : Nat) : (s.setReg a v).time = s.time := rfl
@[simp] theorem State.setReg_chip (s : State) (a v : Nat) : (s.setReg a v).chip = s.chip := rfl
@[simp] theorem State.setReg_flash (s : State) (a v : Nat) : (s.setReg a v).flash = s.flash := rfl
@[simp] theorem State.setReg_inputs (s : State) (a v : Nat) : (s.setReg a v).inputs = s.inputs := rfl
@[simp] theorem State.setReg_mgmt (s : State) (a v : Nat) : (s.setReg a v).mgmt = s.mgmt := rfl
@[simp] theorem State.setReg_power (s : State) (a v : Nat) : (s.setReg a v).power = s.power := rfl
@[simp] theorem State.setReg_hostA (s : State) (a v : Nat) : (s.setReg a v).hostA = s.hostA := rfl
@[simp] theorem State.setReg_hostB (s : State) (a v : Nat) : (s.setReg a v).hostB = s.hostB := rfl
@[simp] theorem State.setReg_pll (s : State) (a v : Nat) : (s.setReg a v).pll = s.pll := rfl
@[simp] theorem State.setReg_latches (s : State) (a v : Nat) : (s.setReg a v).latches = s.latches := rfl
@[simp] theorem State.setReg_ctxs (s : State) (a v : Nat) : (s.setReg a v).ctxs = s.ctxs := rfl
@[simp] theorem State.setReg_tiles (s : State) (a v : Nat) : (s.setReg a v).tiles = s.tiles := rfl
@[simp] theorem State.setReg_mem (s : State) (a v : Nat) : (s.setReg a v).mem = s.mem := rfl
@[simp] theorem State.setReg_ledger (s : State) (a v : Nat) : (s.setReg a v).ledger = s.ledger := rfl
@[simp] theorem State.setReg_fabric (s : State) (a v : Nat) : (s.setReg a v).fabric = s.fabric := rfl
@[simp] theorem State.setReg_host (s : State) (a v : Nat) : (s.setReg a v).host = s.host := rfl
@[simp] theorem State.setReg_pmcMod (s : State) (a v : Nat) : (s.setReg a v).pmcMod = s.pmcMod := rfl
@[simp] theorem State.setReg_pmcModOvf (s : State) (a v : Nat) : (s.setReg a v).pmcModOvf = s.pmcModOvf := rfl
@[simp] theorem State.setReg_pmcTime (s : State) (a v : Nat) : (s.setReg a v).pmcTime = s.pmcTime := rfl
@[simp] theorem State.setReg_nextFetch (s : State) (a v : Nat) : (s.setReg a v).nextFetch = s.nextFetch := rfl
@[simp] theorem State.setReg_nextStart (s : State) (a v : Nat) : (s.setReg a v).nextStart = s.nextStart := rfl
@[simp] theorem State.setReg_fresh (s : State) (a v : Nat) : (s.setReg a v).fresh = s.fresh := rfl
@[simp] theorem State.setReg_out (s : State) (a v : Nat) : (s.setReg a v).out = s.out := rfl
@[simp] theorem State.setReg_pending (s : State) (a v : Nat) : (s.setReg a v).pending = s.pending := rfl
@[simp] theorem State.setReg_ctx (s : State) (a v : Nat) (k : Nat) : (s.setReg a v).ctx k = s.ctx k := rfl
@[simp] theorem State.setReg_tile (s : State) (a v : Nat) (k : Nat) : (s.setReg a v).tile k = s.tile k := rfl
@[simp] theorem State.setReg_port (s : State) (a v : Nat) (k : Nat) : (s.setReg a v).port k = s.port k := rfl
@[simp] theorem State.setReg_bay (s : State) (a v : Nat) (k : Nat) : (s.setReg a v).bay k = s.bay k := rfl
@[simp] theorem State.setReg_objOf (s : State) (a v : Nat) (k : Nat) : (s.setReg a v).obj? k = s.obj? k := rfl
@[simp] theorem State.setReg_seqEntry (s : State) (a v : Nat) (k : Nat) : (s.setReg a v).seqEntry k = s.seqEntry k := rfl
@[simp] theorem State.setReg_entry (s : State) (a v : Nat) (k : Nat) : (s.setReg a v).entry k = s.entry k := rfl
@[simp] theorem State.setReg_touchNow (s : State) (a v : Nat) : (s.setReg a v).touchNow = s.touchNow := rfl

@[simp] theorem State.emit_time (s : State) (o : Out) : (s.emit o).time = s.time := rfl
@[simp] theorem State.emit_chip (s : State) (o : Out) : (s.emit o).chip = s.chip := rfl
@[simp] theorem State.emit_flash (s : State) (o : Out) : (s.emit o).flash = s.flash := rfl
@[simp] theorem State.emit_inputs (s : State) (o : Out) : (s.emit o).inputs = s.inputs := rfl
@[simp] theorem State.emit_mgmt (s : State) (o : Out) : (s.emit o).mgmt = s.mgmt := rfl
@[simp] theorem State.emit_power (s : State) (o : Out) : (s.emit o).power = s.power := rfl
@[simp] theorem State.emit_hostA (s : State) (o : Out) : (s.emit o).hostA = s.hostA := rfl
@[simp] theorem State.emit_hostB (s : State) (o : Out) : (s.emit o).hostB = s.hostB := rfl
@[simp] theorem State.emit_pll (s : State) (o : Out) : (s.emit o).pll = s.pll := rfl
@[simp] theorem State.emit_regs (s : State) (o : Out) : (s.emit o).regs = s.regs := rfl
@[simp] theorem State.emit_latches (s : State) (o : Out) : (s.emit o).latches = s.latches := rfl
@[simp] theorem State.emit_ctxs (s : State) (o : Out) : (s.emit o).ctxs = s.ctxs := rfl
@[simp] theorem State.emit_tiles (s : State) (o : Out) : (s.emit o).tiles = s.tiles := rfl
@[simp] theorem State.emit_mem (s : State) (o : Out) : (s.emit o).mem = s.mem := rfl
@[simp] theorem State.emit_ledger (s : State) (o : Out) : (s.emit o).ledger = s.ledger := rfl
@[simp] theorem State.emit_fabric (s : State) (o : Out) : (s.emit o).fabric = s.fabric := rfl
@[simp] theorem State.emit_host (s : State) (o : Out) : (s.emit o).host = s.host := rfl
@[simp] theorem State.emit_pmcMod (s : State) (o : Out) : (s.emit o).pmcMod = s.pmcMod := rfl
@[simp] theorem State.emit_pmcModOvf (s : State) (o : Out) : (s.emit o).pmcModOvf = s.pmcModOvf := rfl
@[simp] theorem State.emit_pmcTime (s : State) (o : Out) : (s.emit o).pmcTime = s.pmcTime := rfl
@[simp] theorem State.emit_nextFetch (s : State) (o : Out) : (s.emit o).nextFetch = s.nextFetch := rfl
@[simp] theorem State.emit_nextStart (s : State) (o : Out) : (s.emit o).nextStart = s.nextStart := rfl
@[simp] theorem State.emit_fresh (s : State) (o : Out) : (s.emit o).fresh = s.fresh := rfl
@[simp] theorem State.emit_pending (s : State) (o : Out) : (s.emit o).pending = s.pending := rfl
@[simp] theorem State.emit_ctx (s : State) (o : Out) (k : Nat) : (s.emit o).ctx k = s.ctx k := rfl
@[simp] theorem State.emit_tile (s : State) (o : Out) (k : Nat) : (s.emit o).tile k = s.tile k := rfl
@[simp] theorem State.emit_port (s : State) (o : Out) (k : Nat) : (s.emit o).port k = s.port k := rfl
@[simp] theorem State.emit_bay (s : State) (o : Out) (k : Nat) : (s.emit o).bay k = s.bay k := rfl
@[simp] theorem State.emit_objOf (s : State) (o : Out) (k : Nat) : (s.emit o).obj? k = s.obj? k := rfl
@[simp] theorem State.emit_seqEntry (s : State) (o : Out) (k : Nat) : (s.emit o).seqEntry k = s.seqEntry k := rfl
@[simp] theorem State.emit_entry (s : State) (o : Out) (k : Nat) : (s.emit o).entry k = s.entry k := rfl
@[simp] theorem State.emit_touchNow (s : State) (o : Out) : (s.emit o).touchNow = s.touchNow := rfl

@[simp] theorem State.logEv_time (s : State) (n : Nat) (l : List Nat) : (s.logEv n l).time = s.time := rfl
@[simp] theorem State.logEv_chip (s : State) (n : Nat) (l : List Nat) : (s.logEv n l).chip = s.chip := rfl
@[simp] theorem State.logEv_inputs (s : State) (n : Nat) (l : List Nat) : (s.logEv n l).inputs = s.inputs := rfl
@[simp] theorem State.logEv_mgmt (s : State) (n : Nat) (l : List Nat) : (s.logEv n l).mgmt = s.mgmt := rfl
@[simp] theorem State.logEv_power (s : State) (n : Nat) (l : List Nat) : (s.logEv n l).power = s.power := rfl
@[simp] theorem State.logEv_hostA (s : State) (n : Nat) (l : List Nat) : (s.logEv n l).hostA = s.hostA := rfl
@[simp] theorem State.logEv_hostB (s : State) (n : Nat) (l : List Nat) : (s.logEv n l).hostB = s.hostB := rfl
@[simp] theorem State.logEv_pll (s : State) (n : Nat) (l : List Nat) : (s.logEv n l).pll = s.pll := rfl
@[simp] theorem State.logEv_regs (s : State) (n : Nat) (l : List Nat) : (s.logEv n l).regs = s.regs := rfl
@[simp] theorem State.logEv_latches (s : State) (n : Nat) (l : List Nat) : (s.logEv n l).latches = s.latches := rfl
@[simp] theorem State.logEv_ctxs (s : State) (n : Nat) (l : List Nat) : (s.logEv n l).ctxs = s.ctxs := rfl
@[simp] theorem State.logEv_tiles (s : State) (n : Nat) (l : List Nat) : (s.logEv n l).tiles = s.tiles := rfl
@[simp] theorem State.logEv_mem (s : State) (n : Nat) (l : List Nat) : (s.logEv n l).mem = s.mem := rfl
@[simp] theorem State.logEv_ledger (s : State) (n : Nat) (l : List Nat) : (s.logEv n l).ledger = s.ledger := rfl
@[simp] theorem State.logEv_fabric (s : State) (n : Nat) (l : List Nat) : (s.logEv n l).fabric = s.fabric := rfl
@[simp] theorem State.logEv_host (s : State) (n : Nat) (l : List Nat) : (s.logEv n l).host = s.host := rfl
@[simp] theorem State.logEv_pmcMod (s : State) (n : Nat) (l : List Nat) : (s.logEv n l).pmcMod = s.pmcMod := rfl
@[simp] theorem State.logEv_pmcModOvf (s : State) (n : Nat) (l : List Nat) : (s.logEv n l).pmcModOvf = s.pmcModOvf := rfl
@[simp] theorem State.logEv_pmcTime (s : State) (n : Nat) (l : List Nat) : (s.logEv n l).pmcTime = s.pmcTime := rfl
@[simp] theorem State.logEv_nextFetch (s : State) (n : Nat) (l : List Nat) : (s.logEv n l).nextFetch = s.nextFetch := rfl
@[simp] theorem State.logEv_nextStart (s : State) (n : Nat) (l : List Nat) : (s.logEv n l).nextStart = s.nextStart := rfl
@[simp] theorem State.logEv_fresh (s : State) (n : Nat) (l : List Nat) : (s.logEv n l).fresh = s.fresh := rfl
@[simp] theorem State.logEv_out (s : State) (n : Nat) (l : List Nat) : (s.logEv n l).out = s.out := rfl
@[simp] theorem State.logEv_pending (s : State) (n : Nat) (l : List Nat) : (s.logEv n l).pending = s.pending := rfl
@[simp] theorem State.logEv_ctx (s : State) (n : Nat) (l : List Nat) (k : Nat) : (s.logEv n l).ctx k = s.ctx k := rfl
@[simp] theorem State.logEv_tile (s : State) (n : Nat) (l : List Nat) (k : Nat) : (s.logEv n l).tile k = s.tile k := rfl
@[simp] theorem State.logEv_port (s : State) (n : Nat) (l : List Nat) (k : Nat) : (s.logEv n l).port k = s.port k := rfl
@[simp] theorem State.logEv_bay (s : State) (n : Nat) (l : List Nat) (k : Nat) : (s.logEv n l).bay k = s.bay k := rfl
@[simp] theorem State.logEv_objOf (s : State) (n : Nat) (l : List Nat) (k : Nat) : (s.logEv n l).obj? k = s.obj? k := rfl
@[simp] theorem State.logEv_seqEntry (s : State) (n : Nat) (l : List Nat) (k : Nat) : (s.logEv n l).seqEntry k = s.seqEntry k := rfl
@[simp] theorem State.logEv_entry (s : State) (n : Nat) (l : List Nat) (k : Nat) : (s.logEv n l).entry k = s.entry k := rfl
@[simp] theorem State.logEv_touchNow (s : State) (n : Nat) (l : List Nat) : (s.logEv n l).touchNow = s.touchNow := rfl

@[simp] theorem State.countErr_time (s : State) : (s.countErr).time = s.time := rfl
@[simp] theorem State.countErr_flash (s : State) : (s.countErr).flash = s.flash := rfl
@[simp] theorem State.countErr_inputs (s : State) : (s.countErr).inputs = s.inputs := rfl
@[simp] theorem State.countErr_mgmt (s : State) : (s.countErr).mgmt = s.mgmt := rfl
@[simp] theorem State.countErr_power (s : State) : (s.countErr).power = s.power := rfl
@[simp] theorem State.countErr_hostA (s : State) : (s.countErr).hostA = s.hostA := rfl
@[simp] theorem State.countErr_hostB (s : State) : (s.countErr).hostB = s.hostB := rfl
@[simp] theorem State.countErr_pll (s : State) : (s.countErr).pll = s.pll := rfl
@[simp] theorem State.countErr_regs (s : State) : (s.countErr).regs = s.regs := rfl
@[simp] theorem State.countErr_latches (s : State) : (s.countErr).latches = s.latches := rfl
@[simp] theorem State.countErr_ctxs (s : State) : (s.countErr).ctxs = s.ctxs := rfl
@[simp] theorem State.countErr_tiles (s : State) : (s.countErr).tiles = s.tiles := rfl
@[simp] theorem State.countErr_mem (s : State) : (s.countErr).mem = s.mem := rfl
@[simp] theorem State.countErr_ledger (s : State) : (s.countErr).ledger = s.ledger := rfl
@[simp] theorem State.countErr_fabric (s : State) : (s.countErr).fabric = s.fabric := rfl
@[simp] theorem State.countErr_host (s : State) : (s.countErr).host = s.host := rfl
@[simp] theorem State.countErr_pmcMod (s : State) : (s.countErr).pmcMod = s.pmcMod := rfl
@[simp] theorem State.countErr_pmcModOvf (s : State) : (s.countErr).pmcModOvf = s.pmcModOvf := rfl
@[simp] theorem State.countErr_pmcTime (s : State) : (s.countErr).pmcTime = s.pmcTime := rfl
@[simp] theorem State.countErr_nextFetch (s : State) : (s.countErr).nextFetch = s.nextFetch := rfl
@[simp] theorem State.countErr_nextStart (s : State) : (s.countErr).nextStart = s.nextStart := rfl
@[simp] theorem State.countErr_fresh (s : State) : (s.countErr).fresh = s.fresh := rfl
@[simp] theorem State.countErr_out (s : State) : (s.countErr).out = s.out := rfl
@[simp] theorem State.countErr_pending (s : State) : (s.countErr).pending = s.pending := rfl
@[simp] theorem State.countErr_ctx (s : State) (k : Nat) : (s.countErr).ctx k = s.ctx k := rfl
@[simp] theorem State.countErr_tile (s : State) (k : Nat) : (s.countErr).tile k = s.tile k := rfl
@[simp] theorem State.countErr_port (s : State) (k : Nat) : (s.countErr).port k = s.port k := rfl
@[simp] theorem State.countErr_bay (s : State) (k : Nat) : (s.countErr).bay k = s.bay k := rfl
@[simp] theorem State.countErr_objOf (s : State) (k : Nat) : (s.countErr).obj? k = s.obj? k := rfl
@[simp] theorem State.countErr_seqEntry (s : State) (k : Nat) : (s.countErr).seqEntry k = s.seqEntry k := rfl
@[simp] theorem State.countErr_entry (s : State) (k : Nat) : (s.countErr).entry k = s.entry k := rfl
@[simp] theorem State.countErr_touchNow (s : State) : (s.countErr).touchNow = s.touchNow := rfl

@[simp] theorem State.bump_time (s : State) : (s.bump).time = s.time := rfl
@[simp] theorem State.bump_chip (s : State) : (s.bump).chip = s.chip := rfl
@[simp] theorem State.bump_flash (s : State) : (s.bump).flash = s.flash := rfl
@[simp] theorem State.bump_inputs (s : State) : (s.bump).inputs = s.inputs := rfl
@[simp] theorem State.bump_mgmt (s : State) : (s.bump).mgmt = s.mgmt := rfl
@[simp] theorem State.bump_power (s : State) : (s.bump).power = s.power := rfl
@[simp] theorem State.bump_hostA (s : State) : (s.bump).hostA = s.hostA := rfl
@[simp] theorem State.bump_hostB (s : State) : (s.bump).hostB = s.hostB := rfl
@[simp] theorem State.bump_pll (s : State) : (s.bump).pll = s.pll := rfl
@[simp] theorem State.bump_regs (s : State) : (s.bump).regs = s.regs := rfl
@[simp] theorem State.bump_latches (s : State) : (s.bump).latches = s.latches := rfl
@[simp] theorem State.bump_ctxs (s : State) : (s.bump).ctxs = s.ctxs := rfl
@[simp] theorem State.bump_tiles (s : State) : (s.bump).tiles = s.tiles := rfl
@[simp] theorem State.bump_mem (s : State) : (s.bump).mem = s.mem := rfl
@[simp] theorem State.bump_ledger (s : State) : (s.bump).ledger = s.ledger := rfl
@[simp] theorem State.bump_fabric (s : State) : (s.bump).fabric = s.fabric := rfl
@[simp] theorem State.bump_host (s : State) : (s.bump).host = s.host := rfl
@[simp] theorem State.bump_pmcMod (s : State) : (s.bump).pmcMod = s.pmcMod := rfl
@[simp] theorem State.bump_pmcModOvf (s : State) : (s.bump).pmcModOvf = s.pmcModOvf := rfl
@[simp] theorem State.bump_pmcTime (s : State) : (s.bump).pmcTime = s.pmcTime := rfl
@[simp] theorem State.bump_nextFetch (s : State) : (s.bump).nextFetch = s.nextFetch := rfl
@[simp] theorem State.bump_nextStart (s : State) : (s.bump).nextStart = s.nextStart := rfl
@[simp] theorem State.bump_out (s : State) : (s.bump).out = s.out := rfl
@[simp] theorem State.bump_pending (s : State) : (s.bump).pending = s.pending := rfl
@[simp] theorem State.bump_ctx (s : State) (k : Nat) : (s.bump).ctx k = s.ctx k := rfl
@[simp] theorem State.bump_tile (s : State) (k : Nat) : (s.bump).tile k = s.tile k := rfl
@[simp] theorem State.bump_port (s : State) (k : Nat) : (s.bump).port k = s.port k := rfl
@[simp] theorem State.bump_bay (s : State) (k : Nat) : (s.bump).bay k = s.bay k := rfl
@[simp] theorem State.bump_objOf (s : State) (k : Nat) : (s.bump).obj? k = s.obj? k := rfl
@[simp] theorem State.bump_seqEntry (s : State) (k : Nat) : (s.bump).seqEntry k = s.seqEntry k := rfl
@[simp] theorem State.bump_entry (s : State) (k : Nat) : (s.bump).entry k = s.entry k := rfl
@[simp] theorem State.bump_touchNow (s : State) : (s.bump).touchNow = s.touchNow := rfl

@[simp] theorem State.setSticky_time (s : State) (i : Nat) : (s.setSticky i).time = s.time := rfl
@[simp] theorem State.setSticky_chip (s : State) (i : Nat) : (s.setSticky i).chip = s.chip := rfl
@[simp] theorem State.setSticky_flash (s : State) (i : Nat) : (s.setSticky i).flash = s.flash := rfl
@[simp] theorem State.setSticky_mgmt (s : State) (i : Nat) : (s.setSticky i).mgmt = s.mgmt := rfl
@[simp] theorem State.setSticky_power (s : State) (i : Nat) : (s.setSticky i).power = s.power := rfl
@[simp] theorem State.setSticky_hostA (s : State) (i : Nat) : (s.setSticky i).hostA = s.hostA := rfl
@[simp] theorem State.setSticky_hostB (s : State) (i : Nat) : (s.setSticky i).hostB = s.hostB := rfl
@[simp] theorem State.setSticky_pll (s : State) (i : Nat) : (s.setSticky i).pll = s.pll := rfl
@[simp] theorem State.setSticky_regs (s : State) (i : Nat) : (s.setSticky i).regs = s.regs := rfl
@[simp] theorem State.setSticky_latches (s : State) (i : Nat) : (s.setSticky i).latches = s.latches := rfl
@[simp] theorem State.setSticky_ctxs (s : State) (i : Nat) : (s.setSticky i).ctxs = s.ctxs := rfl
@[simp] theorem State.setSticky_tiles (s : State) (i : Nat) : (s.setSticky i).tiles = s.tiles := rfl
@[simp] theorem State.setSticky_mem (s : State) (i : Nat) : (s.setSticky i).mem = s.mem := rfl
@[simp] theorem State.setSticky_ledger (s : State) (i : Nat) : (s.setSticky i).ledger = s.ledger := rfl
@[simp] theorem State.setSticky_fabric (s : State) (i : Nat) : (s.setSticky i).fabric = s.fabric := rfl
@[simp] theorem State.setSticky_host (s : State) (i : Nat) : (s.setSticky i).host = s.host := rfl
@[simp] theorem State.setSticky_pmcMod (s : State) (i : Nat) : (s.setSticky i).pmcMod = s.pmcMod := rfl
@[simp] theorem State.setSticky_pmcModOvf (s : State) (i : Nat) : (s.setSticky i).pmcModOvf = s.pmcModOvf := rfl
@[simp] theorem State.setSticky_pmcTime (s : State) (i : Nat) : (s.setSticky i).pmcTime = s.pmcTime := rfl
@[simp] theorem State.setSticky_nextFetch (s : State) (i : Nat) : (s.setSticky i).nextFetch = s.nextFetch := rfl
@[simp] theorem State.setSticky_nextStart (s : State) (i : Nat) : (s.setSticky i).nextStart = s.nextStart := rfl
@[simp] theorem State.setSticky_fresh (s : State) (i : Nat) : (s.setSticky i).fresh = s.fresh := rfl
@[simp] theorem State.setSticky_out (s : State) (i : Nat) : (s.setSticky i).out = s.out := rfl
@[simp] theorem State.setSticky_pending (s : State) (i : Nat) : (s.setSticky i).pending = s.pending := rfl
@[simp] theorem State.setSticky_ctx (s : State) (i : Nat) (k : Nat) : (s.setSticky i).ctx k = s.ctx k := rfl
@[simp] theorem State.setSticky_tile (s : State) (i : Nat) (k : Nat) : (s.setSticky i).tile k = s.tile k := rfl
@[simp] theorem State.setSticky_port (s : State) (i : Nat) (k : Nat) : (s.setSticky i).port k = s.port k := rfl
@[simp] theorem State.setSticky_bay (s : State) (i : Nat) (k : Nat) : (s.setSticky i).bay k = s.bay k := rfl
@[simp] theorem State.setSticky_objOf (s : State) (i : Nat) (k : Nat) : (s.setSticky i).obj? k = s.obj? k := rfl
@[simp] theorem State.setSticky_seqEntry (s : State) (i : Nat) (k : Nat) : (s.setSticky i).seqEntry k = s.seqEntry k := rfl
@[simp] theorem State.setSticky_entry (s : State) (i : Nat) (k : Nat) : (s.setSticky i).entry k = s.entry k := rfl
@[simp] theorem State.setSticky_touchNow (s : State) (i : Nat) : (s.setSticky i).touchNow = s.touchNow := rfl

@[simp] theorem State.assertFault_time (s : State) : (s.assertFault).time = s.time := rfl
@[simp] theorem State.assertFault_chip (s : State) : (s.assertFault).chip = s.chip := rfl
@[simp] theorem State.assertFault_flash (s : State) : (s.assertFault).flash = s.flash := rfl
@[simp] theorem State.assertFault_mgmt (s : State) : (s.assertFault).mgmt = s.mgmt := rfl
@[simp] theorem State.assertFault_power (s : State) : (s.assertFault).power = s.power := rfl
@[simp] theorem State.assertFault_hostA (s : State) : (s.assertFault).hostA = s.hostA := rfl
@[simp] theorem State.assertFault_hostB (s : State) : (s.assertFault).hostB = s.hostB := rfl
@[simp] theorem State.assertFault_pll (s : State) : (s.assertFault).pll = s.pll := rfl
@[simp] theorem State.assertFault_regs (s : State) : (s.assertFault).regs = s.regs := rfl
@[simp] theorem State.assertFault_latches (s : State) : (s.assertFault).latches = s.latches := rfl
@[simp] theorem State.assertFault_ctxs (s : State) : (s.assertFault).ctxs = s.ctxs := rfl
@[simp] theorem State.assertFault_tiles (s : State) : (s.assertFault).tiles = s.tiles := rfl
@[simp] theorem State.assertFault_mem (s : State) : (s.assertFault).mem = s.mem := rfl
@[simp] theorem State.assertFault_ledger (s : State) : (s.assertFault).ledger = s.ledger := rfl
@[simp] theorem State.assertFault_fabric (s : State) : (s.assertFault).fabric = s.fabric := rfl
@[simp] theorem State.assertFault_host (s : State) : (s.assertFault).host = s.host := rfl
@[simp] theorem State.assertFault_pmcMod (s : State) : (s.assertFault).pmcMod = s.pmcMod := rfl
@[simp] theorem State.assertFault_pmcModOvf (s : State) : (s.assertFault).pmcModOvf = s.pmcModOvf := rfl
@[simp] theorem State.assertFault_pmcTime (s : State) : (s.assertFault).pmcTime = s.pmcTime := rfl
@[simp] theorem State.assertFault_nextFetch (s : State) : (s.assertFault).nextFetch = s.nextFetch := rfl
@[simp] theorem State.assertFault_nextStart (s : State) : (s.assertFault).nextStart = s.nextStart := rfl
@[simp] theorem State.assertFault_fresh (s : State) : (s.assertFault).fresh = s.fresh := rfl
@[simp] theorem State.assertFault_out (s : State) : (s.assertFault).out = s.out := rfl
@[simp] theorem State.assertFault_pending (s : State) : (s.assertFault).pending = s.pending := rfl
@[simp] theorem State.assertFault_ctx (s : State) (k : Nat) : (s.assertFault).ctx k = s.ctx k := rfl
@[simp] theorem State.assertFault_tile (s : State) (k : Nat) : (s.assertFault).tile k = s.tile k := rfl
@[simp] theorem State.assertFault_port (s : State) (k : Nat) : (s.assertFault).port k = s.port k := rfl
@[simp] theorem State.assertFault_bay (s : State) (k : Nat) : (s.assertFault).bay k = s.bay k := rfl
@[simp] theorem State.assertFault_objOf (s : State) (k : Nat) : (s.assertFault).obj? k = s.obj? k := rfl
@[simp] theorem State.assertFault_seqEntry (s : State) (k : Nat) : (s.assertFault).seqEntry k = s.seqEntry k := rfl
@[simp] theorem State.assertFault_entry (s : State) (k : Nat) : (s.assertFault).entry k = s.entry k := rfl
@[simp] theorem State.assertFault_touchNow (s : State) : (s.assertFault).touchNow = s.touchNow := rfl

@[simp] theorem State.countMod_time (s : State) (i n : Nat) : (s.countMod i n).time = s.time := rfl
@[simp] theorem State.countMod_chip (s : State) (i n : Nat) : (s.countMod i n).chip = s.chip := rfl
@[simp] theorem State.countMod_flash (s : State) (i n : Nat) : (s.countMod i n).flash = s.flash := rfl
@[simp] theorem State.countMod_inputs (s : State) (i n : Nat) : (s.countMod i n).inputs = s.inputs := rfl
@[simp] theorem State.countMod_mgmt (s : State) (i n : Nat) : (s.countMod i n).mgmt = s.mgmt := rfl
@[simp] theorem State.countMod_power (s : State) (i n : Nat) : (s.countMod i n).power = s.power := rfl
@[simp] theorem State.countMod_hostA (s : State) (i n : Nat) : (s.countMod i n).hostA = s.hostA := rfl
@[simp] theorem State.countMod_hostB (s : State) (i n : Nat) : (s.countMod i n).hostB = s.hostB := rfl
@[simp] theorem State.countMod_pll (s : State) (i n : Nat) : (s.countMod i n).pll = s.pll := rfl
@[simp] theorem State.countMod_regs (s : State) (i n : Nat) : (s.countMod i n).regs = s.regs := rfl
@[simp] theorem State.countMod_latches (s : State) (i n : Nat) : (s.countMod i n).latches = s.latches := rfl
@[simp] theorem State.countMod_ctxs (s : State) (i n : Nat) : (s.countMod i n).ctxs = s.ctxs := rfl
@[simp] theorem State.countMod_tiles (s : State) (i n : Nat) : (s.countMod i n).tiles = s.tiles := rfl
@[simp] theorem State.countMod_mem (s : State) (i n : Nat) : (s.countMod i n).mem = s.mem := rfl
@[simp] theorem State.countMod_ledger (s : State) (i n : Nat) : (s.countMod i n).ledger = s.ledger := rfl
@[simp] theorem State.countMod_fabric (s : State) (i n : Nat) : (s.countMod i n).fabric = s.fabric := rfl
@[simp] theorem State.countMod_host (s : State) (i n : Nat) : (s.countMod i n).host = s.host := rfl
@[simp] theorem State.countMod_nextStart (s : State) (i n : Nat) : (s.countMod i n).nextStart = s.nextStart := rfl
@[simp] theorem State.countMod_fresh (s : State) (i n : Nat) : (s.countMod i n).fresh = s.fresh := rfl
@[simp] theorem State.countMod_out (s : State) (i n : Nat) : (s.countMod i n).out = s.out := rfl
@[simp] theorem State.countMod_pending (s : State) (i n : Nat) : (s.countMod i n).pending = s.pending := rfl
@[simp] theorem State.countMod_ctx (s : State) (i n : Nat) (k : Nat) : (s.countMod i n).ctx k = s.ctx k := rfl
@[simp] theorem State.countMod_tile (s : State) (i n : Nat) (k : Nat) : (s.countMod i n).tile k = s.tile k := rfl
@[simp] theorem State.countMod_port (s : State) (i n : Nat) (k : Nat) : (s.countMod i n).port k = s.port k := rfl
@[simp] theorem State.countMod_bay (s : State) (i n : Nat) (k : Nat) : (s.countMod i n).bay k = s.bay k := rfl
@[simp] theorem State.countMod_objOf (s : State) (i n : Nat) (k : Nat) : (s.countMod i n).obj? k = s.obj? k := rfl
@[simp] theorem State.countMod_seqEntry (s : State) (i n : Nat) (k : Nat) : (s.countMod i n).seqEntry k = s.seqEntry k := rfl
@[simp] theorem State.countMod_entry (s : State) (i n : Nat) (k : Nat) : (s.countMod i n).entry k = s.entry k := rfl
@[simp] theorem State.countMod_touchNow (s : State) (i n : Nat) : (s.countMod i n).touchNow = s.touchNow := rfl

@[simp] theorem State.setSeq_time (s : State) (q : Nat) (e : SeqEntry) : (s.setSeq q e).time = s.time := rfl
@[simp] theorem State.setSeq_chip (s : State) (q : Nat) (e : SeqEntry) : (s.setSeq q e).chip = s.chip := rfl
@[simp] theorem State.setSeq_flash (s : State) (q : Nat) (e : SeqEntry) : (s.setSeq q e).flash = s.flash := rfl
@[simp] theorem State.setSeq_inputs (s : State) (q : Nat) (e : SeqEntry) : (s.setSeq q e).inputs = s.inputs := rfl
@[simp] theorem State.setSeq_mgmt (s : State) (q : Nat) (e : SeqEntry) : (s.setSeq q e).mgmt = s.mgmt := rfl
@[simp] theorem State.setSeq_power (s : State) (q : Nat) (e : SeqEntry) : (s.setSeq q e).power = s.power := rfl
@[simp] theorem State.setSeq_hostA (s : State) (q : Nat) (e : SeqEntry) : (s.setSeq q e).hostA = s.hostA := rfl
@[simp] theorem State.setSeq_hostB (s : State) (q : Nat) (e : SeqEntry) : (s.setSeq q e).hostB = s.hostB := rfl
@[simp] theorem State.setSeq_pll (s : State) (q : Nat) (e : SeqEntry) : (s.setSeq q e).pll = s.pll := rfl
@[simp] theorem State.setSeq_regs (s : State) (q : Nat) (e : SeqEntry) : (s.setSeq q e).regs = s.regs := rfl
@[simp] theorem State.setSeq_latches (s : State) (q : Nat) (e : SeqEntry) : (s.setSeq q e).latches = s.latches := rfl
@[simp] theorem State.setSeq_ctxs (s : State) (q : Nat) (e : SeqEntry) : (s.setSeq q e).ctxs = s.ctxs := rfl
@[simp] theorem State.setSeq_tiles (s : State) (q : Nat) (e : SeqEntry) : (s.setSeq q e).tiles = s.tiles := rfl
@[simp] theorem State.setSeq_mem (s : State) (q : Nat) (e : SeqEntry) : (s.setSeq q e).mem = s.mem := rfl
@[simp] theorem State.setSeq_fabric (s : State) (q : Nat) (e : SeqEntry) : (s.setSeq q e).fabric = s.fabric := rfl
@[simp] theorem State.setSeq_host (s : State) (q : Nat) (e : SeqEntry) : (s.setSeq q e).host = s.host := rfl
@[simp] theorem State.setSeq_pmcMod (s : State) (q : Nat) (e : SeqEntry) : (s.setSeq q e).pmcMod = s.pmcMod := rfl
@[simp] theorem State.setSeq_pmcModOvf (s : State) (q : Nat) (e : SeqEntry) : (s.setSeq q e).pmcModOvf = s.pmcModOvf := rfl
@[simp] theorem State.setSeq_pmcTime (s : State) (q : Nat) (e : SeqEntry) : (s.setSeq q e).pmcTime = s.pmcTime := rfl
@[simp] theorem State.setSeq_nextFetch (s : State) (q : Nat) (e : SeqEntry) : (s.setSeq q e).nextFetch = s.nextFetch := rfl
@[simp] theorem State.setSeq_nextStart (s : State) (q : Nat) (e : SeqEntry) : (s.setSeq q e).nextStart = s.nextStart := rfl
@[simp] theorem State.setSeq_fresh (s : State) (q : Nat) (e : SeqEntry) : (s.setSeq q e).fresh = s.fresh := rfl
@[simp] theorem State.setSeq_out (s : State) (q : Nat) (e : SeqEntry) : (s.setSeq q e).out = s.out := rfl
@[simp] theorem State.setSeq_pending (s : State) (q : Nat) (e : SeqEntry) : (s.setSeq q e).pending = s.pending := rfl
@[simp] theorem State.setSeq_ctx (s : State) (q : Nat) (e : SeqEntry) (k : Nat) : (s.setSeq q e).ctx k = s.ctx k := rfl
@[simp] theorem State.setSeq_tile (s : State) (q : Nat) (e : SeqEntry) (k : Nat) : (s.setSeq q e).tile k = s.tile k := rfl
@[simp] theorem State.setSeq_port (s : State) (q : Nat) (e : SeqEntry) (k : Nat) : (s.setSeq q e).port k = s.port k := rfl
@[simp] theorem State.setSeq_bay (s : State) (q : Nat) (e : SeqEntry) (k : Nat) : (s.setSeq q e).bay k = s.bay k := rfl
@[simp] theorem State.setSeq_objOf (s : State) (q : Nat) (e : SeqEntry) (k : Nat) : (s.setSeq q e).obj? k = s.obj? k := rfl
@[simp] theorem State.setSeq_entry (s : State) (q : Nat) (e : SeqEntry) (k : Nat) : (s.setSeq q e).entry k = s.entry k := rfl
@[simp] theorem State.setSeq_touchNow (s : State) (q : Nat) (e : SeqEntry) : (s.setSeq q e).touchNow = s.touchNow := rfl

@[simp] theorem State.setEntry_time (s : State) (e : Nat) (v : DWord) : (s.setEntry e v).time = s.time := rfl
@[simp] theorem State.setEntry_chip (s : State) (e : Nat) (v : DWord) : (s.setEntry e v).chip = s.chip := rfl
@[simp] theorem State.setEntry_flash (s : State) (e : Nat) (v : DWord) : (s.setEntry e v).flash = s.flash := rfl
@[simp] theorem State.setEntry_inputs (s : State) (e : Nat) (v : DWord) : (s.setEntry e v).inputs = s.inputs := rfl
@[simp] theorem State.setEntry_mgmt (s : State) (e : Nat) (v : DWord) : (s.setEntry e v).mgmt = s.mgmt := rfl
@[simp] theorem State.setEntry_power (s : State) (e : Nat) (v : DWord) : (s.setEntry e v).power = s.power := rfl
@[simp] theorem State.setEntry_hostA (s : State) (e : Nat) (v : DWord) : (s.setEntry e v).hostA = s.hostA := rfl
@[simp] theorem State.setEntry_hostB (s : State) (e : Nat) (v : DWord) : (s.setEntry e v).hostB = s.hostB := rfl
@[simp] theorem State.setEntry_pll (s : State) (e : Nat) (v : DWord) : (s.setEntry e v).pll = s.pll := rfl
@[simp] theorem State.setEntry_regs (s : State) (e : Nat) (v : DWord) : (s.setEntry e v).regs = s.regs := rfl
@[simp] theorem State.setEntry_latches (s : State) (e : Nat) (v : DWord) : (s.setEntry e v).latches = s.latches := rfl
@[simp] theorem State.setEntry_ctxs (s : State) (e : Nat) (v : DWord) : (s.setEntry e v).ctxs = s.ctxs := rfl
@[simp] theorem State.setEntry_tiles (s : State) (e : Nat) (v : DWord) : (s.setEntry e v).tiles = s.tiles := rfl
@[simp] theorem State.setEntry_mem (s : State) (e : Nat) (v : DWord) : (s.setEntry e v).mem = s.mem := rfl
@[simp] theorem State.setEntry_fabric (s : State) (e : Nat) (v : DWord) : (s.setEntry e v).fabric = s.fabric := rfl
@[simp] theorem State.setEntry_host (s : State) (e : Nat) (v : DWord) : (s.setEntry e v).host = s.host := rfl
@[simp] theorem State.setEntry_pmcMod (s : State) (e : Nat) (v : DWord) : (s.setEntry e v).pmcMod = s.pmcMod := rfl
@[simp] theorem State.setEntry_pmcModOvf (s : State) (e : Nat) (v : DWord) : (s.setEntry e v).pmcModOvf = s.pmcModOvf := rfl
@[simp] theorem State.setEntry_pmcTime (s : State) (e : Nat) (v : DWord) : (s.setEntry e v).pmcTime = s.pmcTime := rfl
@[simp] theorem State.setEntry_nextFetch (s : State) (e : Nat) (v : DWord) : (s.setEntry e v).nextFetch = s.nextFetch := rfl
@[simp] theorem State.setEntry_nextStart (s : State) (e : Nat) (v : DWord) : (s.setEntry e v).nextStart = s.nextStart := rfl
@[simp] theorem State.setEntry_fresh (s : State) (e : Nat) (v : DWord) : (s.setEntry e v).fresh = s.fresh := rfl
@[simp] theorem State.setEntry_out (s : State) (e : Nat) (v : DWord) : (s.setEntry e v).out = s.out := rfl
@[simp] theorem State.setEntry_pending (s : State) (e : Nat) (v : DWord) : (s.setEntry e v).pending = s.pending := rfl
@[simp] theorem State.setEntry_ctx (s : State) (e : Nat) (v : DWord) (k : Nat) : (s.setEntry e v).ctx k = s.ctx k := rfl
@[simp] theorem State.setEntry_tile (s : State) (e : Nat) (v : DWord) (k : Nat) : (s.setEntry e v).tile k = s.tile k := rfl
@[simp] theorem State.setEntry_port (s : State) (e : Nat) (v : DWord) (k : Nat) : (s.setEntry e v).port k = s.port k := rfl
@[simp] theorem State.setEntry_bay (s : State) (e : Nat) (v : DWord) (k : Nat) : (s.setEntry e v).bay k = s.bay k := rfl
@[simp] theorem State.setEntry_objOf (s : State) (e : Nat) (v : DWord) (k : Nat) : (s.setEntry e v).obj? k = s.obj? k := rfl
@[simp] theorem State.setEntry_seqEntry (s : State) (e : Nat) (v : DWord) (k : Nat) : (s.setEntry e v).seqEntry k = s.seqEntry k := rfl
@[simp] theorem State.setEntry_touchNow (s : State) (e : Nat) (v : DWord) : (s.setEntry e v).touchNow = s.touchNow := rfl

@[simp] theorem State.modDesc_time (s : State) (c q p : Nat) (f : Desc → Desc) : (s.modDesc c q p f).time = s.time := rfl
@[simp] theorem State.modDesc_chip (s : State) (c q p : Nat) (f : Desc → Desc) : (s.modDesc c q p f).chip = s.chip := rfl
@[simp] theorem State.modDesc_flash (s : State) (c q p : Nat) (f : Desc → Desc) : (s.modDesc c q p f).flash = s.flash := rfl
@[simp] theorem State.modDesc_inputs (s : State) (c q p : Nat) (f : Desc → Desc) : (s.modDesc c q p f).inputs = s.inputs := rfl
@[simp] theorem State.modDesc_mgmt (s : State) (c q p : Nat) (f : Desc → Desc) : (s.modDesc c q p f).mgmt = s.mgmt := rfl
@[simp] theorem State.modDesc_power (s : State) (c q p : Nat) (f : Desc → Desc) : (s.modDesc c q p f).power = s.power := rfl
@[simp] theorem State.modDesc_hostA (s : State) (c q p : Nat) (f : Desc → Desc) : (s.modDesc c q p f).hostA = s.hostA := rfl
@[simp] theorem State.modDesc_hostB (s : State) (c q p : Nat) (f : Desc → Desc) : (s.modDesc c q p f).hostB = s.hostB := rfl
@[simp] theorem State.modDesc_pll (s : State) (c q p : Nat) (f : Desc → Desc) : (s.modDesc c q p f).pll = s.pll := rfl
@[simp] theorem State.modDesc_regs (s : State) (c q p : Nat) (f : Desc → Desc) : (s.modDesc c q p f).regs = s.regs := rfl
@[simp] theorem State.modDesc_latches (s : State) (c q p : Nat) (f : Desc → Desc) : (s.modDesc c q p f).latches = s.latches := rfl
@[simp] theorem State.modDesc_tiles (s : State) (c q p : Nat) (f : Desc → Desc) : (s.modDesc c q p f).tiles = s.tiles := rfl
@[simp] theorem State.modDesc_mem (s : State) (c q p : Nat) (f : Desc → Desc) : (s.modDesc c q p f).mem = s.mem := rfl
@[simp] theorem State.modDesc_ledger (s : State) (c q p : Nat) (f : Desc → Desc) : (s.modDesc c q p f).ledger = s.ledger := rfl
@[simp] theorem State.modDesc_fabric (s : State) (c q p : Nat) (f : Desc → Desc) : (s.modDesc c q p f).fabric = s.fabric := rfl
@[simp] theorem State.modDesc_host (s : State) (c q p : Nat) (f : Desc → Desc) : (s.modDesc c q p f).host = s.host := rfl
@[simp] theorem State.modDesc_pmcMod (s : State) (c q p : Nat) (f : Desc → Desc) : (s.modDesc c q p f).pmcMod = s.pmcMod := rfl
@[simp] theorem State.modDesc_pmcModOvf (s : State) (c q p : Nat) (f : Desc → Desc) : (s.modDesc c q p f).pmcModOvf = s.pmcModOvf := rfl
@[simp] theorem State.modDesc_pmcTime (s : State) (c q p : Nat) (f : Desc → Desc) : (s.modDesc c q p f).pmcTime = s.pmcTime := rfl
@[simp] theorem State.modDesc_nextFetch (s : State) (c q p : Nat) (f : Desc → Desc) : (s.modDesc c q p f).nextFetch = s.nextFetch := rfl
@[simp] theorem State.modDesc_nextStart (s : State) (c q p : Nat) (f : Desc → Desc) : (s.modDesc c q p f).nextStart = s.nextStart := rfl
@[simp] theorem State.modDesc_fresh (s : State) (c q p : Nat) (f : Desc → Desc) : (s.modDesc c q p f).fresh = s.fresh := rfl
@[simp] theorem State.modDesc_out (s : State) (c q p : Nat) (f : Desc → Desc) : (s.modDesc c q p f).out = s.out := rfl
@[simp] theorem State.modDesc_pending (s : State) (c q p : Nat) (f : Desc → Desc) : (s.modDesc c q p f).pending = s.pending := rfl
@[simp] theorem State.modDesc_tile (s : State) (c q p : Nat) (f : Desc → Desc) (k : Nat) : (s.modDesc c q p f).tile k = s.tile k := rfl
@[simp] theorem State.modDesc_port (s : State) (c q p : Nat) (f : Desc → Desc) (k : Nat) : (s.modDesc c q p f).port k = s.port k := rfl
@[simp] theorem State.modDesc_bay (s : State) (c q p : Nat) (f : Desc → Desc) (k : Nat) : (s.modDesc c q p f).bay k = s.bay k := rfl
@[simp] theorem State.modDesc_objOf (s : State) (c q p : Nat) (f : Desc → Desc) (k : Nat) : (s.modDesc c q p f).obj? k = s.obj? k := rfl
@[simp] theorem State.modDesc_seqEntry (s : State) (c q p : Nat) (f : Desc → Desc) (k : Nat) : (s.modDesc c q p f).seqEntry k = s.seqEntry k := rfl
@[simp] theorem State.modDesc_entry (s : State) (c q p : Nat) (f : Desc → Desc) (k : Nat) : (s.modDesc c q p f).entry k = s.entry k := rfl
@[simp] theorem State.modDesc_touchNow (s : State) (c q p : Nat) (f : Desc → Desc) : (s.modDesc c q p f).touchNow = s.touchNow := rfl

@[simp] theorem State.setWork_time (s : State) (c : Nat) (d : Desc) (w : Work) : (s.setWork c d w).time = s.time := rfl
@[simp] theorem State.setWork_chip (s : State) (c : Nat) (d : Desc) (w : Work) : (s.setWork c d w).chip = s.chip := rfl
@[simp] theorem State.setWork_flash (s : State) (c : Nat) (d : Desc) (w : Work) : (s.setWork c d w).flash = s.flash := rfl
@[simp] theorem State.setWork_inputs (s : State) (c : Nat) (d : Desc) (w : Work) : (s.setWork c d w).inputs = s.inputs := rfl
@[simp] theorem State.setWork_mgmt (s : State) (c : Nat) (d : Desc) (w : Work) : (s.setWork c d w).mgmt = s.mgmt := rfl
@[simp] theorem State.setWork_power (s : State) (c : Nat) (d : Desc) (w : Work) : (s.setWork c d w).power = s.power := rfl
@[simp] theorem State.setWork_hostA (s : State) (c : Nat) (d : Desc) (w : Work) : (s.setWork c d w).hostA = s.hostA := rfl
@[simp] theorem State.setWork_hostB (s : State) (c : Nat) (d : Desc) (w : Work) : (s.setWork c d w).hostB = s.hostB := rfl
@[simp] theorem State.setWork_pll (s : State) (c : Nat) (d : Desc) (w : Work) : (s.setWork c d w).pll = s.pll := rfl
@[simp] theorem State.setWork_regs (s : State) (c : Nat) (d : Desc) (w : Work) : (s.setWork c d w).regs = s.regs := rfl
@[simp] theorem State.setWork_latches (s : State) (c : Nat) (d : Desc) (w : Work) : (s.setWork c d w).latches = s.latches := rfl
@[simp] theorem State.setWork_tiles (s : State) (c : Nat) (d : Desc) (w : Work) : (s.setWork c d w).tiles = s.tiles := rfl
@[simp] theorem State.setWork_mem (s : State) (c : Nat) (d : Desc) (w : Work) : (s.setWork c d w).mem = s.mem := rfl
@[simp] theorem State.setWork_ledger (s : State) (c : Nat) (d : Desc) (w : Work) : (s.setWork c d w).ledger = s.ledger := rfl
@[simp] theorem State.setWork_fabric (s : State) (c : Nat) (d : Desc) (w : Work) : (s.setWork c d w).fabric = s.fabric := rfl
@[simp] theorem State.setWork_host (s : State) (c : Nat) (d : Desc) (w : Work) : (s.setWork c d w).host = s.host := rfl
@[simp] theorem State.setWork_pmcMod (s : State) (c : Nat) (d : Desc) (w : Work) : (s.setWork c d w).pmcMod = s.pmcMod := rfl
@[simp] theorem State.setWork_pmcModOvf (s : State) (c : Nat) (d : Desc) (w : Work) : (s.setWork c d w).pmcModOvf = s.pmcModOvf := rfl
@[simp] theorem State.setWork_pmcTime (s : State) (c : Nat) (d : Desc) (w : Work) : (s.setWork c d w).pmcTime = s.pmcTime := rfl
@[simp] theorem State.setWork_nextFetch (s : State) (c : Nat) (d : Desc) (w : Work) : (s.setWork c d w).nextFetch = s.nextFetch := rfl
@[simp] theorem State.setWork_nextStart (s : State) (c : Nat) (d : Desc) (w : Work) : (s.setWork c d w).nextStart = s.nextStart := rfl
@[simp] theorem State.setWork_fresh (s : State) (c : Nat) (d : Desc) (w : Work) : (s.setWork c d w).fresh = s.fresh := rfl
@[simp] theorem State.setWork_out (s : State) (c : Nat) (d : Desc) (w : Work) : (s.setWork c d w).out = s.out := rfl
@[simp] theorem State.setWork_pending (s : State) (c : Nat) (d : Desc) (w : Work) : (s.setWork c d w).pending = s.pending := rfl
@[simp] theorem State.setWork_tile (s : State) (c : Nat) (d : Desc) (w : Work) (k : Nat) : (s.setWork c d w).tile k = s.tile k := rfl
@[simp] theorem State.setWork_port (s : State) (c : Nat) (d : Desc) (w : Work) (k : Nat) : (s.setWork c d w).port k = s.port k := rfl
@[simp] theorem State.setWork_bay (s : State) (c : Nat) (d : Desc) (w : Work) (k : Nat) : (s.setWork c d w).bay k = s.bay k := rfl
@[simp] theorem State.setWork_objOf (s : State) (c : Nat) (d : Desc) (w : Work) (k : Nat) : (s.setWork c d w).obj? k = s.obj? k := rfl
@[simp] theorem State.setWork_seqEntry (s : State) (c : Nat) (d : Desc) (w : Work) (k : Nat) : (s.setWork c d w).seqEntry k = s.seqEntry k := rfl
@[simp] theorem State.setWork_entry (s : State) (c : Nat) (d : Desc) (w : Work) (k : Nat) : (s.setWork c d w).entry k = s.entry k := rfl
@[simp] theorem State.setWork_touchNow (s : State) (c : Nat) (d : Desc) (w : Work) : (s.setWork c d w).touchNow = s.touchNow := rfl

@[simp] theorem State.endDesc_time (s : State) (c q p : Nat) (e : Ending) : (s.endDesc c q p e).time = s.time := rfl
@[simp] theorem State.endDesc_chip (s : State) (c q p : Nat) (e : Ending) : (s.endDesc c q p e).chip = s.chip := rfl
@[simp] theorem State.endDesc_flash (s : State) (c q p : Nat) (e : Ending) : (s.endDesc c q p e).flash = s.flash := rfl
@[simp] theorem State.endDesc_inputs (s : State) (c q p : Nat) (e : Ending) : (s.endDesc c q p e).inputs = s.inputs := rfl
@[simp] theorem State.endDesc_mgmt (s : State) (c q p : Nat) (e : Ending) : (s.endDesc c q p e).mgmt = s.mgmt := rfl
@[simp] theorem State.endDesc_power (s : State) (c q p : Nat) (e : Ending) : (s.endDesc c q p e).power = s.power := rfl
@[simp] theorem State.endDesc_hostA (s : State) (c q p : Nat) (e : Ending) : (s.endDesc c q p e).hostA = s.hostA := rfl
@[simp] theorem State.endDesc_hostB (s : State) (c q p : Nat) (e : Ending) : (s.endDesc c q p e).hostB = s.hostB := rfl
@[simp] theorem State.endDesc_pll (s : State) (c q p : Nat) (e : Ending) : (s.endDesc c q p e).pll = s.pll := rfl
@[simp] theorem State.endDesc_regs (s : State) (c q p : Nat) (e : Ending) : (s.endDesc c q p e).regs = s.regs := rfl
@[simp] theorem State.endDesc_latches (s : State) (c q p : Nat) (e : Ending) : (s.endDesc c q p e).latches = s.latches := rfl
@[simp] theorem State.endDesc_tiles (s : State) (c q p : Nat) (e : Ending) : (s.endDesc c q p e).tiles = s.tiles := rfl
@[simp] theorem State.endDesc_mem (s : State) (c q p : Nat) (e : Ending) : (s.endDesc c q p e).mem = s.mem := rfl
@[simp] theorem State.endDesc_ledger (s : State) (c q p : Nat) (e : Ending) : (s.endDesc c q p e).ledger = s.ledger := rfl
@[simp] theorem State.endDesc_fabric (s : State) (c q p : Nat) (e : Ending) : (s.endDesc c q p e).fabric = s.fabric := rfl
@[simp] theorem State.endDesc_host (s : State) (c q p : Nat) (e : Ending) : (s.endDesc c q p e).host = s.host := rfl
@[simp] theorem State.endDesc_pmcMod (s : State) (c q p : Nat) (e : Ending) : (s.endDesc c q p e).pmcMod = s.pmcMod := rfl
@[simp] theorem State.endDesc_pmcModOvf (s : State) (c q p : Nat) (e : Ending) : (s.endDesc c q p e).pmcModOvf = s.pmcModOvf := rfl
@[simp] theorem State.endDesc_pmcTime (s : State) (c q p : Nat) (e : Ending) : (s.endDesc c q p e).pmcTime = s.pmcTime := rfl
@[simp] theorem State.endDesc_nextFetch (s : State) (c q p : Nat) (e : Ending) : (s.endDesc c q p e).nextFetch = s.nextFetch := rfl
@[simp] theorem State.endDesc_nextStart (s : State) (c q p : Nat) (e : Ending) : (s.endDesc c q p e).nextStart = s.nextStart := rfl
@[simp] theorem State.endDesc_fresh (s : State) (c q p : Nat) (e : Ending) : (s.endDesc c q p e).fresh = s.fresh := rfl
@[simp] theorem State.endDesc_out (s : State) (c q p : Nat) (e : Ending) : (s.endDesc c q p e).out = s.out := rfl
@[simp] theorem State.endDesc_pending (s : State) (c q p : Nat) (e : Ending) : (s.endDesc c q p e).pending = s.pending := rfl
@[simp] theorem State.endDesc_tile (s : State) (c q p : Nat) (e : Ending) (k : Nat) : (s.endDesc c q p e).tile k = s.tile k := rfl
@[simp] theorem State.endDesc_port (s : State) (c q p : Nat) (e : Ending) (k : Nat) : (s.endDesc c q p e).port k = s.port k := rfl
@[simp] theorem State.endDesc_bay (s : State) (c q p : Nat) (e : Ending) (k : Nat) : (s.endDesc c q p e).bay k = s.bay k := rfl
@[simp] theorem State.endDesc_objOf (s : State) (c q p : Nat) (e : Ending) (k : Nat) : (s.endDesc c q p e).obj? k = s.obj? k := rfl
@[simp] theorem State.endDesc_seqEntry (s : State) (c q p : Nat) (e : Ending) (k : Nat) : (s.endDesc c q p e).seqEntry k = s.seqEntry k := rfl
@[simp] theorem State.endDesc_entry (s : State) (c q p : Nat) (e : Ending) (k : Nat) : (s.endDesc c q p e).entry k = s.entry k := rfl
@[simp] theorem State.endDesc_touchNow (s : State) (c q p : Nat) (e : Ending) : (s.endDesc c q p e).touchNow = s.touchNow := rfl

@[simp] theorem State.endHeld_time (s : State) (c q p : Nat) (e : Ending) : (s.endHeld c q p e).time = s.time := rfl
@[simp] theorem State.endHeld_chip (s : State) (c q p : Nat) (e : Ending) : (s.endHeld c q p e).chip = s.chip := rfl
@[simp] theorem State.endHeld_flash (s : State) (c q p : Nat) (e : Ending) : (s.endHeld c q p e).flash = s.flash := rfl
@[simp] theorem State.endHeld_inputs (s : State) (c q p : Nat) (e : Ending) : (s.endHeld c q p e).inputs = s.inputs := rfl
@[simp] theorem State.endHeld_mgmt (s : State) (c q p : Nat) (e : Ending) : (s.endHeld c q p e).mgmt = s.mgmt := rfl
@[simp] theorem State.endHeld_power (s : State) (c q p : Nat) (e : Ending) : (s.endHeld c q p e).power = s.power := rfl
@[simp] theorem State.endHeld_hostA (s : State) (c q p : Nat) (e : Ending) : (s.endHeld c q p e).hostA = s.hostA := rfl
@[simp] theorem State.endHeld_hostB (s : State) (c q p : Nat) (e : Ending) : (s.endHeld c q p e).hostB = s.hostB := rfl
@[simp] theorem State.endHeld_pll (s : State) (c q p : Nat) (e : Ending) : (s.endHeld c q p e).pll = s.pll := rfl
@[simp] theorem State.endHeld_regs (s : State) (c q p : Nat) (e : Ending) : (s.endHeld c q p e).regs = s.regs := rfl
@[simp] theorem State.endHeld_latches (s : State) (c q p : Nat) (e : Ending) : (s.endHeld c q p e).latches = s.latches := rfl
@[simp] theorem State.endHeld_tiles (s : State) (c q p : Nat) (e : Ending) : (s.endHeld c q p e).tiles = s.tiles := rfl
@[simp] theorem State.endHeld_mem (s : State) (c q p : Nat) (e : Ending) : (s.endHeld c q p e).mem = s.mem := rfl
@[simp] theorem State.endHeld_ledger (s : State) (c q p : Nat) (e : Ending) : (s.endHeld c q p e).ledger = s.ledger := rfl
@[simp] theorem State.endHeld_fabric (s : State) (c q p : Nat) (e : Ending) : (s.endHeld c q p e).fabric = s.fabric := rfl
@[simp] theorem State.endHeld_host (s : State) (c q p : Nat) (e : Ending) : (s.endHeld c q p e).host = s.host := rfl
@[simp] theorem State.endHeld_pmcMod (s : State) (c q p : Nat) (e : Ending) : (s.endHeld c q p e).pmcMod = s.pmcMod := rfl
@[simp] theorem State.endHeld_pmcModOvf (s : State) (c q p : Nat) (e : Ending) : (s.endHeld c q p e).pmcModOvf = s.pmcModOvf := rfl
@[simp] theorem State.endHeld_pmcTime (s : State) (c q p : Nat) (e : Ending) : (s.endHeld c q p e).pmcTime = s.pmcTime := rfl
@[simp] theorem State.endHeld_nextFetch (s : State) (c q p : Nat) (e : Ending) : (s.endHeld c q p e).nextFetch = s.nextFetch := rfl
@[simp] theorem State.endHeld_nextStart (s : State) (c q p : Nat) (e : Ending) : (s.endHeld c q p e).nextStart = s.nextStart := rfl
@[simp] theorem State.endHeld_fresh (s : State) (c q p : Nat) (e : Ending) : (s.endHeld c q p e).fresh = s.fresh := rfl
@[simp] theorem State.endHeld_out (s : State) (c q p : Nat) (e : Ending) : (s.endHeld c q p e).out = s.out := rfl
@[simp] theorem State.endHeld_pending (s : State) (c q p : Nat) (e : Ending) : (s.endHeld c q p e).pending = s.pending := rfl
@[simp] theorem State.endHeld_tile (s : State) (c q p : Nat) (e : Ending) (k : Nat) : (s.endHeld c q p e).tile k = s.tile k := rfl
@[simp] theorem State.endHeld_port (s : State) (c q p : Nat) (e : Ending) (k : Nat) : (s.endHeld c q p e).port k = s.port k := rfl
@[simp] theorem State.endHeld_bay (s : State) (c q p : Nat) (e : Ending) (k : Nat) : (s.endHeld c q p e).bay k = s.bay k := rfl
@[simp] theorem State.endHeld_objOf (s : State) (c q p : Nat) (e : Ending) (k : Nat) : (s.endHeld c q p e).obj? k = s.obj? k := rfl
@[simp] theorem State.endHeld_seqEntry (s : State) (c q p : Nat) (e : Ending) (k : Nat) : (s.endHeld c q p e).seqEntry k = s.seqEntry k := rfl
@[simp] theorem State.endHeld_entry (s : State) (c q p : Nat) (e : Ending) (k : Nat) : (s.endHeld c q p e).entry k = s.entry k := rfl
@[simp] theorem State.endHeld_touchNow (s : State) (c q p : Nat) (e : Ending) : (s.endHeld c q p e).touchNow = s.touchNow := rfl

@[simp] theorem State.beginDesc_time (s : State) (c : Nat) (d : Desc) : (s.beginDesc c d).time = s.time := rfl
@[simp] theorem State.beginDesc_chip (s : State) (c : Nat) (d : Desc) : (s.beginDesc c d).chip = s.chip := rfl
@[simp] theorem State.beginDesc_flash (s : State) (c : Nat) (d : Desc) : (s.beginDesc c d).flash = s.flash := rfl
@[simp] theorem State.beginDesc_inputs (s : State) (c : Nat) (d : Desc) : (s.beginDesc c d).inputs = s.inputs := rfl
@[simp] theorem State.beginDesc_mgmt (s : State) (c : Nat) (d : Desc) : (s.beginDesc c d).mgmt = s.mgmt := rfl
@[simp] theorem State.beginDesc_power (s : State) (c : Nat) (d : Desc) : (s.beginDesc c d).power = s.power := rfl
@[simp] theorem State.beginDesc_hostA (s : State) (c : Nat) (d : Desc) : (s.beginDesc c d).hostA = s.hostA := rfl
@[simp] theorem State.beginDesc_hostB (s : State) (c : Nat) (d : Desc) : (s.beginDesc c d).hostB = s.hostB := rfl
@[simp] theorem State.beginDesc_pll (s : State) (c : Nat) (d : Desc) : (s.beginDesc c d).pll = s.pll := rfl
@[simp] theorem State.beginDesc_regs (s : State) (c : Nat) (d : Desc) : (s.beginDesc c d).regs = s.regs := rfl
@[simp] theorem State.beginDesc_latches (s : State) (c : Nat) (d : Desc) : (s.beginDesc c d).latches = s.latches := rfl
@[simp] theorem State.beginDesc_tiles (s : State) (c : Nat) (d : Desc) : (s.beginDesc c d).tiles = s.tiles := rfl
@[simp] theorem State.beginDesc_mem (s : State) (c : Nat) (d : Desc) : (s.beginDesc c d).mem = s.mem := rfl
@[simp] theorem State.beginDesc_ledger (s : State) (c : Nat) (d : Desc) : (s.beginDesc c d).ledger = s.ledger := rfl
@[simp] theorem State.beginDesc_fabric (s : State) (c : Nat) (d : Desc) : (s.beginDesc c d).fabric = s.fabric := rfl
@[simp] theorem State.beginDesc_host (s : State) (c : Nat) (d : Desc) : (s.beginDesc c d).host = s.host := rfl
@[simp] theorem State.beginDesc_pmcMod (s : State) (c : Nat) (d : Desc) : (s.beginDesc c d).pmcMod = s.pmcMod := rfl
@[simp] theorem State.beginDesc_pmcModOvf (s : State) (c : Nat) (d : Desc) : (s.beginDesc c d).pmcModOvf = s.pmcModOvf := rfl
@[simp] theorem State.beginDesc_pmcTime (s : State) (c : Nat) (d : Desc) : (s.beginDesc c d).pmcTime = s.pmcTime := rfl
@[simp] theorem State.beginDesc_nextFetch (s : State) (c : Nat) (d : Desc) : (s.beginDesc c d).nextFetch = s.nextFetch := rfl
@[simp] theorem State.beginDesc_fresh (s : State) (c : Nat) (d : Desc) : (s.beginDesc c d).fresh = s.fresh := rfl
@[simp] theorem State.beginDesc_out (s : State) (c : Nat) (d : Desc) : (s.beginDesc c d).out = s.out := rfl
@[simp] theorem State.beginDesc_pending (s : State) (c : Nat) (d : Desc) : (s.beginDesc c d).pending = s.pending := rfl
@[simp] theorem State.beginDesc_tile (s : State) (c : Nat) (d : Desc) (k : Nat) : (s.beginDesc c d).tile k = s.tile k := rfl
@[simp] theorem State.beginDesc_port (s : State) (c : Nat) (d : Desc) (k : Nat) : (s.beginDesc c d).port k = s.port k := rfl
@[simp] theorem State.beginDesc_bay (s : State) (c : Nat) (d : Desc) (k : Nat) : (s.beginDesc c d).bay k = s.bay k := rfl
@[simp] theorem State.beginDesc_objOf (s : State) (c : Nat) (d : Desc) (k : Nat) : (s.beginDesc c d).obj? k = s.obj? k := rfl
@[simp] theorem State.beginDesc_seqEntry (s : State) (c : Nat) (d : Desc) (k : Nat) : (s.beginDesc c d).seqEntry k = s.seqEntry k := rfl
@[simp] theorem State.beginDesc_entry (s : State) (c : Nat) (d : Desc) (k : Nat) : (s.beginDesc c d).entry k = s.entry k := rfl
@[simp] theorem State.beginDesc_touchNow (s : State) (c : Nat) (d : Desc) : (s.beginDesc c d).touchNow = s.touchNow := rfl

@[simp] theorem State.setCtx_ctx_self (s : State) (i : Nat) (x : Ctx) : (s.setCtx i x).ctx i = x := Tab.get_set_self _ _ _ _
theorem State.setCtx_ctx_ne (s : State) {i j : Nat} (x : Ctx) (h : j ≠ i) : (s.setCtx i x).ctx j = s.ctx j := Tab.get_set_ne _ _ _ h
@[simp] theorem State.modCtx_ctx_self (s : State) (i : Nat) (f : Ctx → Ctx) : (s.modCtx i f).ctx i = f (s.ctx i) := Tab.get_set_self _ _ _ _
theorem State.modCtx_ctx_ne (s : State) {i j : Nat} (f : Ctx → Ctx) (h : j ≠ i) : (s.modCtx i f).ctx j = s.ctx j := Tab.get_set_ne _ _ _ h
@[simp] theorem State.setTile_tile_self (s : State) (i : Nat) (x : Tile) : (s.setTile i x).tile i = x := Tab.get_set_self _ _ _ _
theorem State.setTile_tile_ne (s : State) {i j : Nat} (x : Tile) (h : j ≠ i) : (s.setTile i x).tile j = s.tile j := Tab.get_set_ne _ _ _ h
@[simp] theorem State.modTile_tile_self (s : State) (i : Nat) (f : Tile → Tile) : (s.modTile i f).tile i = f (s.tile i) := Tab.get_set_self _ _ _ _
theorem State.modTile_tile_ne (s : State) {i j : Nat} (f : Tile → Tile) (h : j ≠ i) : (s.modTile i f).tile j = s.tile j := Tab.get_set_ne _ _ _ h
@[simp] theorem State.setPort_port_self (s : State) (i : Nat) (x : Port) : (s.setPort i x).port i = x := Tab.get_set_self _ _ _ _
theorem State.setPort_port_ne (s : State) {i j : Nat} (x : Port) (h : j ≠ i) : (s.setPort i x).port j = s.port j := Tab.get_set_ne _ _ _ h
@[simp] theorem State.modPort_port_self (s : State) (i : Nat) (f : Port → Port) : (s.modPort i f).port i = f (s.port i) := Tab.get_set_self _ _ _ _
theorem State.modPort_port_ne (s : State) {i j : Nat} (f : Port → Port) (h : j ≠ i) : (s.modPort i f).port j = s.port j := Tab.get_set_ne _ _ _ h
@[simp] theorem State.setBay_bay_self (s : State) (i : Nat) (x : Bay) : (s.setBay i x).bay i = x := Tab.get_set_self _ _ _ _
theorem State.setBay_bay_ne (s : State) {i j : Nat} (x : Bay) (h : j ≠ i) : (s.setBay i x).bay j = s.bay j := Tab.get_set_ne _ _ _ h
@[simp] theorem State.setObj_objOf_self (s : State) (i : Nat) (x : Obj) : (s.setObj i x).obj? i = some x := Tab.find?_set_self _ _ _
theorem State.setObj_objOf_ne (s : State) {i j : Nat} (x : Obj) (h : j ≠ i) : (s.setObj i x).obj? j = s.obj? j := Tab.find?_set_ne _ _ h
@[simp] theorem State.setSeq_seqEntry_self (s : State) (q : Nat) (e : SeqEntry) : (s.setSeq q e).seqEntry q = e := Tab.get_set_self _ _ _ _
theorem State.setSeq_seqEntry_ne (s : State) {q j : Nat} (e : SeqEntry) (h : j ≠ q) : (s.setSeq q e).seqEntry j = s.seqEntry j := Tab.get_set_ne _ _ _ h

/-- A register reads as the value last set, as far as it fits 64 bits. -/
theorem State.reg_setReg_self (s : State) (a v : Nat) : (s.setReg a v).reg a = v % 2 ^ 64 := by
  simp [State.reg, State.setReg, Tab.find?_set_self, dword]
/-- Setting a register leaves every other register. -/
theorem State.reg_setReg_ne (s : State) {a b : Nat} (v : Nat) (h : b ≠ a) : (s.setReg a v).reg b = s.reg b := by
  simp [State.reg, State.setReg, Tab.find?_set_ne _ _ h]
/-- A register depends on the stored registers and the strap alone. -/
theorem State.reg_congr {s t : State} (hr : t.regs = s.regs) (hc : t.chip = s.chip) (a : Nat) : t.reg a = s.reg a := by
  simp [State.reg, hr, hc]

end Sys2Proof.Machine
end

