-- ==== Sys2Proof/Laws/Access.lean ====
section
/-!
SUPPORT. What a write of device or host memory can do. Every one keeps both memories canonical, also where it ends the migration of a
block that the write meets. While no block is moving it changes the bytes, poison and zero marks of device memory and the bytes of host
memory, and nothing else.
-/
namespace Sys2Proof.Machine

/-- u's memories are canonical if those of s are. -/
structure State.KeepsForm (s u : State) : Prop where
  mem : s.mem.data.wf = true → u.mem.data.wf = true
  host : s.host.data.wf = true → u.host.data.wf = true

theorem State.KeepsForm.refl (s : State) : s.KeepsForm s := ⟨id, id⟩

theorem State.KeepsForm.trans {s u v : State} (h : s.KeepsForm u) (k : u.KeepsForm v) : s.KeepsForm v :=
  ⟨fun x => k.mem (h.mem x), fun x => k.host (h.host x)⟩

/-- States with the bytes of s have its form. -/
theorem State.KeepsForm.of_eq {s u : State} (hm : u.mem.data = s.mem.data) (hh : u.host.data = s.host.data) : s.KeepsForm u :=
  ⟨fun x => hm ▸ x, fun x => hh ▸ x⟩

/-- What keeps the form of a state with the bytes of s keeps that of s. -/
theorem State.KeepsForm.after {s u v : State} (k : u.KeepsForm v) (hm : u.mem.data = s.mem.data) (hh : u.host.data = s.host.data) : s.KeepsForm v :=
  (State.KeepsForm.of_eq hm hh).trans k

theorem State.KeepsForm.foldl {f : State → α → State} (hf : ∀ (s : State) (a : α), s.KeepsForm (f s a)) (l : List α) (s : State) : s.KeepsForm (l.foldl f s) := by
  induction l generalizing s with
  | nil => exact .refl s
  | cons a l ih => exact (hf s a).trans (ih _)

theorem State.fillZeros_keepsForm (s : State) (a : Nat) : s.KeepsForm (s.fillZeros a) := by
  unfold State.fillZeros
  split
  · dsimp only
    split
    · split
      · exact .of_eq rfl rfl
      · exact ⟨id, fun h => Mem.clear_wf h _ _⟩
    · exact .of_eq rfl rfl
  · exact .refl s

/-- A write inside one block. -/
theorem State.putBlock_keepsForm (s : State) (a : Nat) (bs : List Byte) : s.KeepsForm (s.putBlock a bs) := by
  unfold State.putBlock
  split
  · exact .refl s
  refine (State.fillZeros_keepsForm s a).trans ?_
  dsimp only
  split
  · exact ⟨id, fun h => Mem.writeN_wf h _ _⟩
  · exact ⟨fun h => Mem.writeN_wf h _ _, id⟩

theorem State.freeFrame_keepsForm (s : State) (f : Nat) : s.KeepsForm (s.freeFrame f) := by
  unfold State.freeFrame
  split <;> exact .of_eq rfl rfl

theorem State.cancelMig_keepsForm (s : State) (m : Mig) : s.KeepsForm (s.cancelMig m) := by
  unfold State.cancelMig
  dsimp only
  refine .trans ?_ (.foldl (fun s (w : Nat × List Byte) => State.putBlock_keepsForm s w.1 w.2) _ _)
  exact (State.freeFrame_keepsForm _ _).after rfl rfl

theorem State.haltMoves_keepsForm (s : State) (id : Nat) (o : Obj) : s.KeepsForm (s.haltMoves id o) := by
  unfold State.haltMoves
  exact (State.KeepsForm.foldl State.cancelMig_keepsForm _ _).after rfl rfl

theorem State.raiseVec_keepsForm (s : State) (c v : Nat) : s.KeepsForm (s.raiseVec c v) := by
  unfold State.raiseVec
  dsimp only
  split <;> exact .of_eq rfl rfl

theorem State.logEv_keepsForm (s : State) (k : Nat) (l : List Nat) : s.KeepsForm (s.logEv k l) := .of_eq rfl rfl

theorem State.quarantine_keepsForm (s : State) (id : Nat) (ls : List Nat) : s.KeepsForm (s.quarantine id ls) := by
  unfold State.quarantine
  split
  · exact .refl s
  · dsimp only
    refine .trans ?_ (State.raiseVec_keepsForm _ _ _)
    refine .trans ?_ (State.logEv_keepsForm _ _ _)
    exact .trans (u := s.setObj id _) (.of_eq rfl rfl) (State.haltMoves_keepsForm _ _ _)

theorem State.carryBlock_keepsForm (s : State) (o : Obj) (b new : Nat) : s.KeepsForm (s.carryBlock o b new) := by
  unfold State.carryBlock
  dsimp only
  split
  · exact ⟨fun h => Mem.put_wf (Mem.clear_wf h _ _) _ _, id⟩
  · split
    · exact ⟨fun h => Mem.clear_wf h _ _, id⟩
    · exact ⟨fun h => Mem.clear_wf h _ _, fun h => Mem.put_wf (Mem.clear_wf h _ _) _ _⟩

/-- The end of a block's copy. -/
theorem State.switchBlock_keepsForm (s : State) (m : Mig) : s.KeepsForm (s.switchBlock m) := by
  unfold State.switchBlock
  split
  · exact .refl s
  · split
    · exact (State.quarantine_keepsForm _ _ _).after rfl rfl
    · dsimp only
      refine .trans ?_ (.foldl (fun s (w : Nat × List Byte) => State.putBlock_keepsForm s w.1 w.2) _ _)
      exact (State.carryBlock_keepsForm s _ _ _).trans ((State.freeFrame_keepsForm _ _).after rfl rfl)

theorem State.devWriteBlock_keepsForm (s : State) (a : Nat) (bs : List Byte) : s.KeepsForm (s.devWriteBlock a bs) := by
  unfold State.devWriteBlock
  split
  · exact State.putBlock_keepsForm s a bs
  · split
    · exact (State.switchBlock_keepsForm s _).trans (State.putBlock_keepsForm _ a bs)
    · exact .of_eq rfl rfl

/-- A write of the unified range. -/
theorem State.devWrite_keepsForm (s : State) (a : Nat) (bs : List Byte) : s.KeepsForm (s.devWrite a bs) := by
  unfold State.devWrite
  generalize bs.length / blockBytes + 2 = n
  induction n generalizing s a bs with
  | zero => exact .refl s
  | succ n ih =>
    unfold State.devWriteAux
    split
    · exact .refl s
    · exact (State.devWriteBlock_keepsForm s _ _).trans (ih _ _ _)

/-- u differs from s at most in the bytes, poison and zero marks of device memory and in the bytes of host memory. -/
structure State.WritesOnly (s u : State) : Prop where
  same : u = { s with mem := u.mem, host := u.host }
  mem : u.mem = { s.mem with data := u.mem.data, poison := u.mem.poison, zeroed := u.mem.zeroed }
  host : u.host = { s.host with data := u.host.data }
  form : s.KeepsForm u

theorem State.WritesOnly.refl (s : State) : s.WritesOnly s := ⟨rfl, rfl, rfl, .refl s⟩

theorem State.WritesOnly.trans {s u v : State} (h : s.WritesOnly u) (k : u.WritesOnly v) : s.WritesOnly v := by
  refine ⟨?_, ?_, ?_, h.form.trans k.form⟩
  · rw [k.same, h.same]
  · rw [k.mem, h.mem]
  · rw [k.host, h.host]

theorem State.WritesOnly.migs {s u : State} (h : s.WritesOnly u) : u.mem.migs = s.mem.migs := by rw [h.mem]

theorem State.fillZeros_writesOnly (s : State) (a : Nat) : s.WritesOnly (s.fillZeros a) := by
  have k := State.fillZeros_keepsForm s a
  revert k
  unfold State.fillZeros
  split
  · dsimp only
    split
    · split <;> exact fun k => ⟨rfl, rfl, rfl, k⟩
    · exact fun k => ⟨rfl, rfl, rfl, k⟩
  · exact fun _ => .refl s

/-- A write inside one block. -/
theorem State.putBlock_writesOnly (s : State) (a : Nat) (bs : List Byte) : s.WritesOnly (s.putBlock a bs) := by
  unfold State.putBlock
  split
  · exact .refl s
  refine (State.fillZeros_writesOnly s a).trans ?_
  dsimp only
  split
  · exact ⟨rfl, rfl, rfl, id, fun h => Mem.writeN_wf h _ _⟩
  · exact ⟨rfl, rfl, rfl, fun h => Mem.writeN_wf h _ _, id⟩

/-- A write of the unified range while no block is moving. -/
theorem State.devWrite_writesOnly {s : State} (hm : s.mem.migs = []) (a : Nat) (bs : List Byte) : s.WritesOnly (s.devWrite a bs) := by
  unfold State.devWrite
  generalize bs.length / blockBytes + 2 = n
  induction n generalizing s a bs with
  | zero => exact .refl s
  | succ n ih =>
    unfold State.devWriteAux
    split
    · exact .refl s
    · have h : s.devWriteBlock a (bs.take (blockBytes - a % blockBytes)) = s.putBlock a (bs.take (blockBytes - a % blockBytes)) := by
        simp [State.devWriteBlock, State.migAt, hm]
      have k := State.putBlock_writesOnly s a (bs.take (blockBytes - a % blockBytes))
      dsimp only
      rw [h]
      exact k.trans (ih (k.migs.trans hm) _ _)

/-- A write of host memory. -/
theorem State.hostWrite_writesOnly (s : State) (f : Func) (a : Nat) (bs : List Byte) : s.WritesOnly (s.hostWrite f a bs).1 := by
  unfold State.hostWrite
  split <;> exact ⟨rfl, rfl, rfl, id, fun h => Mem.writeN_wf h _ _⟩

/-- A write at a target, whether it succeeds or fails, while no block is moving. -/
theorem State.writeTarget_writesOnly {s : State} (hm : s.mem.migs = []) (c : Nat) (t : Target) (bs : List Byte) : s.WritesOnly (s.writeTarget c t bs).1 := by
  have hh := State.hostWrite_writesOnly s (s.ctx c).func t.addr bs
  unfold State.writeTarget
  split
  · split
    · exact .refl s
    · exact State.devWrite_writesOnly hm _ _
  · split <;> (next h => rw [h] at hh; exact hh)
  · exact .refl s

/-- A write at a held reference. -/
theorem State.writeHeld_writesOnly {s : State} (hm : s.mem.migs = []) (c ref off : Nat) (bs : List Byte) : s.WritesOnly (s.writeHeld c ref off bs).1 := by
  unfold State.writeHeld
  dsimp only
  split
  · exact State.writeTarget_writesOnly hm _ _ _
  · exact .refl s

/-- A write at a reference to a table. -/
theorem State.writeRef_writesOnly {s : State} (hm : s.mem.migs = []) (c ref off : Nat) (bs : List Byte) : s.WritesOnly (s.writeRef c ref off bs) := by
  unfold State.writeRef
  dsimp only
  split
  · exact State.writeTarget_writesOnly hm _ _ _
  · exact .refl s

/-- A write inside one block of HBM with power: each byte reads as written, the others as before (R220, R229). -/
theorem State.read_putBlock {s : State} (h : s.mem.data.wf = true) {a : Nat} {bs : List Byte} (hp : s.unpowered a = false)
    (hz : s.zeroFilled (a / blockBytes) = false) (hb : s.backing a = none) (j : Nat) :
    (s.putBlock a bs).mem.data.read j = if a ≤ j ∧ j < a + bs.length then bs.getD (j - a) 0#8 else s.mem.data.read j := by
  simp only [State.putBlock, State.fillZeros, hp, hz, Bool.false_eq_true, if_false, hb]
  exact Mem.read_writeN h a bs j

end Sys2Proof.Machine
end

