-- ==== Sys2Proof/Laws/Descr.lean ====
section
/-!
SUPPORT. Descriptors: finding the one a command names, what changing and ending one does, and what the shared start of every descriptor
answers (R89, R92, R102).
-/
namespace Sys2Proof.Machine

theorem State.ring_of_desc? {s : State} {c q : Nat} {p : Word} {d : Desc} (h : s.desc? c q p = some d) : d.ring = q ∧ word d.pos = p := by
  have := List.find?_some h
  simpa using this

theorem State.mem_of_desc? {s : State} {c q : Nat} {p : Word} {d : Desc} (h : s.desc? c q p = some d) : d ∈ (s.ctx c).descs :=
  List.mem_of_find?_eq_some h

/-- The first descriptor with a narrower property is the first with the wider one, if it has the narrower one. -/
theorem List.find?_narrow {l : List α} {p r : α → Bool} {a : α} (h : l.find? p = some a) (ha : r a = true) (hr : ∀ x, r x = true → p x = true) :
    l.find? r = some a := by
  induction l with
  | nil => simp at h
  | cons x l ih =>
    rw [List.find?_cons] at h ⊢
    cases hp : p x with
    | true =>
      simp only [hp, Option.some.injEq] at h
      subst h
      simp [ha]
    | false =>
      simp only [hp] at h
      have : r x = false := by
        cases hx : r x with
        | true => simp [hr x hx] at hp
        | false => rfl
      simp [this, ih h]

/-- The descriptor that a command names is the one of its ring and full submit position. -/
theorem State.find_of_desc? {s : State} {c q : Nat} {p : Word} {d : Desc} (h : s.desc? c q p = some d) : (s.ctx c).find d.ring d.pos = some d := by
  obtain ⟨h1, h2⟩ := State.ring_of_desc? h
  refine List.find?_narrow h (by simp) ?_
  intro x hx
  simp only [Bool.and_eq_true, beq_iff_eq] at hx ⊢
  exact ⟨hx.1.trans h1, by rw [hx.2]; exact h2⟩

theorem State.modDesc_ctx_ne (s : State) {c k : Nat} (q p : Nat) (f : Desc → Desc) (h : k ≠ c) : (s.modDesc c q p f).ctx k = s.ctx k :=
  State.modCtx_ctx_ne s _ h

theorem State.modDesc_ctx_self (s : State) (c q p : Nat) (f : Desc → Desc) : (s.modDesc c q p f).ctx c =
    { s.ctx c with descs := (s.ctx c).descs.map (fun d => if d.ring = q ∧ d.pos = p then f d else d) } := State.modCtx_ctx_self s c _

/-- Changing a descriptor that keeps its place changes what its place holds. -/
theorem State.find_modDesc_self {s : State} {c q p : Nat} {f : Desc → Desc} {d : Desc} (h : (s.ctx c).find q p = some d)
    (hf : ∀ x, (f x).ring = x.ring ∧ (f x).pos = x.pos) : ((s.modDesc c q p f).ctx c).find q p = some (f d) := by
  rw [State.modDesc_ctx_self]
  unfold Ctx.find at h ⊢
  simp only
  generalize (s.ctx c).descs = l at h ⊢
  induction l with
  | nil => simp at h
  | cons x l ih =>
    rw [List.find?_cons] at h
    rw [List.map_cons, List.find?_cons]
    by_cases hx : x.ring = q ∧ x.pos = p
    · have hd : x = d := by simpa [hx.1, hx.2] using h
      subst hd
      simp [hx, hf]
    · have hb : (x.ring == q && x.pos == p) = false := by simpa using hx
      simp only [hb] at h
      simp only [hx, if_false, hb]
      exact ih h

/-- Changing a descriptor leaves every other place. -/
theorem State.find_modDesc_ne {s : State} {c q p q' p' : Nat} {f : Desc → Desc} (hf : ∀ x, (f x).ring = x.ring ∧ (f x).pos = x.pos)
    (hne : ¬(q' = q ∧ p' = p)) : ((s.modDesc c q p f).ctx c).find q' p' = (s.ctx c).find q' p' := by
  rw [State.modDesc_ctx_self]
  unfold Ctx.find
  simp only
  generalize (s.ctx c).descs = l
  induction l with
  | nil => rfl
  | cons x l ih =>
    rw [List.map_cons, List.find?_cons, List.find?_cons]
    by_cases hx : x.ring = q ∧ x.pos = p
    · have hb : (x.ring == q' && x.pos == p') = false := by
        simp only [hx.1, hx.2, Bool.and_eq_false_iff, beq_eq_false_iff_ne]
        by_cases h1 : q = q'
        · exact .inr fun h2 => hne ⟨h1.symm, h2.symm⟩
        · exact .inl h1
      simp only [hx, and_self, if_true, (hf x).1, (hf x).2]
      rw [hx.1, hx.2] at hb
      rw [hb]
      exact ih
    · simp only [hx, if_false]
      rw [ih]

/-- A descriptor whose work has not ended ends with e. -/
theorem State.endDesc_ended {s : State} {c : Nat} {d y : Desc} {e : Ending} (h : (s.ctx c).find d.ring d.pos = some y) (hy : y.ending = none) :
    (s.endDesc c d.ring d.pos e).Ended c d e := by
  refine ⟨{ y with ending := some e, work := .idle }, ?_, rfl⟩
  have := State.find_modDesc_self (f := fun d => if d.ending.isSome then d else { d with ending := some e, work := .idle }) h
    (fun x => by split <;> exact ⟨rfl, rfl⟩)
  simpa [State.endDesc, hy] using this

/-- A descriptor that has begun is found with its start order and time. -/
theorem State.find_beginDesc {s : State} {c q : Nat} {p : Word} {d : Desc} (h : s.desc? c q p = some d) :
    ((s.beginDesc c d).ctx c).find d.ring d.pos = some (s.begun d) := by
  have h1 := State.find_of_desc? h
  show ((s.modDesc c d.ring d.pos (fun _ => d.begun s.nextStart s.time)).ctx c).find d.ring d.pos = _
  rw [State.modDesc_ctx_self]
  unfold Ctx.find at h1 ⊢
  simp only
  generalize (s.ctx c).descs = l at h1 ⊢
  induction l with
  | nil => simp at h1
  | cons x l ih =>
    rw [List.find?_cons] at h1
    rw [List.map_cons, List.find?_cons]
    by_cases hx : x.ring = d.ring ∧ x.pos = d.pos
    · simp [hx, Desc.begun, State.begun]
    · have hb : (x.ring == d.ring && x.pos == d.pos) = false := by simpa using hx
      simp only [hb] at h1
      simp only [hx, if_false, hb]
      exact ih h1

/-- A descriptor that passes its checks runs its operation in the state where it has begun. -/
theorem State.startDesc_passes {s : State} {c q : Nat} {p : Word} {d : Desc} {chk : State → Desc → Chk} {mine hold : Desc → Bool}
    {run : State → Desc → State} (h : s.Passes c q p d chk) (hm : mine d = true) (hh : hold d = false) :
    s.startDesc c q p mine hold chk run = run (s.beginDesc c d) (s.begun d) := by
  obtain ⟨h1, -, h3, h4, h5⟩ := h
  simp [State.startDesc, h1, h3, hm, hh, State.startNow, State.begun] at *
  simp [h4, h5]

/-- A descriptor that fails a check ends with that status, and its operation has no effect. -/
theorem State.startDesc_fails {s : State} {c q : Nat} {p : Word} {d : Desc} {chk : State → Desc → Chk} {mine hold : Desc → Bool}
    {run : State → Desc → State} {e : Ending} (h : s.Fails c q p d chk e) (hm : mine d = true) (hh : hold d = false) :
    s.startDesc c q p mine hold chk run = (s.beginDesc c d).endDesc c d.ring d.pos e := by
  obtain ⟨h1, h3, h4⟩ := h
  simp [State.startDesc, h1, h3, hm, hh, State.startNow, State.begun] at *
  simp [h4]

/-- A write of an owner's register acts in stage 4 for physical function 0, and changes nothing for a virtual function (R50, R81). -/
theorem State.ownerWrite_pf (s : State) (g : State → State) (h : s.chip.stage = 4) : s.ownerWrite .pf g = g s := by
  simp [State.ownerWrite, State.whenUp, h]
theorem State.ownerWrite_vf (s : State) (n : CtxId) (g : State → State) : s.ownerWrite (.vf n) g = s := by simp [State.ownerWrite]
theorem State.pageWrite_pf (s : State) (g : State → State) (h : s.chip.stage = 4) : s.pageWrite .pf g = g s := by
  simp [State.pageWrite, State.whenUp, h]
theorem State.pageWrite_vf (s : State) (n : CtxId) (g : State → State) (h : s.chip.stage = 4) : s.pageWrite (.vf n) g = s := by
  simp [State.pageWrite, State.whenUp, h]
theorem State.ctxWrite_holds (s : State) (f : Func) (c : Nat) (g : State → State) (h : s.chip.stage = 4) (hc : s.holds f c = true) :
    s.ctxWrite f c g = g s := by simp [State.ctxWrite, State.whenUp, h, hc]

end Sys2Proof.Machine
end

