-- ==== Sys2Proof/Laws/Fabric.lean ====
section
/-!
SUPPORT. What sending a frame can do: it changes the fabric, what has left the module and the module's counters, and nothing else. A port
sends only frames that its credits and its replay buffer admit, and stays in its state.
-/
namespace Sys2Proof.Machine

/-- u differs from s at most in the fabric, in what has left the module and in the module's counters. -/
structure State.SendsOnly (s u : State) : Prop where
  same : u = { s with fabric := u.fabric, out := u.out, pmcMod := u.pmcMod, pmcModOvf := u.pmcModOvf }

theorem State.SendsOnly.refl (s : State) : s.SendsOnly s := ⟨rfl⟩

theorem State.SendsOnly.trans {s u v : State} (h : s.SendsOnly u) (k : u.SendsOnly v) : s.SendsOnly v := ⟨by rw [k.same, h.same]⟩

theorem State.SendsOnly.foldl {f : State → α → State} (hf : ∀ (s : State) (a : α), s.SendsOnly (f s a)) (l : List α) (s : State) :
    s.SendsOnly (l.foldl f s) := by
  induction l generalizing s with
  | nil => exact .refl s
  | cons a l ih => exact (hf s a).trans (ih _)

theorem State.SendsOnly.ctxs {s u : State} (h : s.SendsOnly u) : u.ctxs = s.ctxs := by rw [h.same]
theorem State.SendsOnly.tiles {s u : State} (h : s.SendsOnly u) : u.tiles = s.tiles := by rw [h.same]
theorem State.SendsOnly.mem {s u : State} (h : s.SendsOnly u) : u.mem = s.mem := by rw [h.same]
theorem State.SendsOnly.host {s u : State} (h : s.SendsOnly u) : u.host = s.host := by rw [h.same]
theorem State.SendsOnly.regs {s u : State} (h : s.SendsOnly u) : u.regs = s.regs := by rw [h.same]

/-- A frame that leaves next is one that may leave (R263, R264). -/
theorem Port.next_may {p : Port} {f : Frame} (h : p.next = some f) : p.may f = true := by
  have hs : ∀ (g : Frame), p.shared = some g → p.may g = true := by
    intro g hg
    simp only [Port.shared, List.foldl, Option.map_eq_some_iff] at hg
    obtain ⟨⟨n, g'⟩, hg, rfl⟩ := hg
    have key : ∀ (b : Option (Nat × Frame)) (vc : Nat) (x : Nat × Frame), (∀ y, b = some y → p.may y.2 = true) →
        (match (p.head vc).filter p.may, b with
          | some f, some (n, g) => if p.share.get 0 vc < n then some (p.share.get 0 vc, f) else some (n, g)
          | some f, none => some (p.share.get 0 vc, f)
          | none, b => b) = some x → p.may x.2 = true := by
      intro b vc x hb hx
      split at hx
      · next f n g hf =>
        split at hx
        · simp only [Option.some.injEq] at hx; subst hx; exact (Option.filter_eq_some_iff.mp hf).2
        · simp only [Option.some.injEq] at hx; subst hx; exact hb _ rfl
      · next f hf => simp only [Option.some.injEq] at hx; subst hx; exact (Option.filter_eq_some_iff.mp hf).2
      · exact hb _ hx
    exact key _ 3 _ (fun y hy => key _ 2 _ (fun z hz => key none 1 _ (by simp) hz) hy) hg
  simp only [Port.next, Option.or_eq_some_iff] at h
  rcases h with h | ⟨-, h | ⟨-, h⟩⟩
  · exact (Option.filter_eq_some_iff.mp h).2
  · exact (Option.filter_eq_some_iff.mp h).2
  · exact hs f h

@[simp] theorem Port.send_state (p : Port) (f : Frame) : (p.send f).state = p.state := rfl
@[simp] theorem Port.enqueue_state (p : Port) (f : Frame) : (p.enqueue f).state = p.state := rfl

/-- Sending leaves a port in its state. -/
@[simp] theorem Port.drain_state (n : Nat) (p : Port) : (Port.drain n p).state = p.state := by
  induction n generalizing p with
  | zero => rfl
  | succ n ih =>
    unfold Port.drain
    split
    · exact (ih _).trans (Port.send_state p _)
    · rfl

theorem State.emit_sendsOnly (s : State) (o : Out) : s.SendsOnly (s.emit o) := ⟨rfl⟩
theorem State.setPort_sendsOnly (s : State) (p : Nat) (x : Port) : s.SendsOnly (s.setPort p x) := ⟨rfl⟩
theorem State.countMod_sendsOnly (s : State) (i n : Nat) : s.SendsOnly (s.countMod i n) := by
  unfold State.countMod
  dsimp only
  split <;> exact ⟨rfl⟩

/-- What a port sends when it may. -/
theorem State.pump_sendsOnly (s : State) (p : Nat) : s.SendsOnly (s.pump p) := by
  unfold State.pump
  dsimp only
  split
  · exact .refl s
  · exact ((State.setPort_sendsOnly s p _).trans (.foldl (fun s _ => State.emit_sendsOnly s _) _ _)).trans (State.countMod_sendsOnly _ _ _)

theorem State.placeFrame_sendsOnly (s : State) (f : Frame) : s.SendsOnly (s.placeFrame f) := by
  unfold State.placeFrame
  split
  · exact .trans (u := s.modPort _ _) ⟨rfl⟩ (State.pump_sendsOnly _ _)
  · exact ⟨rfl⟩

/-- A frame sent by the route table (R267). -/
theorem State.sendFrame_sendsOnly (s : State) (f : Frame) : s.SendsOnly (s.sendFrame f) := State.placeFrame_sendsOnly s _

theorem State.sendWaiting_sendsOnly (s : State) : s.SendsOnly s.sendWaiting :=
  .trans (u := { s with fabric := { s.fabric with waiting := [] } }) ⟨rfl⟩ (.foldl State.placeFrame_sendsOnly _ _)

/-- Frames of a transfer (R262). -/
theorem State.sendTyped_sendsOnly (s : State) (type c dst vc group seq off : Nat) (bs : List Byte) :
    s.SendsOnly (s.sendTyped type c dst vc group seq off bs) := by
  unfold State.sendTyped
  split
  · exact .refl s
  · exact .foldl (fun s _ => State.sendFrame_sendsOnly s _) _ _

theorem State.sendData_sendsOnly (s : State) (c dst vc group seq off : Nat) (bs : List Byte) : s.SendsOnly (s.sendData c dst vc group seq off bs) :=
  State.sendTyped_sendsOnly s _ _ _ _ _ _ _ _

/-- A frame of a context that carries no data. -/
theorem State.sendCtrl_sendsOnly (s : State) (c dst group seq : Nat) (m : Ctrl) : s.SendsOnly (s.sendCtrl c dst group seq m) :=
  State.sendTyped_sendsOnly s _ _ _ _ _ _ _ _

end Sys2Proof.Machine
end

