-- ==== Sys2Proof/Laws/Tile.lean ====
section
/-!
SUPPORT. The shared issue of every tile instruction (R147): what it answers for each way an instruction's own check can come out, and
which tiles an update of a sequencer or an array reaches. What a write into tile store can do, with the choices of R155.
-/
namespace Sys2Proof.Machine

/-- An instruction that issues: it is counted, may be tagged, and leaves the window of the state that its own effect leaves. -/
theorem State.issue_go {s u : State} {t k cls op a : Nat} {w : TileWord} {f : State → Nat → TileWord → Issued}
    (h : s.AtIssue t k cls op a w) (hf : f s a w = .go u) : s.issue t k cls op f = ((u.took s t k).addTag s t a w).pass t k := by
  obtain ⟨h1, h2, h3, h4⟩ := h
  simp [State.issue, h1, h2, h3, h4, hf]

/-- With tagging off no instruction is tagged (R433). -/
theorem State.addTag_off {s : State} {t : Nat} (h : bitOf (s.reg (rPmcTag t)) 31 = false) (u : State) (a : Nat) (w : TileWord) : u.addTag s t a w = u := by
  simp [State.addTag, h]

/-- An instruction that faults ends its tile's part of the run. -/
theorem State.issue_fault {s : State} {t k cls op a : Nat} {w : TileWord} {c : Half} {f : State → Nat → TileWord → Issued}
    (h : s.AtIssue t k cls op a w) (hf : f s a w = .fault c) :
    s.issue t k cls op f = s.fault t c (some a) := by
  obtain ⟨h1, h2, h3, h4⟩ := h
  simp [State.issue, h1, h2, h3, h4, hf]

/-- An instruction that cannot issue yet: only the wait code of the sequencer changes, and only if it stands at the PC. -/
theorem State.issue_stay {s : State} {t k cls op a n : Nat} {w : TileWord} {f : State → Nat → TileWord → Issued}
    (h : s.AtIssue t k cls op a w) (hf : f s a w = .stay n) :
    s.issue t k cls op f = if k = (s.tile t).seq.held.length then s.modSeq t (fun q => { q with wait := n }) else s := by
  obtain ⟨h1, h2, h3, h4⟩ := h
  simp [State.issue, h1, h2, h3, h4, hf]

/-- A command that does not find its instruction changes nothing. -/
theorem State.issue_absent {s : State} {t k cls op : Nat} {f : State → Nat → TileWord → Issued}
    (h : s.window t k = .none ∨ s.window t k = .wait ∨ s.window t k = .past) : s.issue t k cls op f = s := by
  rcases h with h | h | h <;> simp [State.issue, h]

@[simp] theorem State.modSeq_tile_self (s : State) (t : Nat) (f : Seq → Seq) : (s.modSeq t f).tile t = { s.tile t with seq := f (s.tile t).seq } :=
  State.modTile_tile_self s t _
theorem State.modSeq_tile_ne (s : State) {t u : Nat} (f : Seq → Seq) (h : u ≠ t) : (s.modSeq t f).tile u = s.tile u := State.modTile_tile_ne s _ h
@[simp] theorem State.modMx_tile_self (s : State) (t : Nat) (f : Matrix → Matrix) : (s.modMx t f).tile t = { s.tile t with mx := f (s.tile t).mx } :=
  State.modTile_tile_self s t _
theorem State.modMx_tile_ne (s : State) {t u : Nat} (f : Matrix → Matrix) (h : u ≠ t) : (s.modMx t f).tile u = s.tile u := State.modTile_tile_ne s _ h

@[simp] theorem State.pass_ctxs (s : State) (t k : Nat) : (s.pass t k).ctxs = s.ctxs := rfl
@[simp] theorem State.pass_regs (s : State) (t k : Nat) : (s.pass t k).regs = s.regs := rfl
@[simp] theorem State.pass_mem (s : State) (t k : Nat) : (s.pass t k).mem = s.mem := rfl
@[simp] theorem State.modSeq_regs (s : State) (t : Nat) (f : Seq → Seq) : (s.modSeq t f).regs = s.regs := rfl
@[simp] theorem State.modSeq_ctxs (s : State) (t : Nat) (f : Seq → Seq) : (s.modSeq t f).ctxs = s.ctxs := rfl
@[simp] theorem State.modSeq_mem (s : State) (t : Nat) (f : Seq → Seq) : (s.modSeq t f).mem = s.mem := rfl
@[simp] theorem State.modMx_regs (s : State) (t : Nat) (f : Matrix → Matrix) : (s.modMx t f).regs = s.regs := rfl
@[simp] theorem State.modMx_ctxs (s : State) (t : Nat) (f : Matrix → Matrix) : (s.modMx t f).ctxs = s.ctxs := rfl
@[simp] theorem State.modMx_mem (s : State) (t : Nat) (f : Matrix → Matrix) : (s.modMx t f).mem = s.mem := rfl

/-- A write into tile store keeps its canonical form, and changes nothing but the store, the races and the held images (R118, R155, R173). -/
theorem Tile.write_store (x : Tile) (a : Nat) (bs : List Byte) : (x.write a bs).store = x.store.writeN a bs := rfl

theorem Tile.write_frame (x : Tile) (a : Nat) (bs : List Byte) :
    x.write a bs = { x with store := (x.write a bs).store, races := (x.write a bs).races, clusters := (x.write a bs).clusters } := rfl

theorem Tile.write_wf {x : Tile} (h : x.store.wf = true) (a : Nat) (bs : List Byte) : (x.write a bs).store.wf = true := Mem.writeN_wf h a bs

theorem Tile.writeAll_wf {x : Tile} (h : x.store.wf = true) (ws : List (Nat × List Byte)) : (x.writeAll ws).store.wf = true := by
  unfold Tile.writeAll
  induction ws generalizing x with
  | nil => exact h
  | cons w ws ih => exact ih (Tile.write_wf h w.1 w.2)

/-- An instruction that meets no write of another unit sees the store as it is, and its writes stand as it made them (R155). -/
theorem Tile.seenBy_quiet {x : Tile} {id : Nat} (h : x.quiet id = true) (coin : Nat → Bool) : x.seenBy id coin = x := by
  simp only [Tile.quiet, Bool.and_eq_true, List.isEmpty_iff] at h
  simp [Tile.seenBy, h.1, h.2]

theorem Tile.writeBy_quiet {x : Tile} {id : Nat} (h : x.quiet id = true) (coin : Nat → Bool) (ws : List (Nat × List Byte)) :
    x.writeBy id coin ws = x.writeAll ws := by
  simp only [Tile.quiet, Bool.and_eq_true, List.isEmpty_iff] at h
  simp [Tile.writeBy, h.1]

theorem State.drew_quiet {x : Tile} {id : Nat} (h : x.quiet id = true) (s : State) : s.drew x id = s := by simp [State.drew, h]

/-- Whatever the choices of R155, a store stays canonical. -/
theorem Tile.seenBy_wf {x : Tile} (h : x.store.wf = true) (id : Nat) (coin : Nat → Bool) : (x.seenBy id coin).store.wf = true := by
  unfold Tile.seenBy
  dsimp only
  generalize x.early id = e
  induction e with
  | nil =>
    generalize x.racesOf id = l
    induction l with
    | nil => exact h
    | cons r l ih =>
      simp only [List.foldr_cons, List.foldr_nil] at ih ⊢
      split
      · exact Mem.writeN_wf ih _ _
      · exact ih
  | cons a e ih =>
    simp only [List.foldr_cons]
    split
    · exact Mem.write_wf ih _ _
    · exact ih

theorem Tile.writeBy_wf {x : Tile} (h : x.store.wf = true) (id : Nat) (coin : Nat → Bool) (ws : List (Nat × List Byte)) :
    (x.writeBy id coin ws).store.wf = true := by
  unfold Tile.writeBy
  have k := Tile.writeAll_wf h ws
  dsimp only
  revert k
  generalize (x.writeAll ws).store = m
  generalize x.racesOf id = l
  induction l generalizing m with
  | nil => exact fun k => k
  | cons r l ih =>
    intro k
    simp only [List.foldl_cons]
    refine ih _ ?_
    split
    · exact Mem.writeN_wf k _ _
    · exact k

/-- Counting a tile's events changes nothing but the counts of that tile. -/
theorem State.countTile_tileIs (s : State) (t ev n : Nat) : s.TileIs (s.countTile t ev n) t (s.tile t) := by
  unfold State.countTile
  generalize List.range 16 = l
  suffices h : ∀ (l : List Nat) (u : State), s.TileIs u t (s.tile t) → s.TileIs (l.foldl (fun (s : State) k =>
      let sel := s.reg (rPmcSel t k)
      if n = 0 ∨ !bitOf sel 31 ∨ fld sel 0 8 ≠ ev then s else
        let v := ((s.tile t).pmc.get 0#64 k).toNat + n
        s.modTile t (fun x => { x with
          pmc := x.pmc.set k (dword (v % 2 ^ 48))
          pmcOvf := if 2 ^ 48 ≤ v then x.pmcOvf ||| BitVec.ofNat 16 (2 ^ k) else x.pmcOvf })) u) t (s.tile t) from
    h l s ⟨rfl, fun _ _ => rfl, rfl⟩
  intro l
  induction l with
  | nil => intro u hu; exact hu
  | cons k l ih =>
    intro u hu
    refine ih _ ?_
    simp only
    split
    · exact hu
    · obtain ⟨h1, h2, h3⟩ := hu
      refine ⟨?_, fun j hj => ?_, ?_⟩
      · rw [h1]; rfl
      · rw [State.modTile_tile_ne _ _ hj]; exact h2 j hj
      · rw [State.modTile_tile_self, h3]

end Sys2Proof.Machine
end

