-- ==== Sys2Proof/WellFormed.lean ====
section
/-!
DEFINITION. Which terms of `Instr` the outside world can present: operand values within the ranges the spec gives the event.
The meanings are total; an ill-formed term is no event of the AB816 (log 10).
-/
namespace Sys2Proof

/-- Readings and byte counts that the spec bounds. -/
def Instr.wf : Instr → Bool
  | .stage2Complete (some (cause, unit)) => decide (3 ≤ cause.toNat ∧ cause.toNat ≤ 9) &&
      decide (unit.toNat ≤ 119 ∨ unit = 255#8)
  | .railOverCurrent _ ds => ds.all (fun d => decide (d < 408 ∨ d = 410 ∨ d = 411))
  | .pldmFirmwareUpdate off d => decide (off.req + d.length ≤ 0x4000000)
  | .mailboxImageWrite off d => decide (d.length ≤ 4096) && decide (off + d.length ≤ 0x4000000)
  | .spdmGetMeasurements i => decide (1 ≤ i.req.2 ∧ i.req.2 ≤ 7)
  | .bar0BadAccess _ off size => decide (off < 0x4000000) && decide (size < 4 ∨ off % size ≠ 0)
  | .registerWrite _ off acc => decide (off < 0x4000000) &&
      (match acc with
       | .write64 _ => decide (off % 8 = 0)
       | .read64 => decide (off % 8 = 0)
       | .write32 _ => decide (off % 4 = 0)
       | .read32 => decide (off % 4 = 0))
  | .descriptorFetch _ n => decide (1 ≤ n ∧ n ≤ 16)
  | .blockCheckDone _ obs => decide (obs.cols.length ≤ 192) && decide (obs.rows.length ≤ 512)
  | .bar4Read _ n => decide (1 ≤ n ∧ n ≤ 4096)
  | .bar4Write _ d => decide (1 ≤ d.length ∧ d.length ≤ 4096)
  | .eccCorrected st row frame => decide (frame / 32768 = st.val) && decide (row < 0x200000)
  | .slowReadFail addr n _ => decide (1 ≤ n) && decide (addr + n ≤ 2 ^ 52)
  | .uncorrectableError addr => decide (addr < 2 ^ 52)
  | .patrolScrub errs => errs.all (fun a => decide (a < 2 ^ 52))
  | .frameData _ _ _ p _ => decide (p.length ≤ 4096) && decide (p.length % 4 = 0)
  | .frameReady _ r => decide (r.rx.payload.length ≤ 4096)
  | .frameCredit _ _ _ f => decide (f.payload.length ≤ 4096)
  | .frameCtrl _ f => decide (f.payload.length ≤ 4096)
  | .wearHourly _ load _ _ _ => decide (load ≤ 1000)
  | .powerTick x => decide (x.c ≤ x.p)
  | _ => true

end Sys2Proof
end

