-- ==== Sys2Proof/Tests/Slice0.lean ====
section
/-!
SUPPORT. Tests: the well-formedness checks refuse ill-formed terms; for each statement of Certificates/Slice0/Obligations.lean a named
theorem shows states and operands that meet the hypotheses of its clauses; and small tests whose expected values are the spec's own.
-/
namespace Sys2Proof.Tests
open Sys2Proof Sys2Proof.Machine

set_option Elab.async false

/-! Ill-formed terms (log 10). -/

theorem test_wf_stage2 : Instr.wf (.stage2Complete (some (0x0A#8, 255#8))) = false ∧ Instr.wf (.stage2Complete (some (3#8, 120#8))) = false ∧
    Instr.wf (.stage2Complete (some (3#8, 255#8))) = true := by decide
theorem test_wf_rail : Instr.wf (.railOverCurrent 7 [408]) = false ∧ Instr.wf (.railOverCurrent 7 [407, 410]) = true := by decide
theorem test_wf_images : Instr.wf (.pldmFirmwareUpdate ⟨.bus, 0x4000000⟩ [0#8]) = false ∧ Instr.wf (.mailboxImageWrite 0x3FFFFFF [0#8, 0#8]) = false ∧
    Instr.wf (.mailboxImageWrite 0 (List.replicate 4097 0#8)) = false ∧ Instr.wf (.mailboxImageWrite 0x3FFFFFF [0#8]) = true := by decide +kernel
theorem test_wf_measurement : Instr.wf (.spdmGetMeasurements ⟨.bus, false, 0⟩) = false ∧ Instr.wf (.spdmGetMeasurements ⟨.bus, false, 8⟩) = false ∧ Instr.wf (.spdmGetMeasurements ⟨.bus, true, 7⟩) = true := by decide
theorem test_wf_bar0 : Instr.wf (.bar0BadAccess true 8 4) = false ∧ Instr.wf (.bar0BadAccess true 0x4000000 2) = false ∧ Instr.wf (.bar0BadAccess true 9 4) = true := by decide
theorem test_wf_register : Instr.wf (.registerWrite .pf 2 .read32) = false ∧ Instr.wf (.registerWrite .pf 4 .read64) = false ∧
    Instr.wf (.registerWrite .pf 2 (.write32 0)) = false ∧ Instr.wf (.registerWrite .pf 4 (.write64 0)) = false ∧
    Instr.wf (.registerWrite .pf 0x4000000 .read32) = false ∧ Instr.wf (.registerWrite .pf 4 .read32) = true := by decide
theorem test_wf_fetch : Instr.wf (.descriptorFetch 0 0) = false ∧ Instr.wf (.descriptorFetch 0 17) = false ∧ Instr.wf (.descriptorFetch 0 16) = true := by decide
theorem test_wf_block : Instr.wf (.blockCheckDone 0 { rows := [], cols := List.replicate 193 (0, ⟨0, 0, 0⟩) }) = false ∧
    Instr.wf (.blockCheckDone 0 { rows := List.replicate 513 (0, ⟨0, 0, 0⟩), cols := [] }) = false := by decide +kernel
theorem test_wf_bar4 : Instr.wf (.bar4Read 0 0) = false ∧ Instr.wf (.bar4Read 0 4097) = false ∧ Instr.wf (.bar4Write 0 []) = false := by decide
theorem test_wf_errors : Instr.wf (.eccCorrected 1 0 32767) = false ∧ Instr.wf (.eccCorrected 1 0x200000 32768) = false ∧ Instr.wf (.eccCorrected 1 0 32768) = true ∧
    Instr.wf (.slowReadFail 0 0 true) = false ∧ Instr.wf (.slowReadFail (2 ^ 52) 1 true) = false ∧ Instr.wf (.uncorrectableError (2 ^ 52)) = false ∧
    Instr.wf (.patrolScrub [0, 2 ^ 52]) = false := by decide
theorem test_wf_frames : Instr.wf (.frameData 0 {} 0 [0, 0, 0] 0) = false ∧ Instr.wf (.frameData 0 {} 0 (List.replicate 4100 0) 0) = false ∧
    Instr.wf (.frameCtrl 0 ⟨{}, 0, List.replicate 4097 0, 0⟩) = false ∧ Instr.wf (.frameCredit 0 0 1 ⟨{}, 0, List.replicate 4097 0, 0⟩) = false ∧
    Instr.wf (.frameReady 0 ⟨⟨{}, 0, List.replicate 4097 0, 0⟩, 1, 0, 0⟩) = false := by decide +kernel
theorem test_wf_readings : Instr.wf (.wearHourly 0 1001 0 0 0) = false ∧ Instr.wf (.powerTick ⟨1, 2, 0, 0, 0, [], []⟩) = false := by decide
/-- No row of the table has bits (log 11). -/
theorem test_no_words (n w : Nat) : decodeTableWord n w = none := rfl

/-! States that the witnesses use. -/

/-- A module in stage 0 with its boot ROM running: the strap bits select 4,800 W, SAFE_BOOT_N and BOOT_SRC 0b10. -/
def rom : State := { State.reset with chip := { alwaysOn := true, strapped := true, rom := true, strap := 0xA800#32 } }

/-- A module at full function: both feeds live, host port A enumerated, context 0 Active with tiles 0 to 2, context 1 Idle. -/
def up : State := { State.reset with
  chip := { alwaysOn := true, strapped := true, rom := true, stage := 4, image := 1, strap := 0xA800#32 }
  inputs := { feedA := true, feedB := true, switchA := true, switchB := true, pwrGood := true }
  hostA := { cable := true, perst := false, enumerated := true, link := true, active := true }
  tiles := [(0, { sleep := .running }), (1, { sleep := .running }), (2, { sleep := .running })]
  ctxs := [(0, { state := .active, enable := true, run := true, mask := 7#96 }), (1, { state := .idle, enable := true, func := .vf 1 })] }

theorem witness_StepRunsTheFrontCommand : { up with pending := [.thermalTrip] }.pending = .thermalTrip :: [] ∧ up.pending = [] ∧ up.clockOn 22 = true ∧
    rom.pending = [] ∧ rom.clockOn 22 = false ∧ up.chip.dbgUnlock = false ∧ { up with chip := { up.chip with dbgUnlock := true } }.chip.dbgUnlock = true := by
  decide +kernel

theorem witness_PowerOnAndStraps : up.chip.auxOn = true ∧ rom.chip.strapped = true ∧
    (let s := { State.reset with chip := { alwaysOn := true } }
     s.chip.alwaysOn = true ∧ s.chip.strapped = false ∧ s.feeds = 0) ∧
    (let s := { State.reset with chip := { alwaysOn := true }, inputs := { feedA := true, switchA := true } }
     s.chip.alwaysOn = true ∧ s.chip.strapped = false ∧ s.oneFeed = true ∧ s.chip.stage = 0 ∧ bootWait s.chip.cause = true ∧
       3600 < classOfStrap (strapWord 0x5400#15).toNat) ∧
    (let s := { rom with chip := { rom.chip with rom := false } }
     s.chip.strapped = true ∧ s.chip.rom = false ∧ s.chip.cause = 0#8 ∧ s.chip.tried = [] ∧ s.chip.recFailed = false ∧ s.mgmt.stuck = false ∧
       { s with mgmt := { stuck := true } }.mgmt.stuck = true) := by decide +kernel

theorem witness_FirmwareStarts : rom.mayBoot = true ∧ rom.nextImage = some .b ∧ rom.flash.fuseSvn ≤ (0#16).toNat ∧
    (let s := { rom with flash := { fuses := [3#16] } }
     s.mayBoot = true ∧ s.nextImage = some .b ∧ (2#16).toNat < s.flash.fuseSvn) ∧
    (let s := { rom with chip := { rom.chip with tried := [.a, .b] } }
     s.mayBoot = true ∧ s.nextImage = none ∧ s.bootOrder ≠ [] ∧ s.flash.fuseSvn ≤ (0#16).toNat ∧ s.recoveryOpen .bus = true ∧ s.mgmtUp .bus = true) ∧
    (let s := { rom with chip := { rom.chip with strap := 0x2800#32 } }
     s.mayBoot = true ∧ s.recoveryOpen .bus = true ∧ s.mgmtUp .bus = true ∧ s.recoveryOpen .mailbox = false) := by decide +kernel

theorem witness_MainInputAndStages : rom.chip.auxOn = true ∧ rom.chip.alwaysOn = true ∧ rom.inputs.tripHold = false ∧ rom.inputs.domainsOff = [] ∧
    { rom with inputs := { removed := true } }.inputs.removed = true ∧
    rom.inputs.feedA = false ∧ rom.inputs.feedB = false ∧ 3600 < rom.pwrClass ∧ rom.chip.stage ≠ 4 ∧
    { up with chip := { up.chip with stage := 2 } }.chip.stage = 2 ∧ { up with chip := { up.chip with stage := 2 } }.unitExcluded (5#8).toNat = false ∧
    { up with chip := { up.chip with stage := 2 }, flash := { tileFence := 32#96 } }.unitExcluded (5#8).toNat = true ∧
    { up with chip := { up.chip with stage := 3 } }.chip.stage = 3 ∧ up.flash.dieFence.toNat.testBit (0 : DieId) = false ∧
    { up with flash := { dieFence := 1#8 } }.flash.dieFence.toNat.testBit (0 : DieId) = true := by decide +kernel

theorem witness_UnderVoltageTripFault : up.live false = true ∧ up.live true = true ∧ (up.hostA.perst = false ∨ up.hostB.perst = false) ∧
    (let s := { rom with inputs := up.inputs }
     s.live true = true ∧ s.hostA.perst = true ∧ s.hostB.perst = true) := by decide

theorem witness_TripsReturnToStageZero : up.live true = true ∧ rom.live true = false ∧ rom.chip.alwaysOn = true ∧ up.inputs.switches = true ∧ up.chip.stage = 4 ∧
    pdHost ∈ [pdHost] ∧ pdMem ∈ [pdMem] ∧
    (let s := { up with chip := { up.chip with stage := 1 } }
     s.inputs.switches = true ∧ 1 ≤ s.chip.stage ∧ s.chip.stage ≤ 3) ∧
    (let s := { rom with power := { hot := true } }
     s.power.hot = true ∧ s.power.hotReset = false) ∧
    (let s := { rom with power := { hot := true, hotReset := true } }
     s.power.hot = true ∧ s.power.hotReset = true) := by decide

theorem witness_FeedsAndPolarity : up.inputs.feedA = true ∧ up.inputs.feedB = true ∧ up.chip.stage = 4 ∧ 3600 < up.pwrClass ∧
    (let s := { up with chip := { up.chip with stage := 3, strap := 0xA000#32 } }
     s.inputs.feedA = true ∧ s.inputs.feedB = true ∧ s.chip.stage ≠ 4 ∧ s.pwrClass ≤ 3600) ∧
    (let s := { up with inputs := { up.inputs with feedB := false } }
     s.chip.alwaysOn = true ∧ s.chip.stage = 4 ∧ s.inputs.tripHold = false ∧ s.live true = false ∧ s.live (!true) = true) := by decide

theorem witness_ManagementSpdmAndDebug : up.chip.rom = true ∧ up.mgmt.stuck = false ∧ up.chip.image = 1 ∧ { up with chip := { up.chip with image := 2 } }.chip.image = 2 ∧
    rom.chip.rom = true ∧ rom.mgmt.stuck = false ∧ rom.chip.image = 0 ∧ { up with mgmt := { spdm := 1 } }.mgmt.spdm = 1 ∧ up.chip.stage ≠ 0 ∧
    up.chip.dbgUnlock = false ∧ { up with chip := { up.chip with dbgUnlock := true } }.chip.dbgUnlock = true ∧ up.mgmtUp .bus = true ∧ up.mgmtUp .mailbox = true ∧
    { up with mgmt := { spdm := 2 } }.mgmt.spdm = 2 ∧ (∃ i, rom.chip.stage < (rom.measure i).1) := by
  refine ⟨rfl, rfl, rfl, rfl, rfl, rfl, rfl, rfl, by decide, rfl, rfl, rfl, by decide +kernel, rfl, 3, ?_⟩
  decide +kernel
/-- A line that is released before and after the boot ROM runs, and a recovery image under either order of the flash images. -/
theorem witness_ManagementSpdmAndDebug_recovery : State.reset.chip.rom = false ∧ rom.chip.rom = true ∧
    (let s := { up with chip := { up.chip with image := 3 } }
     s.mgmtUp .bus = true ∧ s.chip.image = 3 ∧ fld s.strapNat 14 2 = 2) ∧
    (let s := { up with chip := { up.chip with image := 3, strap := 0x6800#32 } }
     s.mgmtUp .bus = true ∧ s.chip.image = 3 ∧ fld s.strapNat 14 2 ≠ 2) ∧
    (let s := { up with mgmt := { spdm := 1 } }
     s.mgmtUp .bus = true ∧ s.mgmt.spdm = 1) := by decide +kernel

theorem witness_MailboxCommands : up.mailboxUp = true ∧ up.flash.fuseSvn ≤ (0#16).toNat ∧ 1 ≤ up.chip.stage ∧ up.chip.image = 1 ∧
    (let s := { up with chip := { up.chip with svn := 2#16 } }
     s.mailboxUp = true ∧ 1 ≤ s.chip.stage ∧ s.flash.fuseSvn < s.chip.svn.toNat ∧ s.flash.fuses.length < 64) ∧
    (let s := { up with chip := { up.chip with stage := 0 } }
     s.mailboxUp = true ∧ s.chip.stage = 0) ∧
    (let s := { up with flash := { fuses := [2#16] }, chip := { up.chip with svn := 2#16 } }
     s.mailboxUp = true ∧ s.chip.svn.toNat ≤ s.flash.fuseSvn) := by decide +kernel

/-- Mailbox images under a recovery image, a commit that fails, and one that the boot ROM takes as its recovery image. -/
theorem witness_MailboxCommands_recovery : up.chip.image ≠ 0 ∧ up.mailboxUp = true ∧ (1#16).toNat < { up with flash := { fuses := [2#16] } }.flash.fuseSvn ∧
    (let s := { up with chip := { up.chip with image := 3 } }
     s.mailboxUp = true ∧ s.chip.image = 3 ∧ fld s.strapNat 14 2 = 2) ∧
    (let s := { up with chip := { up.chip with image := 3, strap := 0x6800#32 } }
     s.mailboxUp = true ∧ s.chip.image = 3 ∧ fld s.strapNat 14 2 ≠ 2) ∧
    (let s := { up with chip := { rom.chip with strap := 0x6800#32 } }
     s.mailboxUp = true ∧ s.mayBoot = true ∧ s.recoveryOpen .mailbox = true ∧ s.chip.image = 0 ∧ s.flash.fuseSvn ≤ (0#16).toNat) := by decide +kernel

theorem noHeld_of {s : State} (h : s.ctxs.all (fun (x : Nat × Ctx) => x.2.descs.all (fun d => match d.work with
    | .coll r => !r.held
    | _ => true)) = true) : s.noHeld := by
  intro x hx d hd r e
  have := List.all_eq_true.mp (List.all_eq_true.mp h x hx) d hd
  rw [e] at this
  simpa using this

theorem witness_HostPortEvents_noHeld : up.noHeld ∧ up.chip.portsChosen = false ∧ up.inputs.tripHold = false ∧ { up with chip := { up.chip with portsChosen := true } }.chip.portsChosen = true :=
  ⟨noHeld_of (by decide +kernel), by decide⟩

theorem witness_HostPortEvents :
    up.hostA.enumerated = true ∧ up.hostB.enumerated = false ∧ up.mayEnumerate .a = true ∧ up.inputs.tripHold = false ∧ (up.hostPort .a).presents .pf = true ∧
    (up.hostPort .b).enumerated = false ∧ up.mayEnumerate .b = false ∧ (∀ x ∈ up.ctxs, x.2.linkHold = false) ∧
    (let s := { up with inputs := { up.inputs with tripHold := true }, hostA := { perst := true } }
     s.inputs.tripHold = true ∧ (s.hostPort .a).perst = true ∧ s.feeds ≠ 0) ∧
    (let s := { up with inputs := { tripHold := true }, hostA := { perst := true } }
     s.inputs.tripHold = true ∧ (s.hostPort .a).perst = true ∧ s.feeds = 0) ∧
    (let s := { up with hostB := { cable := true, perst := false, enumerated := true, link := true } }
     s.hostA.enumerated = true ∧ s.hostB.enumerated = true ∧ s.hostB.perst = false) ∧
    (let s := { up with hostA := { up.hostA with vfEnable := true, numVfs := 1 } }
     (s.hostPort .a).presents (.vf 1) = true ∧ (s.ctx (1 : CtxId)).state ≠ .off ∧ s.funcOf 1 = (s.ctx 1).func ∧ up.funcOf 1 ≠ (s.ctx 1).func) ∧
    (let s := { up with hostA := { up.hostA with link := false, lost := true } }
     (s.hostPort .a).enumerated = true ∧ (s.hostPort .a).lost = true ∧ pdHost ∉ s.inputs.domainsOff) ∧
    (let s := { up with ctxs := [(0, { up.ctx 0 with linkHold := true })], hostA := { up.hostA with link := false, lost := true } }
     (∃ x ∈ s.ctxs, x.2.linkHold = true) ∧ s.hostA.lost = true) := by decide +kernel

/-- Descriptor bytes from (offset, value) pairs. -/
def dbytes (l : List (Nat × Nat)) : DescWord := BitVec.ofNat 512 ((l.map (fun (x : Nat × Nat) => x.2 * 2 ^ (8 * x.1))).sum)

/-- A descriptor at position 0 of ring 0. -/
def dsc (l : List (Nat × Nat)) : Desc := { ring := 0, pos := 0, bytes := dbytes l }

/-- A reference to an object at an offset. -/
def ref (o off : Nat) : Nat := o * 2 ^ 40 + off

/-- Context 0 with its IDs 0 to 15, objects 1 to 3 of one block each, ring 0 on, and one fetched descriptor. -/
def with1 (d : Desc) : State := { up with
  regs := [(rObjRange 0, 0x1000000000#64), (rRingCfg 0 0, 0x80000000#64)]
  mem := { objs := [(1, { ubase := 0, size := 2 ^ 21, ctx := 0, frames := [0] }), (2, { ubase := 2 ^ 21, size := 2 ^ 21, ctx := 0, frames := [1] }),
    (3, { ubase := 2 ^ 22, size := 2 ^ 21, ctx := 0, frames := [600000] })] }
  ctxs := [(0, { up.ctx 0 with descs := [d] })] }

theorem passes_of {s : State} {c q : Nat} {p : Word} {d : Desc} {chk : State → Desc → Chk}
    (h : (decide (s.desc? c q p = some d) && decide (d.work = .idle) && s.mayStart c d &&
      decide ((s.beginDesc c d).check c (s.begun d) (chk (s.beginDesc c d) (s.begun d)) = none) && !(s.beginDesc c d).memLost (s.begun d) &&
      !(s.beginDesc c d).noPath c (s.begun d)) = true) : s.Passes c q p d chk := by
  simp only [Bool.and_eq_true, decide_eq_true_eq, Bool.not_eq_true'] at h
  exact ⟨h.1.1.1.1.1, h.1.1.1.1.2, h.1.1.1.2, h.1.1.2, h.1.2, h.2⟩

theorem fails_of {s : State} {c q : Nat} {p : Word} {d : Desc} {chk : State → Desc → Chk} {e : Ending}
    (h : (decide (s.desc? c q p = some d) && s.mayStart c d &&
      decide ((s.beginDesc c d).check c (s.begun d) (chk (s.beginDesc c d) (s.begun d)) = some e)) = true) : s.Fails c q p d chk e := by
  simp only [Bool.and_eq_true, decide_eq_true_eq] at h
  exact ⟨h.1.1, h.1.2, h.2⟩

theorem done_of {α : Type} {x : State × Option α} (h : x.2 = none) : ∃ s2, x = (s2, none) := ⟨x.1, by rw [← h]⟩

theorem some_of {α : Type} {x : Option α} {p : α → Bool} (h : x.any p = true) : ∃ y, x = some y ∧ p y = true := by
  cases x with
  | none => cases h
  | some y => exact ⟨y, rfl, h⟩

theorem ok_of {ε α : Type} {x : Except ε α} {p : α → Bool} (h : (match x with | .ok y => p y | .error _ => false) = true) : ∃ y, x = .ok y ∧ p y = true := by
  cases x with
  | error e => cases h
  | ok y => exact ⟨y, rfl, h⟩

theorem noColls_of {s : State} (h : s.ctxs.all (fun (x : Nat × Ctx) => x.2.descs.all (fun d => match d.work with
    | .coll _ => false
    | _ => true)) = true) : s.noColls := by
  intro x hx d hd r e
  have := List.all_eq_true.mp (List.all_eq_true.mp h x hx) d hd
  rw [e] at this
  cases this

theorem witness_TileSleepStates : (up.tile (0 : TileId)).sleep = .running ∧ up.tileIdle (0 : TileId) = true ∧ up.mayOff (0 : TileId) = false ∧
    (up.tile (0 : TileId)).seq.owner = none ∧ (∀ x ∈ (up.tile (0 : TileId)).clusters, x.2.desc = false) ∧ fld (up.reg rSleepCtl) 0 16 ≠ 0 ∧ bitOf (up.reg rSleepCtl) 24 = true ∧
    (∀ t ∈ dieTiles (1 : DieId), (up.tile t).waking = false ∧ ((up.tile t).sleep = .doze ∨ (up.tile t).sleep = .off)) ∧
    (let s := { up with tiles := [(0, { sleep := .doze, waking := true })] }
     (∃ t ∈ dieTiles (0 : DieId), (s.tile t).waking = true) ∧ (s.tile (0 : TileId)).sleep ≠ .running ∧ (s.tile (0 : TileId)).waking = true ∧
      s.clockOn (2 + (0 : TileId) / 12) = true ∧ s.dieRailOff ((0 : TileId) / 12) = false) := by decide +kernel

theorem witness_RegisterAccesses : rom.chip.stage ≠ 4 ∧ earlyBlock 0x200010 = false ∧ up.chip.stage = 4 ∧ wide64 (rHwinBase 0 0) = true ∧
    up.mayWrite .pf (rHwinBase 0 0) = true ∧ wide64 (rHwinBase 1 0) = true ∧ up.mayWrite .pf (rHwinBase 1 0) = false ∧ (up.bar0Word 0x20).2 = none := by decide +kernel

theorem witness_TileMaskWrite : up.chip.stage = 4 ∧ (up.ctx (0 : CtxId)).state = .active ∧ (up.ctx (1 : CtxId)).state = .idle ∧
    (∀ k : CtxId, k ≠ 1 → (up.ctx k).mask &&& (BitVec.ofNat 96 (0 + (8#32).toNat * 2 ^ 64)) = 0#96) ∧
    (∃ k : CtxId, k ≠ 1 ∧ (up.ctx k).mask &&& 1#96 ≠ 0#96) := by decide +kernel

theorem witness_ContextLife : up.chip.stage = 4 ∧ (up.ctx (2 : CtxId)).state = .off ∧ (up.ctx (2 : CtxId)).run = false ∧ (1 : CtxId).val ≠ 0 ∧ (up.ctx (1 : CtxId)).enable = true ∧
    up.holds (.vf 1) (1 : CtxId) = true ∧ (up.ctx (1 : CtxId)).state = .idle ∧ up.badRing (1 : CtxId) = some 16 ∧ up.holds .pf (0 : CtxId) = true ∧ (up.ctx (0 : CtxId)).state = .active ∧
    (up.ctx (0 : CtxId)).descs = [] ∧
    (let s := { up with regs := [(rCqCfg 1, 0x8200#64), (rRingCfg 1 0, 0x80000000#64)] }
     s.holds (.vf 1) (1 : CtxId) = true ∧ (s.ctx (1 : CtxId)).state = .idle ∧ s.badRing (1 : CtxId) = none ∧ s.reg (rQueueBase (1 : CtxId)) = 0 ∧ s.reg (rTrigCfg (1 : CtxId)) = 0 ∧
      (s.ctx (1 : CtxId)).rings = []) ∧
    (let s := { up with ctxs := [(0, { up.ctx 0 with state := .faulted, cause := 2 })] }
     s.holds .pf (0 : CtxId) = true ∧ (s.ctx (0 : CtxId)).state = .faulted ∧ (s.ctx (0 : CtxId)).run = true ∧ (s.ctx (0 : CtxId)).held = [] ∧ (s.ctx (0 : CtxId)).rings = []) := by
  decide +kernel

theorem witness_ContextResetCompletes : ({ up with ctxs := [(0, { up.ctx 0 with state := .resetting })] }.ctx (0 : CtxId)).state = .resetting := by decide

theorem witness_RingConfiguration : up.chip.stage = 4 ∧ up.holds .pf (0 : CtxId) = true ∧ up.ringOn (0 : CtxId) (0 : RingId) = false ∧ (0x80000000#32).getLsbD 31 = true ∧
    up.cqOn (0 : CtxId) = false ∧ (0x8000#32).getLsbD 15 = true ∧ (up.ctx (0 : CtxId)).held = [] ∧
    (let s := { up with regs := [(rCqCfg 0, 0x8200#64), (rRingCfg 0 0, 0x80000000#64)] }
     s.ringOn (0 : CtxId) (0 : RingId) = true ∧ s.cqOn (0 : CtxId) = true ∧ (s.ctx (0 : CtxId)).state ≠ .idle) ∧
    (let s := { up with regs := [(rCqCfg 1, 0x8200#64), (rRingCfg 1 0, 0x80000000#64)] }
     s.holds (.vf 1) (1 : CtxId) = true ∧ s.ringOn (1 : CtxId) (0 : RingId) = true ∧ s.cqOn (1 : CtxId) = true ∧ (s.ctx (1 : CtxId)).state = .idle ∧
      (0#32).getLsbD 31 = false ∧ (0#32).getLsbD 15 = false) := by decide +kernel

/-- A context whose completion ring of 64 slots holds `produced` records not consumed, with these records held. -/
def ringed (produced : Nat) (hs : List Rec) (ds : List Desc) : State := { up with
  regs := [(rCqCfg 0, 0x8000#64), (rRingCfg 0 0, 0x80000000#64)]
  ctxs := [(0, { up.ctx 0 with produced := produced, held := hs, descs := ds })] }

theorem cqTakes_of {s : State} {c n : Nat} (h : (s.cqOn c && s.pathUp (s.ctx c).func && !(s.ctx c).cqHold && decide ((s.ctx c).produced + n ≤ (s.ctx c).consumed + s.cqSize c) &&
    decide (n ≤ s.cqSize c) && decide (s.denied (s.ctx c).func = []) && s.host.data.wf) = true) : s.cqTakes c n := by
  simp only [Bool.and_eq_true, decide_eq_true_eq, Bool.not_eq_true'] at h
  exact ⟨h.1.1.1.1.1.1, h.1.1.1.1.1.2, h.1.1.1.1.2, h.1.1.1.2, h.1.1.2, h.1.2, h.2⟩

theorem witness_ContextResetCompletes_records :
    (let s := (ringed 0 [] [{ ring := 0, pos := 0, bytes := 0 }]).setCtx 0 { (ringed 0 [] [{ ring := 0, pos := 0, bytes := 0 }]).ctx 0 with state := .resetting }
     (s.ctx (0 : CtxId)).state = .resetting ∧ (s.ctx (0 : CtxId)).held = [] ∧ s.cqTakes (0 : CtxId) 1) ∧
    (let s := { up with ctxs := [(0, { up.ctx 0 with state := .resetting })] }
     (s.ctx (0 : CtxId)).state = .resetting ∧ s.cqReady (0 : CtxId) = false) :=
  ⟨⟨by decide +kernel, by decide +kernel, cqTakes_of (by decide +kernel)⟩, by decide +kernel⟩

/-- A full completion ring with one record held: a CQ_DB of one consumed record lets it go out. -/
theorem witness_DoorbellWrites_held :
    (let s := ringed 64 [⟨List.replicate 32 0#8, false⟩] []
     s.holds .pf (0 : CtxId) = true ∧ (s.ctx (0 : CtxId)).state ≠ .off ∧ (s.ctx (0 : CtxId)).state ≠ .resetting ∧
      (1#32 - BitVec.ofNat 32 (s.ctx (0 : CtxId)).consumed).toNat ≤ (s.ctx (0 : CtxId)).produced - (s.ctx (0 : CtxId)).consumed ∧
      (∀ r ∈ (s.ctx (0 : CtxId)).held, r.bytes.length = 32) ∧
      (s.setCtx (0 : CtxId) { s.ctx (0 : CtxId) with consumed := (s.ctx (0 : CtxId)).consumed + (1#32 - BitVec.ofNat 32 (s.ctx (0 : CtxId)).consumed).toNat }).cqTakes
        (0 : CtxId) (s.ctx (0 : CtxId)).held.length) :=
  ⟨by decide +kernel, by decide +kernel, by decide +kernel, by decide +kernel, by decide +kernel, cqTakes_of (by decide +kernel)⟩

/-- The clauses meet at the free slots: 64 new descriptors fill a ring of 64 slots, 65 do not fit. -/
theorem witness_DoorbellWrites : up.chip.stage = 4 ∧ up.holds .pf (0 : CtxId) = true ∧ up.holds (.vf 1) (1 : CtxId) = true ∧ (up.ctx (1 : CtxId)).state = .idle ∧
    (let s := { up with ctxs := [(0, { up.ctx 0 with state := .faulted })] }
     s.holds .pf (0 : CtxId) = true ∧ (s.ctx (0 : CtxId)).state = .faulted) ∧
    (let s := { up with regs := [(rRingCfg 0 0, 0x80000000#64)] }
     let r : Ring := (s.ctx (0 : CtxId)).rings.get ({} : Ring) (0 : RingId)
     s.holds .pf (0 : CtxId) = true ∧ (s.ctx (0 : CtxId)).state = .active ∧ s.ringOn (0 : CtxId) (0 : RingId) = true ∧
      (64#32 - BitVec.ofNat 32 r.published).toNat ≤ s.ringSize (0 : CtxId) (0 : RingId) - (r.published - r.fetched) ∧ r.published - r.fetched ≤ s.ringSize (0 : CtxId) (0 : RingId) ∧
      s.ringSize (0 : CtxId) (0 : RingId) < r.published - r.fetched + (65#32 - BitVec.ofNat 32 r.published).toNat) ∧
    (let s := { up with ctxs := [(0, { up.ctx 0 with produced := 3 })] }
     (s.ctx (0 : CtxId)).state ≠ .off ∧ (s.ctx (0 : CtxId)).state ≠ .resetting ∧ (s.ctx (0 : CtxId)).held = [] ∧ (s.ctx (0 : CtxId)).state ≠ .faulted ∧
      (3#32 - BitVec.ofNat 32 (s.ctx (0 : CtxId)).consumed).toNat ≤ (s.ctx (0 : CtxId)).produced - (s.ctx (0 : CtxId)).consumed ∧
      (s.ctx (0 : CtxId)).produced - (s.ctx (0 : CtxId)).consumed < (4#32 - BitVec.ofNat 32 (s.ctx (0 : CtxId)).consumed).toNat) := by decide +kernel

/-- Two rings that may be fetched from, ring 1 of the lower PRIO; three published descriptors, of which host memory denies the second. -/
def fetchS (deny : List (Func × Nat × Nat)) : State := { up with
  regs := [(rRingCfg 0 0, 0x80000000#64), (rRingBase 0 0, 0x1000#64), (rRingCfg 0 1, 0x80000000#64)]
  host := { deny := deny }
  ctxs := [(0, { up.ctx 0 with rings := [(0, { published := 3 }), (1, { published := 1 })] })] }

theorem witness_FetchAndCompletion_fetch :
    (let s := fetchS []
     s.nextRing = some (0, 0) ∧ s.mayFetch (0 : CtxId) = true ∧ s.fetchable (0 : CtxId) (1 : RingId) = true ∧
      (∀ i, i < 3 → (s.hostRead (s.ctx (0 : CtxId)).func (s.reg (rRingBase (0 : CtxId) 0) + 64 * ((((s.ctx (0 : CtxId)).rings.get ({} : Ring) 0).fetched + i) % s.ringSize (0 : CtxId) 0)) 64).stop = none)) ∧
    (let s := fetchS [(.pf, 0x1040, 4)]
     s.nextRing = some (0, 0) ∧ (s.hostRead (s.ctx (0 : CtxId)).func 0x1000 64).stop = none ∧ (s.hostRead (s.ctx (0 : CtxId)).func 0x1040 64).stop.isSome = true) ∧
    up.nextRing = none := by decide +kernel

theorem witness_FetchAndCompletion_record :
    (let d : Desc := { ring := 0, pos := 0, bytes := 0, ending := some { status := stOk }, start := some 0 }
     let s := ringed 3 [] [d]
     s.desc? (0 : CtxId) (0 : RingId) 0#32 = some d ∧ (s.ctx (0 : CtxId)).state = .active ∧ (s.ctx (0 : CtxId)).held = [] ∧ (s.ctx (0 : CtxId)).strict = false ∧
      (s.ctx (0 : CtxId)).mile.commit = none ∧ (s.ctx (0 : CtxId)).pair = none ∧ (∀ y ∈ (s.ctx (0 : CtxId)).descs, y.work = .idle) ∧ s.cqTakes (0 : CtxId) 1 ∧
      d.irq = false ∧ atLeast1 (fld (s.reg (rCqCfg (0 : CtxId))) 24 8) ≤ (s.ctx (0 : CtxId)).coalN + 1 ∧
      fld ({ s with regs := [(rCqCfg 0, 0x2008000#64)] }.reg (rCqCfg (0 : CtxId))) 24 8 = 2) :=
  ⟨by decide +kernel, by decide +kernel, by decide +kernel, by decide +kernel, by decide +kernel, by decide +kernel, by decide +kernel, cqTakes_of (by decide +kernel), by decide +kernel,
    by decide +kernel, by decide +kernel⟩

theorem witness_FetchAndCompletion :
    (let d := { dsc [(0, 2)] with ending := some { status := stOk }, start := some 0 }
     let s := with1 d
     s.desc? (0 : CtxId) (0 : RingId) 0#32 = some d ∧ (s.ctx (0 : CtxId)).state = .active ∧ (s.ctx (0 : CtxId)).strict = false ∧ (s.ctx (0 : CtxId)).held = [] ∧
      s.cqReady (0 : CtxId) = false ∧ (s.ctx (0 : CtxId)).mile.commit = none ∧ (s.ctx (0 : CtxId)).pair = none ∧ (∀ y ∈ (s.ctx (0 : CtxId)).descs, y.work = .idle)) ∧
    (let s := { up with regs := [(rCqCfg 0, 0x10000#64)], ctxs := [(0, { up.ctx 0 with coalN := 1 })] }
     0 < (s.ctx (0 : CtxId)).coalN ∧ fld (s.reg (rCqCfg (0 : CtxId))) 16 8 ≠ 0) ∧
    (let d := { dsc [(0, 2)] with start := some 0, work := .hostWait }
     (with1 d).desc? (0 : CtxId) (0 : RingId) 0#32 = some d ∧ d.opcode = 2 ∧ d.start.isSome = true ∧ d.ending = none ∧ d.work = .hostWait) := by decide +kernel

/-- Descriptors of opcode 0x00 and 0x11, where the defined opcodes end. -/
def op00 : Desc := dsc []
def op11 : Desc := dsc [(0, 0x11)]

theorem witness_UndefinedOpcodeCompletesWithFormat : (with1 op00).desc? (0 : CtxId) (0 : RingId) 0#32 = some op00 ∧ (with1 op00).mayStart (0 : CtxId) op00 = true ∧ op00.opcode = 0 ∧
    (with1 op11).desc? (0 : CtxId) (0 : RingId) 0#32 = some op11 ∧ (with1 op11).mayStart (0 : CtxId) op11 = true ∧ 0x11 ≤ op11.opcode := by decide +kernel

def fenceD : Desc := dsc [(0, 1)]
/-- COPY of 4 bytes from object 1 to object 2. -/
def copyD : Desc := dsc [(0, 2), (16, ref 1 0), (24, ref 2 8), (32, 4)]
/-- COPY of which the source leaves its object. -/
def copyBad : Desc := dsc [(0, 2), (16, ref 1 (2 ^ 21)), (24, ref 2 8), (32, 4)]

theorem witness_FenceAndCopy : fenceD.opcode = 1 ∧ (with1 fenceD).Passes (0 : CtxId) (0 : RingId) 0#32 fenceD (fun _ _ => { reserved := [(18, 46)] }) ∧
    (∀ y ∈ ((with1 fenceD).ctx (0 : CtxId)).descs, y.ring = fenceD.ring ∧ y.pos = fenceD.pos) ∧ copyD.opcode = 2 ∧
    (with1 copyD).Passes (0 : CtxId) (0 : RingId) 0#32 copyD (copyChk (0 : CtxId)) ∧
    (let s1 := ((with1 copyD).beginDesc (0 : CtxId) copyD).touchRefs (0 : CtxId) [copyD.num 16 8, copyD.num 24 8]
     let g := s1.readTarget (0 : CtxId) (s1.resolve (0 : CtxId) (copyD.num 16 8)) (copyD.num 32 8)
     g.stop = none ∧ (s1.resolve (0 : CtxId) (copyD.num 16 8)).isHost = (s1.resolve (0 : CtxId) (copyD.num 24 8)).isHost ∧
      ∃ s2, s1.writeTarget (0 : CtxId) (s1.resolve (0 : CtxId) (copyD.num 24 8)) g.data = (s2, none)) ∧
    (with1 copyBad).Fails (0 : CtxId) (0 : RingId) 0#32 copyBad (copyChk (0 : CtxId)) { status := 0x02#8, secondary := 0x8020#16 } :=
  ⟨by decide +kernel, passes_of (by decide +kernel), by decide +kernel, by decide +kernel, passes_of (by decide +kernel), ⟨by decide +kernel, by decide +kernel, done_of (by decide +kernel)⟩, fails_of (by decide +kernel)⟩

/-- COPY of 4 bytes from object 1 to host window 0. -/
def copyOut : Desc := dsc [(0, 2), (16, ref 1 0), (24, 2 ^ 60), (32, 4)]
/-- The context with a window of 4,096 bytes at host address 0x1000. -/
def windowed (d : Desc) : State := { with1 d with regs := (rHwinBase 0 0, 0x1000#64) :: (rHwinSize 0 0, 0x1000#64) :: (with1 d).regs }

theorem witness_FenceAndCopy_host : copyOut.opcode = 2 ∧ (windowed copyOut).Passes (0 : CtxId) (0 : RingId) 0#32 copyOut (copyChk (0 : CtxId)) ∧
    (let s1 := ((windowed copyOut).beginDesc (0 : CtxId) copyOut).touchRefs (0 : CtxId) [copyOut.num 16 8, copyOut.num 24 8]
     let a := s1.resolve (0 : CtxId) (copyOut.num 16 8)
     let b := s1.resolve (0 : CtxId) (copyOut.num 24 8)
     let g := s1.readTarget (0 : CtxId) a (copyOut.num 32 8)
     g.stop = none ∧ a.isHost ≠ b.isHost ∧ ∃ s2, ({ s1 with fresh := s1.fresh + 1 }.writeTarget (0 : CtxId) b (s1.copyBytes a b g.data)) = (s2, none)) :=
  ⟨by decide +kernel, passes_of (by decide +kernel), by decide +kernel, by decide +kernel, done_of (by decide +kernel)⟩

theorem witness_PowerManager : (⟨4650, 3600, 4000, 40, 55, [], []⟩ : PowerSample).c ≠ 0 := by decide

theorem witness_MarginPlans : up.chip.stage = 4 ∧ (∃ x ∈ [((0 : DieId), (19 : Int))], x.2 < 20) ∧ (∀ x ∈ [((0 : DieId), (20 : Int))], 20 ≤ x.2) := by decide

/-- SELFTEST of OP op: tiles 0 and 1 (ports for op 3), with its result area in object 1. -/
def testD (op secs : Nat) : Desc := dsc [(0, 0x10), (16, op), (20, secs), (24, if op = 3 then 0 else 3), (40, if op = 3 then 3 else 0), (48, ref 1 0), (56, 48)]
def testS (op secs : Nat) : State := { with1 (testD op secs) with fabric := { ports := [(0, { state := 6 }), (1, { state := 6 })] } }

/-- That a SELFTEST passes its checks and its result area is written, with the outcomes of its units. -/
def testRunsIn (op : Nat) (s : State) (d : Desc) : Prop := s.Passes (0 : CtxId) (0 : RingId) 0#32 d (selftestChk op (0 : CtxId)) ∧ isSelftest op d = true ∧
  ∃ s2, (s.beginDesc (0 : CtxId) d).writeTarget (0 : CtxId) ((s.beginDesc (0 : CtxId) d).resolve (0 : CtxId) (d.num 48 8))
    (selftestResult op (s.begun d) ((selftestUnits op d).zipIdx.map (fun (u : Nat × Nat) => (u.1, [⟨1, 3, 0#16, 90, 0#64⟩, ⟨0, 0, 9#16, 80, 0#64⟩].getD u.2 noObs)))) = (s2, none)
def testRuns (op secs : Nat) : Prop := testRunsIn op (testS op secs) (testD op secs)

theorem witness_SelfTests : up.chip.stage = 4 ∧ bitOf (up.reg rStCtl) 31 = true ∧
    (let s := { up with tiles := [(0, { sleep := .running, slice := .pending })] }
     (s.tile (0 : TileId)).slice = .pending ∧ s.tileFenced (0 : TileId) = false ∧ s.sliceFree (0 : TileId) = true ∧ s.slices allTiles < 4 ∧
      (∀ x ∈ s.tiles, x.2.slice ≠ .running) ∧ s.dieRailOff ((0 : TileId) / 12) = false ∧ s.tileCtx (0 : TileId) ≠ none) ∧
    (let s := { up with tiles := [(0, { sleep := .gated, slice := .pending })] }
     (s.tile (0 : TileId)).slice = .pending ∧ s.tileFenced (0 : TileId) = false ∧ s.sliceFree (0 : TileId) = true ∧ (s.tile (0 : TileId)).sleep ≠ .running) ∧
    (let s := { up with tiles := [(90, { sleep := .running, slice := .pending })] }
     (s.tile (90 : TileId)).slice = .pending ∧ s.tileFenced (90 : TileId) = false ∧ s.sliceFree (90 : TileId) = true ∧ s.tileCtx (90 : TileId) = none ∧ s.slices allTiles < 4 ∧
      s.dieRailOff ((90 : TileId) / 12) = false) ∧
    (let s := { up with tiles := [(0, { sleep := .running, slice := .running })] }
     (s.tile (0 : TileId)).slice = .running ∧ s.tileCtx (0 : TileId) ≠ none ∧ (s.tile (0 : TileId)).seq.yielded = false ∧ (s.tile (0 : TileId)).seq.owner = none) ∧
    (let s := { up with tiles := [(90, { sleep := .running, slice := .running, sliceNext := true })] }
     (s.tile (90 : TileId)).slice = .running ∧ s.tileCtx (90 : TileId) = none ∧ (s.tile (90 : TileId)).sliceNext = true) := by decide +kernel

theorem witness_SelfTests_slice : testRuns 1 0 ∧ ∀ k ∈ selftestUnits 1 (testD 1 0), ((testS 1 0).tile k).seq.owner = none ∧ ((testS 1 0).tile k).slice ≠ .running :=
  ⟨⟨passes_of (by decide +kernel), by decide +kernel, done_of (by decide +kernel)⟩, by decide +kernel⟩
theorem witness_SelfTests_stress : testRuns 2 3600 := ⟨passes_of (by decide +kernel), by decide +kernel, done_of (by decide +kernel)⟩
/-- STRESS with UNFENCE of a fenced tile 1, which passes, and tile 0, which fails. -/
def unfenceD : Desc := dsc [(0, 0x10), (16, 2), (17, 1), (20, 3600), (24, 3), (48, ref 1 0), (56, 48)]
theorem witness_SelfTests_unfence : testRunsIn 2 { with1 unfenceD with flash := { tileFence := 2#96 } } unfenceD ∧ bitOf (unfenceD.num 17 1) 0 = true ∧
    { with1 unfenceD with flash := { tileFence := 2#96 } }.tileFenced 1 = true ∧ selftestUnits 2 unfenceD = [0, 1] :=
  ⟨⟨passes_of (by decide +kernel), by decide +kernel, done_of (by decide +kernel)⟩, by decide +kernel⟩
theorem witness_SelfTests_portLoop : testRuns 3 60000 := ⟨passes_of (by decide +kernel), by decide +kernel, done_of (by decide +kernel)⟩

/-- Context 0 samples to a buffer at its object 1, offset o; tile 0 has the tagged instruction w, issued from offset 16 and ended, and prep core
5 of its cluster 0 runs. -/
def sampling (o : Nat) (w : TileWord) : State :=
  let s := { with1 (dsc []) with regs := (rPmcTag 0, 0x80800000#64) :: (rPmcCfg 0, 0x80010000#64) :: (rPmcBuf 0, BitVec.ofNat 64 (ref 1 o)) :: (with1 (dsc [])).regs }
  (s.setTile 0 { s.tile 0 with tags := [⟨none, 16, w, 7#64⟩] }).modCore 0 0 5 (fun y => { y with running := true })

/-- The clauses of PMC_SAMPLE meet at the extent: a buffer of 32 bytes holds slot 0 and nothing of slot 1. -/
theorem witness_PerformanceCounters :
    (let s := { up with regs := [(rPmcSel 0 0, 0x80000001#64)] }
     s.openCounter (0 : TileId) (0 : Fin 16) = true) ∧ up.openCounter (0 : TileId) (0 : Fin 16) = false ∧ 4 ≤ (4 : Fin 16).val ∧ (7 : Fin 16).val ≤ 7 ∧
    (let s := sampling (2 ^ 21 - 32) (BitVec.ofNat 128 (2 ^ 124 + 2 ^ 121 + 4 * 2 ^ 54))
     let u := s.setCtx 0 { s.ctx 0 with pmcProduced := 1#32 }
     s.tileCtx (0 : TileId) = some 0 ∧ s.pmcOn 0 = true ∧ ((s.tile (0 : TileId)).tagDone.map (fun g => (g.pc, tclass g.word, top g.word))) = some (16, 1, 2) ∧
      32 * ((s.ctx 0).pmcProduced.toNat % 2 ^ (min (fld (s.reg (rPmcCfg 0)) 0 4) 10 + 6)) + 32 ≤ (s.resolve 0 (s.reg (rPmcBuf 0))).extent ∧
      u.tileCtx (0 : TileId) = some 0 ∧ u.pmcOn 0 = true ∧ (u.tile (0 : TileId)).tagDone = (s.tile (0 : TileId)).tagDone ∧
      (u.resolve 0 (u.reg (rPmcBuf 0))).extent < 32 * ((u.ctx 0).pmcProduced.toNat % 2 ^ (min (fld (u.reg (rPmcCfg 0)) 0 4) 10 + 6)) + 32 ∧
      bitOf (s.reg (rPmcTag (0 : TileId))) 23 = true ∧ s.turnCore (0 : TileId) (0 : Fin 27) = some 5 ∧ s.turnCore (0 : TileId) (1 : Fin 27) = none ∧
      u.turnCore (0 : TileId) (0 : Fin 27) = some 5 ∧ up.turnCore (0 : TileId) (0 : Fin 27) = none ∧ (up.tile (0 : TileId)).tagDone = none ∧
      bitOf (up.reg (rPmcTag (0 : TileId))) 23 = false ∧
      fld (s.reg (rPmcCfg 0)) 16 15 ≠ 0 ∧ (s.ctx (0 : CtxId)).mask.toNat.testBit (95 : TileId) = false) := by decide +kernel

/-- EXEC of tiles 0 and 1: 16 bytes of program in object 1, 16 bytes of arguments in object 2. -/
def execD : Desc := dsc [(0, 3), (16, ref 1 0), (24, 3), (36, 16), (40, ref 2 0), (48, 16)]
/-- The same EXEC in progress. -/
def runD (r : ExecRun) : Desc := { execD with start := some 0, work := .exec r }
def run0 : ExecRun := { tiles := 3#96, running := 3#96, code := BitVec.ofNat 64 (ref 1 0), codeBytes := 16, args := 0#64, argBytes := 0 }

theorem witness_ExecRuns : execD.opcode = 3 ∧ (with1 execD).Passes (0 : CtxId) (0 : RingId) 0#32 execD (execChk (0 : CtxId)) ∧
    ((with1 execD).holdExec (0 : CtxId) = false ∧ ((with1 execD).ctx (0 : CtxId)).editHolds = false ∧ (with1 execD).redundant (0 : CtxId) = false ∧
      (∀ y ∈ ((with1 execD).ctx (0 : CtxId)).descs, y.work = .idle) ∧
      (∀ k ∈ [0, 1], ((with1 execD).tile k).seq.owner = none ∧ ((with1 execD).tile k).slice ≠ .running) ∧
      ({ with1 execD with tiles := [(1, { sleep := .running, slice := .running })] }.tile 1).slice = .running) ∧
    (let r := { run0 with ending := some { status := stBounds } }
     (with1 (runD r)).desc? (0 : CtxId) (0 : RingId) 0#32 = some (runD r) ∧ (runD r).work = .exec r ∧ (runD r).ending = none ∧ r.ending = some { status := stBounds } ∧
      (with1 (runD r)).runSafe ((0 : CtxId).val, (runD r).ring, (runD r).pos) r = true) ∧
    (let x : Overflow := { count := 5, nonfinite := false, saturated := true, tile := 0, wide := some (2, 32, 3) }
     let r := { run0 with overflow := some x }
     (with1 (runD r)).desc? (0 : CtxId) (0 : RingId) 0#32 = some (runD r) ∧ (runD r).work = .exec r ∧ r.ending = none ∧ r.running ≠ 0#96 ∧ r.overflow = some x ∧ x.wide = some (2, 32, 3) ∧
      (with1 (runD r)).runSafe ((0 : CtxId).val, (runD r).ring, (runD r).pos) r = true ∧
      (with1 (runD r)).repeatFree ((0 : CtxId).val, (runD r).ring, (runD r).pos) r = true) ∧
    up.chip.stage = 4 ∧ up.holds (.vf 1) (1 : CtxId) = true ∧ (up.ctx (1 : CtxId)).state = .idle ∧ ¬((9#32).getLsbD 0 = true ∧ ((9#32).getLsbD 1 = true ∨ (9#32).getLsbD 2 = true)) ∧
    ((3#32).getLsbD 0 = true ∧ ((3#32).getLsbD 1 = true ∨ (3#32).getLsbD 2 = true)) :=
  ⟨by decide +kernel, passes_of (by decide +kernel), by decide +kernel, by decide +kernel, by decide +kernel, by decide +kernel⟩

theorem writes_of {s : State} {c : Nat} {t : Target} (w : (match t.space with | .dev _ => true | _ => false) = true) (r : s.readOnly t = false) (bs : List Byte) :
    ∃ s2, s.writeTarget c t bs = (s2, none) := by
  refine done_of ?_
  unfold State.writeTarget
  split
  · rw [if_neg (by rw [r]; decide)]
  · next e => rw [e] at w; cases w
  · next e => rw [e] at w; cases w

/-- QUERY of WHAT what, 16 bytes to object 1. -/
def queryD (what : Nat) : Desc := dsc [(0, 15), (16, what), (20, 16), (24, ref 1 0), (32, if what = 4 then 2 else 0)]

/-- That a QUERY passes its checks from s, and that any bytes can be written where it writes. -/
def queryRuns (what : Nat) (s : State) (d : Desc) : Prop := s.Passes (0 : CtxId) (0 : RingId) 0#32 d (queryChk what (0 : CtxId)) ∧ isQuery what d = true ∧
  ∀ bs, ∃ s2, ((s.beginDesc (0 : CtxId) d).touchRefs (0 : CtxId) [d.num 24 8]).writeTarget (0 : CtxId)
    (((s.beginDesc (0 : CtxId) d).touchRefs (0 : CtxId) [d.num 24 8]).resolve (0 : CtxId) (d.num 24 8)) bs = (s2, none)

theorem queryRuns_of {what : Nat} {s : State} {d : Desc} (h : s.Passes (0 : CtxId) (0 : RingId) 0#32 d (queryChk what (0 : CtxId))) (k : isQuery what d = true)
    (w : (match (((s.beginDesc (0 : CtxId) d).touchRefs (0 : CtxId) [d.num 24 8]).resolve (0 : CtxId) (d.num 24 8)).space with | .dev _ => true | _ => false) = true)
    (r : ((s.beginDesc (0 : CtxId) d).touchRefs (0 : CtxId) [d.num 24 8]).readOnly
      (((s.beginDesc (0 : CtxId) d).touchRefs (0 : CtxId) [d.num 24 8]).resolve (0 : CtxId) (d.num 24 8)) = false) : queryRuns what s d := by
  exact ⟨h, k, writes_of w r⟩

theorem witness_QueriesWriteTheirRecord : queryRuns 1 (with1 (queryD 1)).bump (queryD 1) ∧ queryRuns 2 (with1 (queryD 2)) (queryD 2) ∧ queryRuns 3 (with1 (queryD 3)) (queryD 3) ∧
    queryRuns 4 (with1 (queryD 4)) (queryD 4) ∧ queryRuns 5 (with1 (queryD 5)) (queryD 5) ∧ queryRuns 6 (with1 (queryD 6)) (queryD 6) ∧ queryRuns 7 (with1 (queryD 7)) (queryD 7) ∧
    queryRuns 8 (with1 (queryD 8)) (queryD 8) :=
  ⟨queryRuns_of (passes_of (by decide +kernel)) (by decide +kernel) (by decide +kernel) (by decide +kernel), queryRuns_of (passes_of (by decide +kernel)) (by decide +kernel) (by decide +kernel) (by decide +kernel),
    queryRuns_of (passes_of (by decide +kernel)) (by decide +kernel) (by decide +kernel) (by decide +kernel), queryRuns_of (passes_of (by decide +kernel)) (by decide +kernel) (by decide +kernel) (by decide +kernel),
    queryRuns_of (passes_of (by decide +kernel)) (by decide +kernel) (by decide +kernel) (by decide +kernel), queryRuns_of (passes_of (by decide +kernel)) (by decide +kernel) (by decide +kernel) (by decide +kernel),
    queryRuns_of (passes_of (by decide +kernel)) (by decide +kernel) (by decide +kernel) (by decide +kernel), queryRuns_of (passes_of (by decide +kernel)) (by decide +kernel) (by decide +kernel) (by decide +kernel)⟩

/-- A tile instruction from (lowest bit, value) pairs. -/
def iw (l : List (Nat × Nat)) : TileWord := BitVec.ofNat 128 ((l.map (fun (x : Nat × Nat) => x.2 * 2 ^ x.1)).sum)

/-- The first EXEC in progress with w as the only instruction of its program: tile 0 has its matrix unit and queues as in x. -/
def prog (w : TileWord) (x : Tile) : State := { with1 (runD run0) with
  mem := { (with1 (runD run0)).mem with data := Mem.writeN [] 0 (leBytes 16 w.toNat) }
  tiles := [(0, { x with sleep := .running, seq := { x.seq with owner := some (0, 0, 0) } }), (1, { sleep := .running }), (2, { sleep := .running })] }

theorem insn_of {f : Found} {a : Nat} {w : TileWord} (h : (match f with | .insn b v => decide (b = a ∧ v = w) | _ => false) = true) : f = .insn a w := by
  cases f with
  | insn b v => obtain ⟨rfl, rfl⟩ := of_decide_eq_true h; rfl
  | _ => cases h

theorem atIssue_of {s : State} {t k cls op a : Nat} {w : TileWord}
    (h : ((match s.window t k with | .insn b v => decide (b = a ∧ v = w) | _ => false) && decide (tclass w = cls ∧ top w = op) && passes ((s.tile t).seq.held.take k) w) = true) :
    s.AtIssue t k cls op a w := by
  simp only [Bool.and_eq_true] at h
  have e := of_decide_eq_true h.1.2
  exact ⟨insn_of h.1.1, e.1, e.2, h.2⟩

theorem legal_of {l m : Legal} (h : (match l, m with | .ok, .ok => true | .zero, .zero => true | .bad a, .bad b => decide (a = b) | _, _ => false) = true) : l = m := by
  cases l <;> cases m <;> first | rfl | (cases h; done) | (rw [of_decide_eq_true h])

/-- MLOAD of a set of 192 by 192 from address 0. -/
def wLoad : TileWord := iw [(124, 1), (120, 1), (104, 192), (96, 192)]
/-- MPASS of 4 rows into accumulator tile 0, FIRST and LAST. -/
def wPass : TileWord := iw [(124, 1), (120, 2), (115, 1), (114, 1), (54, 4)]
/-- A stream MPASS of 4 rows. -/
def wStream : TileWord := iw [(124, 1), (120, 2), (115, 1), (114, 1), (113, 1), (54, 4)]
/-- MDRAIN of 1 row of accumulator tile 0 as FP32. -/
def wDrain : TileWord := iw [(124, 1), (120, 3), (89, 1)]
def wArm : TileWord := iw [(124, 1), (120, 3), (115, 1)]
/-- MCLEAR of accumulator tiles 0 and 15. -/
def wClear : TileWord := iw [(124, 1), (120, 4), (96, 0x8001)]
def wStat : TileWord := iw [(124, 1), (120, 5)]
def wRead : TileWord := iw [(124, 1), (120, 6), (89, 1)]
def wWrite : TileWord := iw [(124, 1), (120, 7), (89, 1)]
/-- A tile whose accumulator tile 0 is Open (1), Closed (2) or Drained (3). -/
def scored (v : Nat) : Tile := { mx := Matrix.setState {} 0 v }
/-- As `prog`, for an EXEC with DEBUG. -/
def debug (w : TileWord) : State := { prog w {} with ctxs := [(0, { up.ctx 0 with descs := [runD { run0 with debug := true }] })] }

theorem witness_MatrixInstructionsIssue_load : (prog wLoad {}).AtIssue (0 : TileId) 0 1 1 0 wLoad ∧ mloadLegal ((prog wLoad {}).tileAk6 (0 : TileId)) wLoad = .ok ∧
    ((prog wLoad {}).tile (0 : TileId)).mxRoom = true := ⟨atIssue_of (by decide +kernel), legal_of (by decide +kernel), by decide +kernel⟩

/-- A tile with an armed drain of accumulator tile 0. -/
def streamT : Tile := { seq := { nextId := 1, armed := some (0, wArm), busy := [(0, 1)] } }

theorem witness_MatrixInstructionsIssue_pass : (prog wPass {}).AtIssue (0 : TileId) 0 1 2 0 wPass ∧
    mpassLegal ((prog wPass {}).tileAk6 (0 : TileId)) ((prog wPass {}).tile (0 : TileId)).mx.fmtAhead ((prog wPass {}).tile (0 : TileId)).seq.armed wPass = .ok ∧
    (let x := (prog wPass {}).tile (0 : TileId)
     x.mxRoom = true ∧ x.seq.armed = none ∧ tf wPass 113 113 ≠ 1 ∧ tf wPass 115 115 = 1 ∧ x.mx.state (tf wPass 111 108) ≠ 1 ∧ x.mx.drainOn (tf wPass 111 108) = false) ∧
    (prog wStream streamT).AtIssue (0 : TileId) 0 1 2 0 wStream ∧
    mpassLegal ((prog wStream streamT).tileAk6 (0 : TileId)) ((prog wStream streamT).tile (0 : TileId)).mx.fmtAhead ((prog wStream streamT).tile (0 : TileId)).seq.armed wStream = .ok ∧
    (let x := (prog wStream streamT).tile (0 : TileId)
     x.mxRoom = true ∧ x.seq.armed = some (0, wArm) ∧ tf wStream 113 113 = 1 ∧ tf wArm 111 108 = tf wStream 111 108 ∧ tf wStream 115 115 = 1 ∧
       x.mx.state (tf wStream 111 108) ≠ 1 ∧ x.mx.drainOn (tf wStream 111 108) = false) :=
  ⟨atIssue_of (by decide +kernel), legal_of (by decide +kernel), by decide +kernel, atIssue_of (by decide +kernel), legal_of (by decide +kernel), by decide +kernel⟩

theorem witness_MatrixInstructionsIssue_drain : (prog wDrain (scored 2)).AtIssue (0 : TileId) 0 1 3 0 wDrain ∧ mdrainLegal ((prog wDrain (scored 2)).tileAk6 (0 : TileId)) wDrain = .ok ∧
    (let x := (prog wDrain (scored 2)).tile (0 : TileId)
     x.seq.armed = none ∧ (accNames wDrain).drop 1 = [] ∧ tf wDrain 115 115 = 0 ∧ x.mx.state (tf wDrain 111 108) = 2 ∧ x.mx.passOn (tf wDrain 111 108) = false ∧ x.mxRoom = true) ∧
    (prog wArm {}).AtIssue (0 : TileId) 0 1 3 0 wArm ∧ mdrainLegal ((prog wArm {}).tileAk6 (0 : TileId)) wArm = .ok ∧
    (let x := (prog wArm {}).tile (0 : TileId)
     x.seq.armed = none ∧ (accNames wArm).drop 1 = [] ∧ tf wArm 115 115 = 1 ∧ x.mx.state (tf wArm 111 108) ≠ 1 ∧ x.mx.drainOn (tf wArm 111 108) = false ∧ x.mxRoom = true) :=
  ⟨atIssue_of (by decide +kernel), legal_of (by decide +kernel), by decide +kernel, atIssue_of (by decide +kernel), legal_of (by decide +kernel), by decide +kernel⟩

theorem witness_MatrixInstructionsIssue_clear : (prog wClear (scored 3)).AtIssue (0 : TileId) 0 1 4 0 wClear ∧ mclearLegal wClear = .ok ∧
    (let m := ((prog wClear (scored 3)).tile (0 : TileId)).mx
     ((prog wClear (scored 3)).tile (0 : TileId)).mxRoom = true ∧ ∀ b ∈ accNames wClear, m.state b = 0 ∨ 2 ≤ m.state b ∧ m.passOn b = false ∧ m.drainOn b = false) :=
  ⟨atIssue_of (by decide +kernel), legal_of (by decide +kernel), by decide +kernel⟩

theorem witness_MatrixInstructionsIssue_stat : (prog wStat {}).AtIssue (0 : TileId) 0 1 5 0 wStat ∧ mstatLegal wStat = .ok ∧
    ((prog wStat {}).tile (0 : TileId)).mx.queue = [] ∧ ((prog wStat {}).tile (0 : TileId)).mxRoom = true ∧ ((prog wStat {}).tile (0 : TileId)).mx.drains = [] :=
  ⟨atIssue_of (by decide +kernel), legal_of (by decide +kernel), by decide +kernel⟩

theorem witness_MatrixInstructionsIssue_debug : (debug wRead).AtIssue (0 : TileId) 0 1 6 0 wRead ∧ debugLegal ((debug wRead).debugRun (0 : TileId)) wRead = .ok ∧
    (let x := (debug wRead).tile (0 : TileId)
     x.mxRoom = true ∧ x.mx.anyPass = false ∧ x.mx.passOn (tf wRead 111 108) = false) ∧
    (debug wWrite).AtIssue (0 : TileId) 0 1 7 0 wWrite ∧ debugLegal ((debug wWrite).debugRun (0 : TileId)) wWrite = .ok ∧
    ((debug wWrite).tile (0 : TileId)).mxRoom = true ∧ ((debug wWrite).tile (0 : TileId)).mx.state (tf wWrite 111 108) ≠ 1 :=
  ⟨atIssue_of (by decide +kernel), legal_of (by decide +kernel), by decide +kernel, atIssue_of (by decide +kernel), legal_of (by decide +kernel), by decide +kernel⟩

/-- MSTAT of record 0 behind a drain with statistics into it that runs, and behind one that is queued. -/
theorem witness_MatrixInstructionsIssue_behind :
    (let w := iw [(124, 1), (120, 3), (114, 1), (89, 1)]
     let runs : Tile := { mx := { drains := [⟨0, w, false, none⟩] }, seq := { nextId := 1, busy := [(0, 1)] } }
     let waits : Tile := { mx := { queue := [⟨0, w, 0, 0#32, none⟩] }, seq := { nextId := 1, busy := [(0, 1)] } }
     ((prog wStat runs).AtIssue (0 : TileId) 0 1 5 0 wStat ∧ (prog wStat waits).AtIssue (0 : TileId) 0 1 5 0 wStat) ∧ isStats w = true ∧ tf w 83 82 = tf wStat 111 110 ∧ top w ≠ 5 ∧
      ((prog wStat runs).tile (0 : TileId)).mxRoom = true ∧ ((prog wStat waits).tile (0 : TileId)).mxRoom = true) :=
  ⟨⟨atIssue_of (by decide +kernel), atIssue_of (by decide +kernel)⟩, by decide +kernel⟩

/-- Instructions with an illegal field: a format code of 8, reserved bits; MACCR and MACCW without DEBUG. -/
theorem witness_TileInstructionFaults :
    (let w := iw [(124, 1), (120, 1), (116, 8), (104, 192), (96, 192)]
     (prog w {}).AtIssue (0 : TileId) 0 1 1 0 w ∧ mloadLegal ((prog w {}).tileAk6 (0 : TileId)) w = .bad scIllegal) ∧
    (let w := iw [(124, 1), (120, 2), (96, 1), (54, 4)]
     (prog w {}).AtIssue (0 : TileId) 0 1 2 0 w ∧ mpassLegal ((prog w {}).tileAk6 (0 : TileId)) ((prog w {}).tile (0 : TileId)).mx.fmtAhead ((prog w {}).tile (0 : TileId)).seq.armed w = .bad scIllegal) ∧
    (let w := iw [(124, 1), (120, 3), (116, 6), (89, 1)]
     (prog w {}).AtIssue (0 : TileId) 0 1 3 0 w ∧ mdrainLegal ((prog w {}).tileAk6 (0 : TileId)) w = .bad scIllegal) ∧
    (let w := iw [(124, 1), (120, 4), (112, 1)]
     (prog w {}).AtIssue (0 : TileId) 0 1 4 0 w ∧ mclearLegal w = .bad scIllegal) ∧
    (let w := iw [(124, 1), (120, 5), (71, 2 ^ 25 - 16)]
     (prog w {}).AtIssue (0 : TileId) 0 1 5 0 w ∧ mstatLegal w = .bad scIllegal) ∧
    ((prog wRead {}).AtIssue (0 : TileId) 0 1 6 0 wRead ∧ debugLegal ((prog wRead {}).debugRun (0 : TileId)) wRead = .bad scIllegal) ∧
    ((prog wWrite {}).AtIssue (0 : TileId) 0 1 7 0 wWrite ∧ debugLegal ((prog wWrite {}).debugRun (0 : TileId)) wWrite = .bad scIllegal) ∧
    (let w := iw [(124, 2), (120, 1), (105, 1), (88, 1), (63, 2 ^ 25 - 16)]
     (prog w {}).AtIssue (0 : TileId) 0 2 1 0 w ∧ vlaunchLegal w = .bad scStoreRange) ∧
    (let w := iw [(124, 2), (120, 2), (111, 1), (89, 1)]
     (prog w {}).AtIssue (0 : TileId) 0 2 2 0 w ∧ vtapLegal w = .bad scIllegal ∧ tf w 110 89 ≠ 0) :=
  ⟨⟨atIssue_of (by decide +kernel), legal_of (by decide +kernel)⟩, ⟨atIssue_of (by decide +kernel), legal_of (by decide +kernel)⟩, ⟨atIssue_of (by decide +kernel), legal_of (by decide +kernel)⟩,
    ⟨atIssue_of (by decide +kernel), legal_of (by decide +kernel)⟩, ⟨atIssue_of (by decide +kernel), legal_of (by decide +kernel)⟩, ⟨atIssue_of (by decide +kernel), legal_of (by decide +kernel)⟩,
    ⟨atIssue_of (by decide +kernel), legal_of (by decide +kernel)⟩, ⟨atIssue_of (by decide +kernel), legal_of (by decide +kernel)⟩, ⟨atIssue_of (by decide +kernel), legal_of (by decide +kernel), by decide⟩⟩

/-- Zero counts, and a first pass on an Open accumulator tile. -/
theorem witness_TileInstructionFaults_zero :
    (let w := iw [(124, 1), (120, 1)]
     (prog w {}).AtIssue (0 : TileId) 0 1 1 0 w ∧ mloadLegal ((prog w {}).tileAk6 (0 : TileId)) w = .zero) ∧
    (let w := iw [(124, 1), (120, 4)]
     (prog w {}).AtIssue (0 : TileId) 0 1 4 0 w ∧ mclearLegal w = .zero) ∧
    (let w := iw [(124, 2), (120, 1)]
     (prog w {}).AtIssue (0 : TileId) 0 2 1 0 w ∧ vlaunchLegal w = .zero) ∧
    (let w := iw [(124, 1), (120, 2), (115, 1), (114, 1)]
     (prog w {}).AtIssue (0 : TileId) 0 1 2 0 w ∧
       mpassLegal ((prog w {}).tileAk6 (0 : TileId)) ((prog w {}).tile (0 : TileId)).mx.fmtAhead ((prog w {}).tile (0 : TileId)).seq.armed w = .zero) ∧
    (let w := iw [(124, 1), (120, 3)]
     (prog w {}).AtIssue (0 : TileId) 0 1 3 0 w ∧ mdrainLegal ((prog w {}).tileAk6 (0 : TileId)) w = .zero) ∧
    (let w := iw [(124, 1), (120, 6)]
     (debug w).AtIssue (0 : TileId) 0 1 6 0 w ∧ debugLegal ((debug w).debugRun (0 : TileId)) w = .zero) ∧
    (let w := iw [(124, 1), (120, 7)]
     (debug w).AtIssue (0 : TileId) 0 1 7 0 w ∧ debugLegal ((debug w).debugRun (0 : TileId)) w = .zero) ∧
    (let w := iw [(124, 2), (120, 2)]
     (prog w {}).AtIssue (0 : TileId) 0 2 2 0 w ∧ vtapLegal w = .zero) ∧
    ((prog wPass (scored 1)).AtIssue (0 : TileId) 0 1 2 0 wPass ∧
      mpassLegal ((prog wPass (scored 1)).tileAk6 (0 : TileId)) ((prog wPass (scored 1)).tile (0 : TileId)).mx.fmtAhead ((prog wPass (scored 1)).tile (0 : TileId)).seq.armed wPass = .ok) ∧
    (tf wPass 113 113 = 0 ∧ tf wPass 115 115 = 1 ∧ ((prog wPass (scored 1)).tile (0 : TileId)).mx.state (tf wPass 111 108) = 1) :=
  ⟨⟨atIssue_of (by decide +kernel), legal_of (by decide +kernel)⟩, ⟨atIssue_of (by decide +kernel), legal_of (by decide +kernel)⟩, ⟨atIssue_of (by decide +kernel), legal_of (by decide +kernel)⟩, 
    ⟨atIssue_of (by decide +kernel), legal_of (by decide +kernel)⟩, ⟨atIssue_of (by decide +kernel), legal_of (by decide +kernel)⟩, ⟨atIssue_of (by decide +kernel), legal_of (by decide +kernel)⟩, ⟨atIssue_of (by decide +kernel), legal_of (by decide +kernel)⟩, ⟨atIssue_of (by decide +kernel), legal_of (by decide +kernel)⟩, 
    ⟨atIssue_of (by decide +kernel), legal_of (by decide +kernel)⟩, by decide +kernel⟩

/-- A shadow load, and a pass of 4 rows at its check and at its end. -/
def shadowT (loaded : Bool) : Tile := { mx := { shadow := some { id := 0, word := wLoad, loaded := loaded } } }
def pass0 : Pass := { id := 0, word := wPass, pc := 0, set := {}, tol := 100, scoreBefore := 0#32 }
def row0 : List Word := List.replicate 192 0#32

/-- The faults of a run whose compared sums are all zero, and of one whose first row check fails; the product is given too. -/
def goodObs : CheckObs := { rows := (List.range 4).map (fun i => (i, ⟨0#32, 0#32, 0#32⟩)), cols := (List.range 192).map (fun c => (c, ⟨0#32, 0#32, 0#32⟩)), faulty := some [row0] }
def oddObs : CheckObs := { rows := [(0, ⟨0x42C80000#32, 0#32, 0x3F800000#32⟩)] }

theorem witness_ArrayPasses :
    (((prog wLoad (shadowT false)).tile (0 : TileId)).mx.shadow.map (fun h => h.loaded) = some false ∧ ((prog wLoad (shadowT true)).tile (0 : TileId)).mx.shadow.map (fun h => h.loaded) = some true ∧
      ((prog wLoad (shadowT true)).tile (0 : TileId)).mx.passes = []) ∧
    (let q : MxOp := ⟨0, wPass, 0, 0#32, none⟩
     let s := prog wPass { mx := { queue := [q] } }
     (s.tile (0 : TileId)).mx.arrayHead = some q ∧ s.starts (0 : TileId) = true ∧ (s.tile (0 : TileId)).mx.mayStart q = true) ∧
    (let s := prog wPass { mx := { passes := [pass0] } }
     let x := (s.tile (0 : TileId)).seenBy pass0.id s.raceCoin
     let good := x.runBlock (s.tileAk6 (0 : TileId)) pass0 pass0.checked goodObs
     let odd := x.runBlock (s.tileAk6 (0 : TileId)) pass0 pass0.checked oddObs
     (s.tile (0 : TileId)).mx.vote = none ∧ (s.tile (0 : TileId)).mx.passes = [pass0] ∧ pass0.checked < passBlocks pass0.word ∧
      (∀ x ∈ good.rows, checkFails x pass0.tol false = false) ∧ (∀ x ∈ good.cols, checkFails x pass0.tol true = false) ∧
      ∃ x ∈ odd.rows, checkSkipped x = false ∧ checkFails x pass0.tol false = true) ∧
    (let s := prog wPass {}
     (s.tile (0 : TileId)).quiet 0 = true ∧ s.serving (0 : TileId) = false ∧ s.starts (0 : TileId) = true ∧ (s.tile (0 : TileId)).slice ≠ .running) := by decide +kernel

theorem witness_ArrayPasses_vote :
    (let s := prog wPass { mx := { passes := [pass0], vote := some ⟨0, 0, [row0]⟩ } }
     (s.tile (0 : TileId)).mx.vote = some ⟨0, 0, [row0]⟩ ∧ (s.tile (0 : TileId)).mx.passes = [pass0] ∧ pass0.id = 0 ∧ pass0.pc < 2 ^ 32 ∧ s.neighbour (0 : TileId) = some 1 ∧
      (s.tile 1).mx.passes = [] ∧ (s.voteRun (0 : TileId) pass0 0 goodObs).passes = true ∧ (s.voteRun (0 : TileId) pass0 0 goodObs).product = [row0] ∧
      (s.voteRun (0 : TileId) pass0 0 oddObs).passes = false ∧ (s.tileRun (0 : TileId)).map (fun x => (x.1, x.2.ending)) = some ((0, 0, 0), none)) ∧
    (let p := { pass0 with checked := 1, sums := [[row0, row0, row0, row0]] }
     let s := prog wPass { mx := { passes := [p] } }
     (s.tile (0 : TileId)).mx.passes = [p] ∧ p.armed = none ∧ passBlocks p.word ≤ p.checked ∧ (∀ x ∈ p.sums.flatten, x.length = 192) ∧ tf p.word 107 99 + p.sums.flatten.length ≤ 512) := by decide +kernel

theorem witness_Drains :
    (let q : MxOp := ⟨0, wDrain, 0, 0#32, none⟩
     let s := prog wDrain { mx := { queue := [q] } }
     s.starts (0 : TileId) = true ∧ firstWith (s.tile (0 : TileId)).mx.drainMay [] (s.tile (0 : TileId)).mx.queue = some q) ∧
    (let d : Drain := ⟨0, wDrain, true, none⟩
     let s := prog wDrain { mx := { drains := [d] } }
     (s.tile (0 : TileId)).mx.drains.find? (fun e => isStats e.word == false && !(s.tile (0 : TileId)).drainBlocked e) = some d ∧ d.left = none ∧ top d.word = 3 ∧
      (s.tile (0 : TileId)).mx.queue = [] ∧ (s.tile (0 : TileId)).quiet d.id = true ∧
      (s.tile (0 : TileId)).guardedAny (((s.tile (0 : TileId)).seenBy d.id s.raceCoin).drainRows (s.tileAk6 (0 : TileId)) d.word (tf d.word 107 99) 0 (tf d.word 98 89)).1.writes = false) ∧
    (let d : Drain := ⟨0, wDrain, true, none⟩
     let s := prog wDrain { mx := { drains := [d], passes := [{ pass0 with set := { lines := [(0, 4)] } }] } }
     (∀ e ∈ (s.tile (0 : TileId)).mx.drains, isStats e.word = false → (s.tile (0 : TileId)).drainBlocked e = true) ∧ (s.tile (0 : TileId)).mx.drains = [d]) ∧
    (let q : MxOp := ⟨0, wDrain, 0, 0#32, none⟩
     let s := prog wDrain { mx := { queue := [q], passes := [{ pass0 with id := 1, word := wStream, armed := some (2, wArm) }] } }
     firstWith (s.tile (0 : TileId)).mx.drainMay [] (s.tile (0 : TileId)).mx.queue = some q ∧ s.drainsOut (0 : TileId) q = true) := by decide +kernel

/-- A drain whose row holds an element beyond FP16 reports it to the run. -/
theorem witness_Drains_overflow :
    (let w := iw [(124, 1), (120, 3), (116, 2), (89, 1)]
     let d : Drain := ⟨0, w, true, none⟩
     let s := prog w { mx := { drains := [d], acc := [(accIndex 0 0 0 0, 0x7F000000#32)] } }
     (s.tile (0 : TileId)).mx.drains.find? (fun e => isStats e.word == false && !(s.tile (0 : TileId)).drainBlocked e) = some d ∧ top w = 3 ∧
      (s.tileRun (0 : TileId)).map (fun x => x.2.overflow) = some none ∧
      0 < (((s.tile (0 : TileId)).seenBy d.id s.raceCoin).drainRows (s.tileAk6 (0 : TileId)) w 0 0 1).1.count) := by decide +kernel

theorem witness_Drains_left :
    (let d : Drain := ⟨0, wArm, true, some [(0, [1#8])]⟩
     let s := prog wDrain { mx := { drains := [d] } }
     (s.tile (0 : TileId)).mx.drains.find? (fun e => isStats e.word == false && !(s.tile (0 : TileId)).drainBlocked e) = some d ∧ d.left = some [(0, [1#8])] ∧ (s.tile (0 : TileId)).mx.queue = [] ∧
      (s.tile (0 : TileId)).guardedAny [(0, [1#8])] = false) ∧
    (let d : Drain := ⟨0, wRead, true, none⟩
     let s := prog wDrain { mx := { drains := [d] } }
     (s.tile (0 : TileId)).mx.drains.find? (fun e => isStats e.word == false && !(s.tile (0 : TileId)).drainBlocked e) = some d ∧ d.left = none ∧ top d.word = 6 ∧
      (s.tile (0 : TileId)).guardedAny ((List.range (tf d.word 98 89)).map (fun i => (tf d.word 80 56 + 768 * i,
        ((List.range 192).map (fun n => leBytes 4 ((s.tile (0 : TileId)).mx.committed (tf d.word 111 108) (tf d.word 107 99 + i) n).toNat)).flatten))) = false) ∧
    (let d : Drain := ⟨0, wWrite, true, none⟩
     let s := prog wDrain { mx := { drains := [d] } }
     (s.tile (0 : TileId)).mx.drains.find? (fun e => isStats e.word == false && !(s.tile (0 : TileId)).drainBlocked e) = some d ∧ d.left = none ∧ top d.word = 7 ∧ tf d.word 107 99 + tf d.word 98 89 ≤ 512) :=
  by decide +kernel

theorem witness_Drains_stream :
    (let p := { pass0 with id := 1, word := wStream, armed := some (0, wArm), checked := 1, sums := [[row0]] }
     let s := prog wDrain { mx := { passes := [p] } }
     (s.tile (0 : TileId)).mx.passes = [p] ∧ p.armed = some (0, wArm) ∧ p.sums = [[row0]] ∧ (s.tile (0 : TileId)).mx.drains = [] ∧ (s.tile (0 : TileId)).mx.queue = [] ∧ (∀ r ∈ [row0], r.length = 192)) ∧
    (let e : Drain := ⟨0, wDrain, true, none⟩
     let p := { pass0 with id := 1, word := wStream, armed := some (0, wArm), checked := 1, sums := [[row0]], set := { lines := [(0, 4)] } }
     let s := prog wDrain { mx := { passes := [p], drains := [e], queue := [⟨2, wDrain, 0, 0#32, none⟩] } }
     (s.tile (0 : TileId)).mx.passes = [p] ∧ (∀ d ∈ (s.tile (0 : TileId)).mx.drains, (s.tile (0 : TileId)).drainBlocked d = true) ∧
      (∀ q ∈ (s.tile (0 : TileId)).mx.queue, q.id < p.id → top q.word ≠ 3 ∧ top q.word ≠ 6 ∧ top q.word ≠ 7)) := by decide +kernel

/-- A launch of one row of one element: in0 at 0x1000 to out0 at 0x2000 in FP32, program at 0x400, parameters at 0x500. -/
def wLaunch : TileWord := iw [(124, 2), (120, 1), (105, 1), (88, 1), (63, 0x400), (38, 0x500)]
def launchParamAt (base : Nat) : List Byte := leBytes 4 base ++ [0#8, 0#8] ++ leBytes 2 1 ++ leBytes 8 0 ++ (List.replicate 3 ([0#8, 0#8, 0#8, 0#8, 15#8] ++ List.replicate 11 0#8)).flatten ++
  leBytes 4 0x2000 ++ [0#8, 0#8] ++ leBytes 2 1 ++ leBytes 8 0 ++ (List.replicate 2 ([0#8, 0#8, 0#8, 0#8, 15#8] ++ List.replicate 11 0#8)).flatten ++ List.replicate 80 0#8
def launchParam : List Byte := launchParamAt 0x1000
/-- The tile store of such a launch with one micro-operation of code op from in0 to out0. -/
def launchStore (op : Nat) : Mem := (Mem.writeN [] 0x400 (1#8 :: List.replicate 15 0#8 ++ leBytes 4 (op * 2 ^ 26 + 16 * 2 ^ 21 + 16 * 2 ^ 16))).writeN 0x500 launchParam
/-- VTAP of slot 0 to address 0. -/
def wTap : TileWord := iw [(124, 2), (120, 2), (111, 1)]

theorem witness_VectorEngine_issue : (prog wLaunch {}).AtIssue (0 : TileId) 0 2 1 0 wLaunch ∧ vlaunchLegal wLaunch = .ok ∧ ((prog wLaunch {}).tile (0 : TileId)).vecRoom = true ∧
    (prog wTap {}).AtIssue (0 : TileId) 0 2 2 0 wTap ∧ vtapLegal wTap = .ok ∧
    ((prog wTap {}).tile (0 : TileId)).vec = [] ∧
    (let s := prog wTap { vec := [{ id := 0, word := wLaunch }] }
     (s.tile (0 : TileId)).vecRoom = true ∧ (s.tile (0 : TileId)).vec = [{ id := 0, word := wLaunch }] ∧ top wLaunch = 1) :=
  ⟨atIssue_of (by decide +kernel), legal_of (by decide +kernel), by decide +kernel, atIssue_of (by decide +kernel), legal_of (by decide +kernel), by decide +kernel⟩

/-- Micro-operation 0x08 is defined, 0x3F is not. -/
theorem witness_VectorEngine_start :
    (let v : VecOp := { id := 0, word := wLaunch }
     let s := prog wLaunch { vec := [v], store := launchStore 8 }
     let x := s.tile (0 : TileId)
     let ops := [word (x.store.readLE 0x410 4)]
     s.starts (0 : TileId) = true ∧ x.vec.find? (fun v => !v.started) = some v ∧ top v.word = 1 ∧
      launchIllegal (s.tileAk6 (0 : TileId)) x.taps (x.store.readN 0x400 16) (x.store.readN 0x500 192) ops 1 1 = false ∧ launchOutside (x.store.readN 0x500 192) ops 1 1 = false ∧
      inStore 0x400 20 = true ∧ (∀ y ∈ x.vec, y.started = false)) ∧
    (let v : VecOp := { id := 0, word := wLaunch }
     let s := prog wLaunch { vec := [v], store := launchStore 0x3F }
     let x := s.tile (0 : TileId)
     headerIllegal (x.store.readN 0x400 16) = false ∧ (s.tileRun (0 : TileId)).map (fun x => x.2.ending) = some none ∧
      launchIllegal (s.tileAk6 (0 : TileId)) x.taps (x.store.readN 0x400 16) (x.store.readN 0x500 192) [word (x.store.readLE 0x410 4)] 1 1 = true) ∧
    (let v : VecOp := { id := 0, word := wLaunch }
     let s := prog wLaunch { vec := [v], store := (launchStore 8).writeN 0x500 (launchParamAt 0x1800000) }
     let x := s.tile (0 : TileId)
     let ops := [word (x.store.readLE 0x410 4)]
     headerIllegal (x.store.readN 0x400 16) = false ∧ launchIllegal (s.tileAk6 (0 : TileId)) x.taps (x.store.readN 0x400 16) (x.store.readN 0x500 192) ops 1 1 = false ∧
      launchOutside (x.store.readN 0x500 192) ops 1 1 = true) ∧
    headerIllegal (((prog wLaunch {}).tile (0 : TileId)).store.readN 0x400 16) = true ∧
    (let v : VecOp := { id := 0, word := wLaunch, started := true, param := launchParam, prog := [0x22100000#32] }
     let s := prog wLaunch { vec := [v] }
     (s.tile (0 : TileId)).vec = [v] ∧ v.started = true ∧ (s.tile (0 : TileId)).quiet v.id = true) := by decide +kernel

/-- A DMA instruction with parameters at 0x400, and its parameter block: 1 row of 4 bytes between device object o (tile store for DMOVE) and address 0. -/
def wDma (op : Nat) : TileWord := iw [(124, 3), (120, op), (95, 0x400)]
def dmaBlock (dev : Nat) : List Byte := leBytes 8 dev ++ leBytes 4 0 ++ leBytes 4 1 ++ leBytes 2 4 ++ [0#8, 0#8] ++ leBytes 4 0 ++ leBytes 4 64 ++ leBytes 4 64 ++ List.replicate 32 0#8
def dmaTile (dev : Nat) : Tile := { store := Mem.writeN [] 0x400 (dmaBlock dev) }
/-- The same block with n for the bytes of a row and ts for its place in the store. -/
def dmaTileOf (dev n ts : Nat) : Tile :=
  { store := Mem.writeN [] 0x400 (leBytes 8 dev ++ leBytes 4 ts ++ leBytes 4 1 ++ leBytes 2 n ++ [0#8, 0#8] ++ leBytes 4 0 ++ leBytes 4 64 ++ leBytes 4 64 ++ List.replicate 32 0#8) }

/-- What the parameter block of a DMA instruction of tile 0 is: illegal, of a zero count, outside the store, beyond its object, or in reach. -/
def dmaCase (op : Nat) (x : Tile) : Nat :=
  let s := prog (wDma op) x
  let r := (s.seenNow 0).store.readN 0x400 64
  let p := dmaParam r
  if dmaIllegal op r then 0 else if p.rows = 0 ∨ p.cols = 0 then 1 else if dmaRangeOk op p = false then 2
  else if op ≠ 3 ∧ ((s.resolve 0 p.dev).extent < p.devSpan ∨ (op = 2 ∧ s.readOnly (s.resolve 0 p.dev) = true)) then 3 else 4

/-- What a DMA instruction needs at its issue. -/
def dmaReady (op dev : Nat) : Bool :=
  let s := prog (wDma op) (dmaTile dev)
  let x := s.tile (0 : TileId)
  let r := x.store.readN (tf (wDma op) 119 95) 64
  let p := dmaParam r
  decide (tf (wDma op) 119 95 % 64 = 0 ∧ tf (wDma op) 94 0 = 0 ∧ tf (wDma op) 119 95 + 64 ≤ storeBytes ∧ x.dma.length < 16 ∧ dmaIllegal op r = false ∧ p.rows ≠ 0 ∧ p.cols ≠ 0 ∧
    dmaRangeOk op p = true ∧ (s.tileRun (0 : TileId)).map (fun x => x.1) = some (0, 0, 0) ∧ p.mx = false) &&
    (op == 3 || (decide (p.devSpan ≤ (s.resolve 0 p.dev).extent) && !s.readOnly (s.resolve 0 p.dev)))

theorem witness_SkewingDma : ((prog (wDma 1) (dmaTile (ref 2 0))).AtIssue (0 : TileId) 0 3 1 0 (wDma 1) ∧ dmaReady 1 (ref 2 0) = true) ∧
    ((prog (wDma 2) (dmaTile (ref 2 0))).AtIssue (0 : TileId) 0 3 2 0 (wDma 2) ∧ dmaReady 2 (ref 2 0) = true) ∧
    ((prog (wDma 3) (dmaTile 0x800)).AtIssue (0 : TileId) 0 3 3 0 (wDma 3) ∧ dmaReady 3 0x800 = true) :=
  ⟨⟨atIssue_of (by decide +kernel), by decide +kernel⟩, ⟨atIssue_of (by decide +kernel), by decide +kernel⟩, ⟨atIssue_of (by decide +kernel), by decide +kernel⟩⟩

/-- Each DMA instruction with each kind of parameter block. -/
theorem witness_SkewingDma_cases : ∀ op ∈ [1, 2, 3], dmaCase op { store := Mem.writeN [] 0x400 (List.replicate 63 0#8 ++ [1#8]) } = 0 ∧
    dmaCase op (dmaTileOf (if op = 3 then 0x800 else ref 2 0) 0 0) = 1 ∧ dmaCase op (dmaTileOf (if op = 3 then 0x800 else ref 2 0) 4 (2 ^ 25 - 2 ^ 23)) = 2 ∧
    dmaCase op (dmaTile (if op = 3 then 0x800 else ref 2 0)) = 4 ∧ (op ≠ 3 → dmaCase op (dmaTile (ref 2 (2 ^ 21 - 2))) = 3) := by decide +kernel

def dmaOp (op dev : Nat) : DmaOp := { id := 0, op := op, pc := 0, params := dmaBlock dev, dev := dword dev, started := true }

/-- Transfers at their end: a DMOVE from 0x800, a DGET from object 2, one of which the first line is poisoned, and a DPUT to object 2. -/
theorem witness_SkewingDma_end :
    (let s := prog (wDma 3) { dmaTile 0x800 with dma := [dmaOp 3 0x800] }
     let x := s.tile (0 : TileId)
     let y := x.seenBy 0 s.raceCoin
     let p := dmaParam (dmaOp 3 0x800).params
     let bs := p.bytes (fun off n => y.store.readN (p.dev + off) n) (fun off n => y.store.readN (p.scaleDev + off) n)
     x.quiet 0 = true ∧ x.dma[0]? = some (dmaOp 3 0x800) ∧ (s.tileRun (0 : TileId)).isSome = true ∧ x.guardedAny (bs.map (fun b => (b.addr, [b.val]))) = false ∧
      bs.all (fun b => b.src.all (fun q => bs.all (fun e => e.addr != (if q.1 = true then p.scaleDev else p.dev) + q.2))) = true) ∧
    (let s := prog (wDma 1) { dmaTile (ref 2 0) with dma := [dmaOp 1 (ref 2 0)] }
     let p := dmaParam (dmaOp 1 (ref 2 0)).params
     let dev := s.resolveHeld 0 (dmaOp 1 (ref 2 0)).dev.toNat
     let rows := (List.range p.rows).map (fun i => (i * p.rowPitch, p.rowBytes))
     s.refWaits 0 (dmaOp 1 (ref 2 0)).dev.toNat = false ∧ p.mx = false ∧ s.firstStop 0 dev rows = none ∧
      { s with mem := { s.mem with poison := [dev.addr / 64] } }.firstStop 0 dev rows = some stPoison ∧ (s.tileRun (0 : TileId)).map (fun x => x.2.ending) = some none ∧
      (s.tile (0 : TileId)).guardedAny ((p.bytes (s.rawTarget dev) (s.rawTarget dev)).map (fun b => (b.addr, [b.val]))) = false) ∧
    (let s := prog (wDma 2) { dmaTile (ref 2 0) with dma := [dmaOp 2 (ref 2 0)] }
     let dev := s.resolveHeld 0 (dmaOp 2 (ref 2 0)).dev.toNat
     (s.tileRun (0 : TileId)).map (fun x => x.2.partner) = some false ∧ s.refWaits 0 (dmaOp 2 (ref 2 0)).dev.toNat true = false ∧ s.readOnly dev = false ∧ dev.space = .dev 2) := by decide +kernel

/-- A DPUT of one row in a run of full redundancy, of the primary tile 0 and of its partner 48, whose copy keeps nothing, the same row, or another. -/
def dmaPair (t : Nat) (kept : List (Nat × Nat × List Byte)) : State := { with1 (runD { run0 with partner := true }) with
  tiles := [(0, { sleep := .running, writes := if t = 0 then [] else kept }), (48, { sleep := .running, writes := if t = 0 then kept else [] })].map
    (fun (x : Nat × Tile) => (x.1, if x.1 = t then { x.2 with store := (dmaTile (ref 2 0)).store, dma := [dmaOp 2 (ref 2 0)], seq := { owner := some (0, 0, 0) } } else x.2)) }
theorem witness_SkewingDma_redundant : ∀ t ∈ [0, 48], ∀ kept ∈ [[], [(1000, ((with1 (dsc [])).resolve 0 (ref 2 0)).addr, [0#8, 0#8, 2#8, 0#8])], [(1000, 0, [9#8])]],
    let s := dmaPair t kept
    (s.tile t).dma[0]? = some (dmaOp 2 (ref 2 0)) ∧ (s.tileRun t).map (fun x => (x.2.partner, x.2.ending)) = some (true, none) ∧ s.refWaits 0 (ref 2 0) true = false ∧
      (dmaParam (dmaOp 2 (ref 2 0)).params).rows = 1 ∧ (dmaParam (dmaOp 2 (ref 2 0)).params).mx = false ∧ s.readOnly (s.resolveHeld 0 (ref 2 0)) = false ∧
      (s.resolveHeld 0 (ref 2 0)).space = .dev 2 ∧ (s.tile (if t < 48 then t + 48 else t - 48)).writes.find? (fun e => e.1 == 1000 + 0) = kept.head? := by decide +kernel

/-- A sequencer that waits for 2 of counter 5. -/
def waiting (v : Half) : Tile := { seq := { wait := 3, waitCtr := 5, waitN := 2, events := [(5, v)] } }

/-- EWAIT for 2 and for 0, and a sequencer that waits for 2: with 1 it goes on waiting, with 2 it retires. -/
theorem witness_EventWait :
    (let w := iw [(124, 4), (120, 3), (115, 5), (99, 2)]
     (prog w {}).atHead (0 : TileId) 0 4 3 = some w ∧ tf w 98 0 = 0 ∧ tf w 114 99 ≠ 0) ∧
    (let w := iw [(124, 4), (120, 3), (115, 5)]
     (prog w {}).atHead (0 : TileId) 0 4 3 = some w ∧ tf w 98 0 = 0 ∧ tf w 114 99 = 0) ∧
    (let s := prog wLoad (waiting 1#16)
     s.issues (0 : TileId) = true ∧ (s.tile (0 : TileId)).seq.wait = 3 ∧ (s.tile (0 : TileId)).seq.yielded = false ∧ (s.tile (0 : TileId)).seq.held = [] ∧
      ((s.tile (0 : TileId)).seq.events.get 0#16 5).toNat < 2) ∧
    (let s := prog wLoad (waiting 2#16)
     s.issues (0 : TileId) = true ∧ (s.tile (0 : TileId)).seq.wait = 3 ∧ (s.tile (0 : TileId)).seq.yielded = false ∧ 2 ≤ ((s.tile (0 : TileId)).seq.events.get 0#16 5).toNat) := by decide +kernel

theorem witness_EventCounters :
    (let w := iw [(124, 4), (120, 1), (115, 5), (99, 2)]
     (prog w {}).AtIssue (0 : TileId) 0 4 1 0 w ∧ tf w 90 0 = 0 ∧ tf w 114 99 ≠ 0 ∧ tf w 98 98 = 0 ∧ tf w 97 91 = 0) ∧
    (let w := iw [(124, 4), (120, 1), (115, 5), (99, 2), (98, 1), (91, 1)]
     (prog w {}).AtIssue (0 : TileId) 0 4 1 0 w ∧ tf w 90 0 = 0 ∧ tf w 114 99 ≠ 0 ∧ tf w 98 98 = 1 ∧ (prog w {}).tileRun (0 : TileId) = some ((0, 0, 0), run0) ∧ run0.partner = false ∧
      run0.tiles.toNat.testBit (tf w 97 91) = true) ∧
    (let g : Signal := ⟨1, 0, 5, 2⟩
     let h : Signal := ⟨12, 0, 5, 2⟩
     let find := fun (s : State) (src : TileId) => s.fabric.signals.find? (fun g => g.src == src.val && g.dst == (0 : TileId).val && g.ctr == (5 : Fin 32).val)
     let near := { prog wLoad {} with fabric := { up.fabric with signals := [g] } }
     let far := { prog wLoad {} with fabric := { up.fabric with signals := [⟨13, 0, 6, 1⟩, h] } }
     find near 1 = some g ∧ near.signalFirst g = true ∧ find far 12 = some h ∧ far.signalFirst h = false ∧ far.signalFirst ⟨13, 0, 6, 1⟩ = true) ∧
    (let w := iw [(124, 4), (120, 2), (115, 5), (94, 31)]
     let full := prog w { seq := { marks := List.replicate 32 ⟨0, []⟩ } }
     ((prog w {}).AtIssue (0 : TileId) 0 4 2 0 w ∧ full.AtIssue (0 : TileId) 0 4 2 0 w) ∧ tf w 114 99 = 0 ∧ tf w 93 0 = 0 ∧ tf w 98 94 ≠ 0 ∧
      ((prog w {}).tile (0 : TileId)).seq.marks.length < 32 ∧ 32 ≤ (full.tile (0 : TileId)).seq.marks.length ∧ 0 = (full.tile (0 : TileId)).seq.held.length) ∧
    (let s := prog wLoad { seq := { marks := [⟨5, [1]⟩, ⟨6, [2]⟩], busy := [(2, 0)] } }
     let q := (s.tile (0 : TileId)).seq
     q.marks[0]? = some ⟨5, [1]⟩ ∧ (∀ b ∈ q.busy, b.1 ≠ 1) ∧ q.marks[1]? = some ⟨6, [2]⟩ ∧ ∃ b ∈ q.busy, b.1 = 2) :=
  ⟨⟨atIssue_of (by decide +kernel), by decide +kernel⟩, ⟨atIssue_of (by decide +kernel), by decide +kernel⟩, by decide +kernel,
    ⟨⟨atIssue_of (by decide +kernel), atIssue_of (by decide +kernel)⟩, by decide +kernel⟩, by decide +kernel⟩

theorem past_of {f : Found} (h : (match f with | .past => true | _ => false) = true) : f = .past := by
  cases f <;> first | rfl | cases h

theorem witness_SequencerControl :
    (let w := iw [(124, 6), (120, 1)]
     (prog w {}).atHead (0 : TileId) 0 6 1 = some w ∧ tf w 119 0 = 0) ∧
    (let w := iw [(124, 6), (120, 2)]
     (prog w {}).atHead (0 : TileId) 0 6 2 = some w ∧ tf w 119 0 = 0) ∧
    (let w := iw [(124, 6), (120, 3), (64, 0x400), (51, 4096)]
     (prog w {}).atHead (0 : TileId) 0 6 3 = some w ∧ ((prog w {}).tile (0 : TileId)).seq.call = none ∧ tf w 119 89 = 0 ∧ tf w 88 64 % 16 = 0 ∧ 0 < tf w 63 51 ∧ tf w 63 51 ≤ 4096 ∧ tf w 50 0 = 0 ∧
      tf w 88 64 + 16 * tf w 63 51 ≤ storeBytes ∧
      (let s := prog w { store := Mem.writeN [] 0x400 (leBytes 16 w.toNat), seq := { call := some (0x400, 1, 0) } }
       s.atHead (0 : TileId) 0 6 3 = some w ∧ (s.tile (0 : TileId)).seq.call ≠ none)) ∧
    (let s := prog wLoad { seq := { ended := true, wait := 4 } }
     s.tileRun (0 : TileId) = some ((0, 0, 0), run0) ∧ run0.stopping = false ∧ run0.running.getLsbD 0 = true ∧ (s.tile (0 : TileId)).ended = true ∧
      (s.ctx 0).find 0 0 = some (runD run0) ∧ (runD run0).ending = none ∧ run0.running ≠ 1#96 ∧ (s.tile (0 : TileId)).seq.yielded = false ∧ (s.tile (0 : TileId)).slice ≠ .running) ∧
    (let r := { run0 with running := 1#96 }
     let s := { prog wLoad { seq := { ended := true, wait := 4 } } with ctxs := [(0, { up.ctx 0 with descs := [runD r] })] }
     s.tileRun (0 : TileId) = some ((0, 0, 0), r) ∧ r.running = BitVec.ofNat 96 (2 ^ (0 : TileId).val) ∧ (runD r).work = .exec r ∧ r.overflow = none ∧ (∀ x ∈ s.tiles, x.2.writes = [])) := by
  decide +kernel

/-- YIELD with a slice pending, END under an armed drain, and a watchdog in a vote. -/
theorem witness_SequencerControl_more :
    (let w := iw [(124, 6), (120, 2)]
     (prog w { slice := .pending }).atHead (0 : TileId) 0 6 2 = some w ∧ ((prog w { slice := .pending }).tile (0 : TileId)).slice = .pending) ∧
    (let w := iw [(124, 6), (120, 1)]
     (prog w streamT).atHead (0 : TileId) 0 6 1 = some w ∧ ((prog w streamT).tile (0 : TileId)).seq.armedHeld = false ∧ ((prog w streamT).tile (0 : TileId)).seq.armed = some (0, wArm)) ∧
    (let s := prog wPass { mx := { passes := [pass0], vote := some ⟨0, 0, [row0]⟩ } }
     (s.tileRun (0 : TileId)).map (fun x => (x.2.stopping, x.2.running.getLsbD 0)) = some (false, true) ∧ (s.tile (0 : TileId)).mx.vote = some ⟨0, 0, [row0]⟩ ∧
      (s.tile (0 : TileId)).mx.passes.find? (fun p => p.id == 0) = some pass0 ∧ pass0.pc < 2 ^ 32 ∧ (s.tile (0 : TileId)).slice ≠ .running) := by decide +kernel

theorem witness_SequencerControl_illegal :
    (let w := iw [(124, 7), (120, 1)]
     (prog w {}).window (0 : TileId) 0 = .insn 0 w ∧ opDefined (tclass w) (top w) = false) ∧ (prog wLoad { seq := { pc := 16 } }).window (0 : TileId) 0 = .past :=
  ⟨⟨insn_of (by decide +kernel), by decide +kernel⟩, past_of (by decide +kernel)⟩

/-- An R-type word of a prep core: opcode, funct3, funct7, rd, rs1, rs2. -/
def rw (op f3 f7 rd rs1 rs2 : Nat) : Nat := op + 2 ^ 7 * rd + 2 ^ 12 * f3 + 2 ^ 15 * rs1 + 2 ^ 20 * rs2 + 2 ^ 25 * f7

/-- The cores of a cluster: core 0, its a5 and a6 x and y, and core 1 if asked. -/
def cores (two : Bool) (x y : Nat) : Tab Core :=
  (0, { pc := 0x10000#32, running := true, x := [(15, word x), (16, word y)] }) :: (if two then [(1, { pc := 0x10000#32, running := true })] else [])

/-- Core 0 of cluster 0 of tile 0 at the word w of cluster memory. -/
def core (w : Nat) (two : Bool) (x y : Nat) : State := { prog wLoad {} with
  regs := [(rObjRange 0, 0x1000000000#64), (rRingCfg 0 0, 0x80000000#64), (rSeqRange 0, 0x400000000#64), (rLedgerRange 0, 0x1000000000#64), (rKvLayout 0, 0x00020040#64)]
  ledger := { seqs := [(1, { len := 10, base := 0, cap := 1, live := true })], entries := [(0, 0x4000000002000000#64)] }
  tiles := [(0, { sleep := .running, seq := { owner := some (0, 0, 0), busy := [(0, 4)] }, clusters := [(0, { dispatch := some 0, mem := Mem.writeN [] 0 (leBytes 4 w), cores := cores two x y })] })] }

theorem req_of {f : Fetched} {p : CoreReq → Bool} (h : (match f with | .req q => p q | _ => false) = true) : ∃ q, f = .req q ∧ p q = true := by
  cases f with
  | req q => exact ⟨q, rfl, h⟩
  | _ => cases h

/-- That the core stands at an instruction of four bytes, and p holds of it. -/
def coreAt (s : State) (p : CoreReq → Bool) : Bool := match s.coreFetch 0 0 0 with | .req q => q.len == 4 && p q | _ => false

theorem atExt_of {s : State} {n : Nat} {p : CoreReq → Bool} (h : coreAt s (fun q => decide (extOp q.w = some n) && p q) = true) : ∃ q, s.AtExt 0 0 0 n q ∧ p q = true := by
  obtain ⟨q, e, k⟩ := req_of h
  simp only [Bool.and_eq_true, beq_iff_eq, decide_eq_true_eq] at k
  exact ⟨q, ⟨e, k.1, k.2.1⟩, k.2.2⟩

/-- PDISPATCH of cluster 0, its image of 64 bytes at 0x400. -/
def wDisp : TileWord := iw [(124, 5), (120, 1), (93, 1), (64, 0x400), (48, 1)]

theorem witness_PrepDispatches : (prog wDisp {}).AtIssue (0 : TileId) 0 5 1 0 wDisp ∧
    (tf wDisp 92 89 = 0 ∧ tf wDisp 88 64 % 64 = 0 ∧ 0 < tf wDisp 63 48 ∧ tf wDisp 63 48 ≤ 1024 ∧ tf wDisp 47 23 % 4 = 0 ∧ tf wDisp 22 0 = 0 ∧ tf wDisp 119 93 ≠ 0 ∧
      tf wDisp 88 64 + 64 * tf wDisp 63 48 ≤ storeBytes ∧ ((prog wDisp {}).tile (0 : TileId)).prep.length < 4) ∧
    (let s := prog wDisp { prep := [⟨0, wDisp⟩] }
     (s.tile (0 : TileId)).prep = [⟨0, wDisp⟩] ∧ s.starts (0 : TileId) = true ∧ ∀ c, c < 27 → (s.cluster (0 : TileId) c).idle = true) ∧
    (∃ q, (core (rw 0x7B 0 0 0 0 0) true 0 0).AtExt 0 0 0 27 q ∧ (q.core.puts.isEmpty && ((core (rw 0x7B 0 0 0 0 0) true 0 0).core 0 0 1).running) = true) ∧
    (∃ q, (core (rw 0x7B 0 0 0 0 0) false 0 0).AtExt 0 0 0 27 q ∧ q.core.puts.isEmpty = true) ∧
    (let s := core (rw 0x7B 0 0 0 0 0) false 0 0
     (s.cluster 0 0).dispatch = some 0 ∧ (s.tile 0).dispatchClusters 0 = [0] ∧ (∀ x ∈ (s.cluster 0 0).cores, x.2.running = true → x.1 = 0) ∧
      (s.cluster 0 0).cores.Pairwise (fun x y => x.1 < y.1)) :=
  ⟨atIssue_of (by decide +kernel), by decide +kernel, by decide +kernel, atExt_of (by decide +kernel), atExt_of (by decide +kernel), by decide +kernel⟩

/-- Words of the extension instructions, from the encodings of R176. -/
def extWords : List (Nat × Nat) := [(28, rw 0x7B 1 0 0 15 16), (29, rw 0x7B 2 0 1 0 0), (30, rw 0x7B 2 1 1 0 0), (0, rw 0x0B 0 0 1 0 3), (1, rw 0x0B 1 0 0 15 3), (2, rw 0x0B 2 0 1 15 0)] ++
  (List.range 14).map (fun n => (3 + n, rw 0x0B 4 n 1 15 (if n = 4 ∨ n = 7 ∨ n = 8 ∨ n = 12 ∨ n = 13 then 0 else 16))) ++ [(25, rw 0x5B 0 0 0 0 0), (26, rw 0x5B 1 0 0 15 0)]

theorem witness_PrepNumbers : extWords.all (fun x => coreAt (core x.2 false 0x80 0) (fun q => decide (extOp q.w = some x.1))) = true := by decide +kernel

/-- PX.UNI at its two cases: 2 (x div 256) + 1 is below 2^24 for every x up to 0x7FFFFFFF, and at least 2^24 above. -/
theorem witness_PrepNumbers_uni : (∃ q, (core (rw 0x0B 2 0 1 15 0) false 0x7FFFFFFF 0).AtExt 0 0 0 2 q ∧ decide (2 * (q.rs1.toNat / 256) + 1 < 2 ^ 24) = true) ∧
    (∃ q, (core (rw 0x0B 2 0 1 15 0) false 0x80000000 0).AtExt 0 0 0 2 q ∧ decide (2 ^ 24 ≤ 2 * (q.rs1.toNat / 256) + 1) = true) ∧
    (∃ q, (core (rw 0x5B 1 0 0 15 0) false 0x80 0).AtExt 0 0 0 26 q ∧
      (match (core (rw 0x5B 1 0 0 15 0) false 0x80 0).coreRead q q.rs1.toNat 64 with | .data _ => true | _ => false) = true) :=
  ⟨atExt_of (by decide +kernel), atExt_of (by decide +kernel), atExt_of (by decide +kernel)⟩

/-- ADDI, ADD, JAL, BEQ, LW of private and of cluster memory, SW; ECALL and an undefined word trap. -/
theorem witness_PrepCores : (∃ q, (core 0x00178093 false 0 0).coreFetch 0 0 0 = .req q ∧ decide (iOp q.w = 0x13 ∧ iF3 q.w = 0) = true) ∧
    (∃ q, (core (rw 0x33 0 0 1 15 16) false 1 2).coreFetch 0 0 0 = .req q ∧ decide (iOp q.w = 0x33 ∧ iF3 q.w = 0 ∧ iF7 q.w = 0) = true) ∧
    (∃ q, (core 0x008000EF false 0 0).coreFetch 0 0 0 = .req q ∧ decide (iOp q.w = 0x6F) = true) ∧
    (∃ q, (core 0x01078463 false 0 0).coreFetch 0 0 0 = .req q ∧ decide (iOp q.w = 0x63 ∧ iF3 q.w = 0) = true) ∧
    (∃ q, (core 0x0007A083 false 0x1FFC 0).coreFetch 0 0 0 = .req q ∧
      decide (iOp q.w = 0x03 ∧ iF3 q.w = 2 ∧ (q.rs1 + immI q.w).toNat % 4 = 0 ∧ (q.rs1 + immI q.w).toNat + 4 ≤ 0x2000) = true) ∧
    (∃ q, (core 0x0007A083 false 0x4FFFC 0).coreFetch 0 0 0 = .req q ∧
      decide (iOp q.w = 0x03 ∧ iF3 q.w = 2 ∧ (q.rs1 + immI q.w).toNat % 4 = 0 ∧ 0x10000 ≤ (q.rs1 + immI q.w).toNat ∧ (q.rs1 + immI q.w).toNat + 4 ≤ 0x50000) = true) ∧
    (∃ q, (core 0x0107A023 false 0x1FFC 7).coreFetch 0 0 0 = .req q ∧
      decide (iOp q.w = 0x23 ∧ iF3 q.w = 2 ∧ (q.rs1 + immS q.w).toNat % 4 = 0 ∧ (q.rs1 + immS q.w).toNat + 4 ≤ 0x2000) = true) ∧
    (∃ q, (core 0x73 false 0 0).coreFetch 0 0 0 = .req q ∧ (decide (q.w = 0x73) &&
      (match (core 0x73 false 0 0).coreAny q with | .trap 11 _ => true | _ => false)) = true) ∧
    (∃ q, (core 0x57 false 0 0).coreFetch 0 0 0 = .req q ∧ decide (iOp q.w = 0x57) = true) ∧
    (((core 0x73 false 0 0).tile 0).prepFault.getLsbD 31 = false ∧ (core 0x73 false 0 0).tileRun 0 = some ((0, 0, 0), run0) ∧ run0.ending = none) :=
  ⟨req_of (by decide +kernel), req_of (by decide +kernel), req_of (by decide +kernel), req_of (by decide +kernel), req_of (by decide +kernel), req_of (by decide +kernel), req_of (by decide +kernel),
    req_of (by decide +kernel), req_of (by decide +kernel), by decide +kernel⟩

/-- The core at LW or SW (funct code op) of address a: in reach of the window its object, and whether that waits or is read-only. -/
def memAt (w a : Nat) : State := core w false a 7
def memReq (w a : Nat) (q : CoreReq) : Bool := decide (iF3 q.w = 2 ∧ (q.rs1 + if w = 0x7A083 then immI q.w else immS q.w).toNat = a)
/-- LW and SW at the last four bytes of cluster memory, tile store, device object 2 and where the window holds no object; a poisoned line, a read-only object. -/
theorem witness_PrepCores_memory : (∀ w ∈ [0x7A083, 0x107A023], ∀ a ∈ [0x4FFFC, 0x1000000 + storeBytes - 4, 0x403FFFFC, 0x50000000],
      (match (memAt w a).coreFetch 0 0 0 with | .req q => memReq w a q | _ => false) = true) ∧
    ((memAt 0x7A083 0).tile 0).quiet ((memAt 0x7A083 0).tile 0).seq.nextId = true ∧
    (let s := memAt 0x7A083 0x403FFFFC
     s.windowObj (0, 0, 0) 0x3FFFFC 4 = some 2 ∧ s.refWaits 0 (2 * 2 ^ 40) = false ∧ s.refWaits 0 (2 * 2 ^ 40) true = false ∧ (s.devRead 0x3FFFFC 4).stop = none ∧
      { s with mem := { s.mem with poison := [0x3FFFFC / 64] } }.windowObj (0, 0, 0) 0x3FFFFC 4 = some 2 ∧
      ({ s with mem := { s.mem with poison := [0x3FFFFC / 64] } }.devRead 0x3FFFFC 4).stop ≠ none ∧
      s.windowObj (0, 0, 0) 0x10000000 4 = none ∧ (s.tile 0).prepFault.getLsbD 31 = false ∧ s.tileRun 0 = some ((0, 0, 0), run0) ∧ run0.ending = none ∧ run0.partner = false ∧
      s.readOnly ⟨.dev 2, 0x3FFFFC, 0⟩ = false ∧ (s.modObj 2 (fun x => { x with readOnly := true })).readOnly ⟨.dev 2, 0x3FFFFC, 0⟩ = true) := by decide +kernel

/-- The core at PL.ST of entry 0 from address a of its private or cluster memory, which holds v there. -/
def plStS (a v : Nat) : State :=
  let s := core (rw 0x2B 4 0 0 15 16) false 0 a
  if a < 0x2000 then s.modCore 0 0 0 (fun c => { c with priv := c.priv.writeLE a 8 v })
  else { s with tiles := [(0, { s.tile 0 with clusters := [(0, { s.cluster 0 0 with mem := (s.cluster 0 0).mem.writeLE (a - 0x10000) 8 v })] })] }

/-- Sequence 1 holds 10 of 64 positions and entry 0 names page 0 of object 2; sequence 4 and entry 16 are outside the context's ranges. -/
theorem witness_PrepTables : (∃ q, (core (rw 0x2B 0 0 1 15 0) false 1 0).AtExt 0 0 0 17 q ∧ decide ((core (rw 0x2B 0 0 1 15 0) false 1 0).ownsSeq q.o.1 q.rs1.toNat = true ∧ q.rs1.toNat ≤ 65535) = true) ∧
    (∃ q, (core (rw 0x2B 0 0 1 15 0) false 4 0).AtExt 0 0 0 17 q ∧ decide ((core (rw 0x2B 0 0 1 15 0) false 4 0).ownsSeq q.o.1 q.rs1.toNat = false) = true) ∧
    (let s := core (rw 0x2B 1 0 1 15 16) false 1 54
     ∃ q, s.AtExt 0 0 0 18 q ∧ decide (s.ownsSeq q.o.1 q.rs1.toNat = true ∧ q.rs1.toNat ≤ 65535 ∧ (s.seqEntry q.rs1.toNat).live = true ∧ 0 ≤ ((s.seqEntry q.rs1.toNat).len : Int) + q.rs2.toInt ∧
      ((s.seqEntry q.rs1.toNat).len : Int) + q.rs2.toInt = s.lenLimit q.o.1 (s.seqEntry q.rs1.toNat)) = true) ∧
    (∃ q, (core (rw 0x2B 1 0 1 15 16) false 4 0).AtExt 0 0 0 18 q ∧ decide ((core (rw 0x2B 1 0 1 15 16) false 4 0).ownsSeq q.o.1 q.rs1.toNat = false) = true) ∧
    (∃ q, (core (rw 0x2B 2 0 1 15 16) false 1 0).AtExt 0 0 0 19 q ∧ decide ((core (rw 0x2B 2 0 1 15 16) false 1 0).ownsSeq q.o.1 q.rs1.toNat = true) = true) ∧
    (∃ q, (core (rw 0x2B 3 0 1 15 0) false 15 0).AtExt 0 0 0 20 q ∧ decide ((core (rw 0x2B 3 0 1 15 0) false 15 0).ownsEntries q.o.1 q.rs1.toNat 1 = true ∧ q.rs1.toNat ≤ 2097151) = true) ∧
    (∃ q, (core (rw 0x2B 3 1 1 15 0) false 15 0).AtExt 0 0 0 21 q ∧ decide ((core (rw 0x2B 3 1 1 15 0) false 15 0).ownsEntries q.o.1 q.rs1.toNat 1 = true ∧ q.rs1.toNat ≤ 2097151) = true) ∧
    (let s := core (rw 0x2B 4 0 0 15 16) false 0 0x1FF8
     ∃ q, s.AtExt 0 0 0 22 q ∧ decide (s.ownsEntries q.o.1 q.rs1.toNat 1 = true ∧ q.rs2.toNat % 8 = 0 ∧ q.rs2.toNat + 8 ≤ 0x2000 ∧ q.core.priv.readLE q.rs2.toNat 8 = 0 ∧
      s.ledger.entries.Pairwise (fun x y => x.1 < y.1)) = true) ∧
    (let f := fun (m v : Nat) => let s := plStS m v; coreAt s (fun q => decide (extOp q.w = some 22) && (match s.coreRead q q.rs2.toNat 8 with
        | .data bs => decide (leNat bs = v ∧ s.ownsEntries q.o.1 q.rs1.toNat 1 = true ∧ q.rs1.toNat ≤ 2097151)
        | _ => false))
     f 0x1FF8 0x4000000002000003 = true ∧ f 0x4FFF8 0x4000000002000003 = true ∧ f 0x10008 0x1000 = true ∧ f 0x1FF8 0x8000000000000000 = true ∧ f 0x1FF8 0x400000001F000000 = true ∧
     (let s := plStS 0x1FF8 0
      s.tileRun 0 = some ((0, 0, 0), run0) ∧ run0.partner = false ∧ s.inRange 0 2 = true ∧ s.inRange 0 (entryObj 0x400000001F000000#64) = false ∧ entryObj 0x4000000002000003#64 = 2 ∧
       (s.tile 0).prepFault.getLsbD 31 = false)) ∧
    (let s := core (rw 0x2B 5 0 0 15 16) false 0 0
     ∃ q, s.AtExt 0 0 0 23 q ∧ decide ((s.obj? (entryObj (s.entry q.rs2.toNat))).map (fun x => (x.ctx, x.state, x.readOnly, x.size)) = some (0, 1, false, 2 ^ 21) ∧ q.rs1.toNat + 65536 ≤ storeBytes ∧
      s.ownsEntries q.o.1 q.rs2.toNat 1 = true ∧ entryValid (s.entry q.rs2.toNat) = true ∧ entryShared (s.entry q.rs2.toNat) = false ∧ 65536 ≤ s.pageBytes q.o.1 ∧
      entryPage (s.entry q.rs2.toNat) * s.pageBytes q.o.1 + 65536 ≤ 2 ^ 21 ∧ (q.core.getCsr 0x7E0).toNat = 0 ∧ (q.core.getCsr 0x7E1).toNat = 0) = true) ∧
    (∃ q, (core (rw 0x2B 6 0 1 0 0) false 0 0).AtExt 0 0 0 24 q ∧ decide ((core (rw 0x2B 6 0 1 0 0) false 0 0).putsWait q.core = false) = true) :=
  ⟨atExt_of (by decide +kernel), atExt_of (by decide +kernel), atExt_of (by decide +kernel), atExt_of (by decide +kernel), atExt_of (by decide +kernel), atExt_of (by decide +kernel),
    atExt_of (by decide +kernel), atExt_of (by decide +kernel), by decide +kernel, atExt_of (by decide +kernel), atExt_of (by decide +kernel)⟩

/-- PLACE of OP op on object id with a length, flags and stack mask. -/
def placeD (op id len fl mask : Nat) : Desc := dsc [(0, 6), (16, op), (18, fl), (20, id), (24, len), (40, mask)]
/-- Context 0 with a slow tier of 1 GiB and a floor of 4 frames. -/
def placeS (d : Desc) : State := { with1 d with regs := (rSlowSize 0, 0x40000000#64) :: (rFloor 0, 4#64) :: (with1 d).regs }

theorem drawn_of {x : DrawAll} (h : (match x with | .done _ _ b => b | .wait => false) = true) : ∃ s fs, x = .done s fs true := by
  cases x with
  | done s fs b => cases b with
    | true => exact ⟨s, fs, rfl⟩
    | false => cases h
  | wait => cases h

theorem witness_PlaceOperations_create : (placeS (placeD 1 5 (2 ^ 21 + 1) 1 0)).Passes (0 : CtxId) (0 : RingId) 0#32 (placeD 1 5 (2 ^ 21 + 1) 1 0) (placeChk 1 (0 : CtxId)) ∧
    isPlace 1 (placeD 1 5 (2 ^ 21 + 1) 1 0) = true ∧ (placeS (placeD 1 5 (2 ^ 21 + 1) 1 0)).freeBase (ceilDiv ((placeD 1 5 (2 ^ 21 + 1) 1 0).num 24 8) blockBytes) = some (3 * 2 ^ 21) ∧
    (let d := placeD 1 5 (2 ^ 21 + 1) 1 0
     let s := placeS d
     let o : Obj := { ubase := 3 * 2 ^ 21, size := d.num 24 8, ctx := 0, cls := d.num 17 1, pin := bitOf (placeFlags d) 0, readOnly := bitOf (placeFlags d) 2,
                      stackMask := BitVec.ofNat 16 (stackMaskOf (d.num 40 2)), touch := s.touchNow, promoting := 1 }
     ∃ s' fs, State.drawNew (0 : CtxId) (placeObj d) (stackMaskOf (d.num 40 2)) (bitOf (placeFlags d) 1) (ceilDiv (d.num 24 8) blockBytes) (s.setObj (placeObj d) o)
      (lowestStack (stackMaskOf (d.num 40 2))) [] = .done s' fs true) :=
  ⟨passes_of (by decide +kernel), by decide +kernel, by decide +kernel, drawn_of (by decide +kernel)⟩

/-- That a PLACE passes its checks, and p holds of its state and object. -/
def placeRuns (op : Nat) (s : State) (d : Desc) (p : State → Obj → Bool) : Prop :=
  s.Passes (0 : CtxId) (0 : RingId) 0#32 d (placeChk op (0 : CtxId)) ∧ isPlace op d = true ∧ ∃ o, s.obj? (placeObj d) = some o ∧ p s o = true

/-- Object 1 is in HBM, object 3 in the slow tier. -/
theorem witness_PlaceOperations : placeRuns 2 (placeS (placeD 2 1 1 0 0)) (placeD 2 1 1 0 0) (fun _ _ => true) ∧
    placeRuns 3 (placeS (placeD 3 1 (2 ^ 21) 0 0)) (placeD 3 1 (2 ^ 21) 0 0) (fun s o => decide (o.state = 1 ∧ o.blocks = 1 ∧ isHbm (o.frames.getD 0 0) = true ∧ s.moving 1 0 = false)) ∧
    placeRuns 4 (placeS (placeD 4 3 (2 ^ 21) 0 0)) (placeD 4 3 (2 ^ 21) 0 0) (fun s o => decide (o.state = 1 ∧ o.blocks = 1 ∧ isHbm (o.frames.getD 0 0) = false ∧ s.moving 3 0 = false)) ∧
    placeRuns 4 (placeS (placeD 4 1 (2 ^ 21) 0 0)) (placeD 4 1 (2 ^ 21) 0 0) (fun s o => decide (o.state = 1 ∧ o.blocks = 1 ∧ isHbm (o.frames.getD 0 0) = true ∧ s.moving 1 0 = false ∧
      s.slowRoom 0 = true ∧ s.freeSlow = some 524288)) ∧
    placeRuns 5 (placeS (placeD 5 1 1 0 1)) (placeD 5 1 1 0 1) (fun s o => decide (o.state = 1 ∧ o.blocks = 1 ∧ (stackMaskOf 1).testBit (stackOf (o.frames.getD 0 0)) = true ∧ (s.ctx 0).newer = [] ∧ (s.ctx 0).pair = none)) ∧
    placeRuns 6 (placeS (placeD 6 1 1 5 0)) (placeD 6 1 1 5 0) (fun _ _ => true) ∧ placeRuns 7 (placeS (placeD 7 1 1 0 0)) (placeD 7 1 1 0 0) (fun _ o => o.state == 1) ∧
    (isPlace 2 (placeD 2 9 1 0 0) = true ∧ (placeS (placeD 2 9 1 0 0)).Fails (0 : CtxId) (0 : RingId) 0#32 (placeD 2 9 1 0 0) (placeChk 2 (0 : CtxId)) { status := stState }) :=
  ⟨⟨passes_of (by decide +kernel), by decide +kernel, some_of (by decide +kernel)⟩, ⟨passes_of (by decide +kernel), by decide +kernel, some_of (by decide +kernel)⟩,
    ⟨passes_of (by decide +kernel), by decide +kernel, some_of (by decide +kernel)⟩, ⟨passes_of (by decide +kernel), by decide +kernel, some_of (by decide +kernel)⟩,
    ⟨passes_of (by decide +kernel), by decide +kernel, some_of (by decide +kernel)⟩, ⟨passes_of (by decide +kernel), by decide +kernel, some_of (by decide +kernel)⟩,
    ⟨passes_of (by decide +kernel), by decide +kernel, some_of (by decide +kernel)⟩, ⟨by decide +kernel, fails_of (by decide +kernel)⟩⟩

/-- As placeS, with object 1 of two blocks in HBM (stack 0) and object 3 of two blocks in the slow tier. -/
def placeS2 (d : Desc) : State := { placeS d with
  mem := { objs := [(1, { ubase := 0, size := 2 ^ 22, ctx := 0, frames := [300, 301] }), (3, { ubase := 2 ^ 22, size := 2 ^ 22, ctx := 0, frames := [524288, 524289] })] } }
/-- Every block of the object is to move, and none moves yet. -/
def allMove (s : State) (o : Obj) (id : Nat) : Bool := decide (o.state = 1 ∧ o.blocks = 2) && s.mem.migs.isEmpty && decide (s.moving id 0 = false)

/-- PROMOTE with and without PIN, DEMOTE and REHOME (to stack 1) of two blocks. -/
theorem witness_PlaceOperations_moves :
    placeRuns 3 (placeS2 (placeD 3 3 (2 ^ 22) 0 0)) (placeD 3 3 (2 ^ 22) 0 0) (fun s o => allMove s o 3 && decide ((namedBlocks (placeD 3 3 (2 ^ 22) 0 0) o).filter (fun b => !isHbm (o.frames.getD b 0)) = [0, 1])) ∧
    placeRuns 3 (placeS2 (placeD 3 3 (2 ^ 21) 1 0)) (placeD 3 3 (2 ^ 21) 1 0) (fun s o => allMove s o 3 && decide ((List.range o.blocks).filter (fun b => !isHbm (o.frames.getD b 0)) = [0, 1])) ∧
    placeRuns 4 (placeS2 (placeD 4 1 (2 ^ 22) 0 0)) (placeD 4 1 (2 ^ 22) 0 0) (fun s o => allMove s o 1 && decide ((namedBlocks (placeD 4 1 (2 ^ 22) 0 0) o).filter (fun b => isHbm (o.frames.getD b 0)) = [0, 1] ∧
      2 ≤ s.freeSlowCount ∧ fld (s.reg (rSlowLimit 0)) 0 24 = 0 ∧ s.mem.objs.Pairwise (fun x y => x.1 < y.1))) ∧
    placeRuns 5 (placeS2 (placeD 5 1 1 0 2)) (placeD 5 1 1 0 2) (fun s o => allMove s o 1 && decide ((List.range o.blocks).filter (fun b => isHbm (o.frames.getD b 0) && !(stackMaskOf 2).testBit (stackOf (o.frames.getD b 0))) = [0, 1])) ∧
    (placeS2 (dsc [])).hbmFree (stackMaskOf 0) 2 ∧ (placeS2 (dsc [])).hbmFree (stackMaskOf 2) 2 :=
  ⟨⟨passes_of (by decide +kernel), by decide +kernel, some_of (by decide +kernel)⟩, ⟨passes_of (by decide +kernel), by decide +kernel, some_of (by decide +kernel)⟩,
    ⟨passes_of (by decide +kernel), by decide +kernel, some_of (by decide +kernel)⟩, ⟨passes_of (by decide +kernel), by decide +kernel, some_of (by decide +kernel)⟩,
    ⟨[400, 401], by decide +kernel⟩, ⟨[40000, 40001], by decide +kernel⟩⟩

/-- PREFETCH_PLAN of one step and one item from object 2; its item names object 1 with ACTION act. -/
def planD : Desc := dsc [(0, 7), (16, ref 2 0), (24, 48), (28, 1), (30, 1), (32, 1)]
def planS (act : Nat) : State := { with1 planD with
  mem := { (with1 planD).mem with data := Mem.writeN [] (2 ^ 21) (leBytes 8 0 ++ leBytes 4 0 ++ leBytes 4 1 ++ leBytes 4 1 ++ [byte act, 1#8, 0#8, 0#8] ++ leBytes 24 0) } }

theorem witness_BlocksAndFrames :
    (let s := { with1 (dsc []) with mem := { (with1 (dsc [])).mem with objs := [(1, { ubase := 0, size := 2 ^ 21, ctx := 0, state := 2, frames := [300] })] } }
     (s.obj? 1).map (fun o => (o.state, (s.ctx o.ctx).allDone o.waits)) = some (2, true) ∧ s.mem.objs.Pairwise (fun x y => x.1 < y.1)) ∧
    (let m : Mig := ⟨1, 0, 300, []⟩
     let s := { with1 (dsc []) with mem := { (with1 (dsc [])).mem with migs := [m] } }
     s.mem.migs.find? (fun m => m.obj == 1 && m.blk == 0) = some m ∧ s.migReady m = true ∧ (s.obj? 1).map (fun o => decide (0 < o.frames.length ∧ s.failLines o 0 = [])) = some true ∧
      (∀ f ∈ s.flash.retired, f ≠ m.frame ∧ f ≠ 0 ∧ f ≠ 1 ∧ f ≠ 600000) ∧ (∀ x ∈ s.ctxs, x.2.pfJobs = [] ∧ ∀ d ∈ x.2.descs, d.work = .idle)) ∧
    (with1 (dsc [])).noRetiredBlocks := by
  refine ⟨by decide +kernel, by decide +kernel, ?_⟩
  unfold State.noRetiredBlocks; decide +kernel

/-- ACTION 1 is defined, 0 is not. -/
theorem witness_BlocksAndFrames_plan : planD.opcode = 7 ∧ (planS 1).Passes (0 : CtxId) (0 : RingId) 0#32 planD (planChk (0 : CtxId)) ∧ (planS 0).Passes (0 : CtxId) (0 : RingId) 0#32 planD (planChk (0 : CtxId)) ∧
    (let s1 := ((planS 1).beginDesc (0 : CtxId) planD).touchRefs (0 : CtxId) [planD.num 16 8]
     let g := s1.readTarget (0 : CtxId) (s1.resolve (0 : CtxId) (planD.num 16 8)) 48
     g.stop = none ∧ (records 16 1 g.data).all ((planS 1).planStepOk (0 : CtxId) 1) = true ∧ (records 32 1 (g.data.drop 16)).all ((planS 1).planItemOk (0 : CtxId)) = true) ∧
    (let s1 := ((planS 0).beginDesc (0 : CtxId) planD).touchRefs (0 : CtxId) [planD.num 16 8]
     let g := s1.readTarget (0 : CtxId) (s1.resolve (0 : CtxId) (planD.num 16 8)) 48
     g.stop = none ∧ (records 32 1 (g.data.drop 16)).all ((planS 0).planItemOk (0 : CtxId)) = false) :=
  ⟨by decide +kernel, passes_of (by decide +kernel), passes_of (by decide +kernel), by decide +kernel, by decide +kernel⟩

theorem witness_WindowAndMemoryErrors :
    (let s := with1 (dsc [])
     s.chip.stage = 4 ∧ 8 < s.mem.barW ∧ s.winBase = 0 ∧ (s.objAt (s.winBase + 8)).map (fun x => (x.1, x.2.readOnly)) = some (1, false) ∧ (s.winBase + 8) % blockBytes + 4 ≤ blockBytes ∧
      (s.devRead (s.winBase + 8) 4).stop = none ∧ ({ s with mem := { s.mem with poison := [0] } }.devRead 8 4).stop ≠ none ∧ s.objAt (s.winBase + 3 * 2 ^ 21) = none ∧
      { s with mem := { s.mem with objs := [(1, { ubase := 0, size := 2 ^ 21, ctx := 0, readOnly := true })] } }.objAt 8 = some (1, { ubase := 0, size := 2 ^ 21, ctx := 0, readOnly := true })) ∧
    (let s := { with1 (dsc []) with mem := { (with1 (dsc [])).mem with eccRows := [(5, List.replicate 7 0#64)] } }
     isHbm 300 = true ∧ 7 ≤ ((s.mem.eccRows.get [] (2 ^ 21 * (0 : StackId).val + 5)).filter (fun x => decide ((s.time - x).toNat < 86400 * 10 ^ 9))).length) ∧
    (let s := with1 (dsc [])
     (s.blockOwner 64).map (fun x => (x.1, x.2.state, isHbm (x.2.frames.getD ((64 - x.2.ubase) / blockBytes) hbmFrames))) = some (1, 1, true) ∧ bitOf (s.reg rScrub) 31 = true ∧
      bitOf ({ s with regs := [(rScrub, 0#64)] }.reg rScrub) 31 = false) ∧
    (let s := with1 (dsc [])
     (s.blockOwner (2 ^ 22)).map (fun x => (x.1, x.2.state, isHbm (x.2.frames.getD ((2 ^ 22 - x.2.ubase) / blockBytes) 0))) = some (3, 1, false) ∧ s.hostB.presents .pf = false ∧
      s.hostA.presents .pf = true ∧ { s with hostB := s.hostA }.hostB.presents .pf = true) ∧ (with1 (dsc [])).spareReady ∧ (with1 (dsc [])).noMoves := by
  refine ⟨by decide +kernel, by decide +kernel, by decide +kernel, by decide +kernel, ?_, rfl, ?_⟩
  · unfold State.spareReady State.noRetiredBlocks; decide +kernel
  · intro x hx
    have hx : x = (0, { up.ctx 0 with descs := [dsc []] }) := by simpa [with1] using hx
    subst hx
    refine ⟨rfl, ?_⟩
    intro d hd r h
    have hd : d = dsc [] := by simpa using hd
    subst hd; cases h

/-- Each write that is taken and one that is not; the clauses exclude each other by their form. -/
theorem witness_MemoryConfiguration : up.chip.stage = 4 ∧
    (524287 + 1 ≤ 524288 ∧ fld (0x00000001_0007FFFF#64).toNat 0 19 = 524287 ∧ fld (0x00000001_0007FFFF#64).toNat 32 20 = 1 ∧ up.mem.objs = [] ∧
      ∀ k, k < 64 → rangesMeet 524287 1 (fld (up.reg (rObjRange k)) 0 19) (fld (up.reg (rObjRange k)) 32 20) = false) ∧
    up.floorSum + fld (524032#32).toNat 0 20 ≤ up.poolSize + up.floor (0 : CtxId) ∧ up.poolSize + up.floor (0 : CtxId) < up.floorSum + fld (524033#32).toNat 0 20 ∧
    up.floor (0 : CtxId) < fld (524033#32).toNat 0 20 ∧
    (fld (0x00000001_001FFFFF#64).toNat 0 21 + fld (0x00000001_001FFFFF#64).toNat 32 22 = 2097152 ∧ up.ledger.entries = [] ∧ ∀ k, k < 64 → rangesMeet 2097151 1 (up.entryLo k) (up.entryN k) = false) ∧
    (fld (0x00000001_0000FFFF#64).toNat 0 16 + fld (0x00000001_0000FFFF#64).toNat 32 17 = 65536 ∧ up.ledger.seqs = [] ∧ ∀ k, k < 64 → rangesMeet 65535 1 (up.seqLo k) (up.seqN k) = false) ∧
    up.regionInUse (0 : Fin 16) = false ∧
    (let s := { with1 (dsc []) with regs := [(rSlowSize 0, 0x4000000000#64)] }
     s.regionInUse (0 : Fin 16) = true) ∧
    (blockBytes % blockBytes = 0 ∧ (((List.range 16).filter (fun k => k != (0 : Fin 16).val)).map (fun k => up.reg (rSlowSize k))).sum + 2 ^ 44 ≤ 2 ^ 44 ∧
      ∀ k, k < 16 → k ≠ 0 → ¬(up.reg (rSlowBase 0) < up.slowIova k + up.reg (rSlowSize k) ∧ up.slowIova k < up.reg (rSlowBase 0) + 2 ^ 44)) ∧
    (up.holds (.vf 1) (1 : CtxId) = true ∧ (up.ctx (1 : CtxId)).state = .idle ∧ up.liveSeqs (1 : CtxId) = [] ∧ 0 < fld (0x00010040#32).toNat 16 12 ∧ fld (0x00010040#32).toNat 0 16 % 64 = 0 ∧
      0 < fld (0x00010040#32).toNat 0 16 ∧ (up.ctx (0 : CtxId)).state ≠ .idle) := by decide +kernel

/-- `up` with port 0 in a state. -/
def port0 (x : Port) : State := { up with fabric := { ports := [(0, x)] } }

theorem quiet_of {s : State} (h : s.ctxs.all (fun (x : Nat × Ctx) => x.2.descs.all (fun d => match d.work with
    | .coll _ => false
    | _ => true)) = true) (k : s.ctxs.all (fun (x : Nat × Ctx) => x.2.pair.all (fun p => decide (p.turn = none))) = true) : s.quiet := by
  refine ⟨noColls_of h, fun x hx p e => ?_⟩
  have := List.all_eq_true.mp k x hx
  rw [e] at this
  exact of_decide_eq_true this

theorem witness_LinksAndPorts : up.quiet ∧ ((port0 { state := 2 }).port (0 : PortId)).state = 2 ∧ ((port0 { state := 3 }).port (0 : PortId)).state = 3 ∧
    (port0 { state := 3 }).fabric.waiting = [] ∧ (port0 { state := 3 }).quiet ∧
    ((port0 { state := 5 }).port (0 : PortId)).state = 5 ∧ ((port0 { state := 7 }).port (0 : PortId)).state = 7 ∧ up.chip.stage = 4 ∧ (1#32).getLsbD 0 = true ∧ (2#32).getLsbD 0 = false ∧
    ((port0 { state := 3 }).port (0 : PortId)).state ≠ 0 ∧
    (let s := { up with fabric := { cwSpares := [(2 * 3 + 1, 4)], cwDown := 1#10 } }
     s.fabric.cwDown.getLsbD 3 = false ∧ s.fabric.cwSpares.get 0 6 < 4 ∧ 4 ≤ s.fabric.cwSpares.get 0 7 ∧ s.fabric.cwDown.getLsbD 0 = true) := by
  refine ⟨quiet_of (by decide +kernel) (by decide +kernel), by decide +kernel, by decide +kernel, by decide +kernel, quiet_of (by decide +kernel) (by decide +kernel), ?_⟩
  decide +kernel

theorem witness_FabricConfiguration : up.chip.stage = 4 ∧ up.anyColl = false ∧
    { up with ctxs := [(0, { up.ctx 0 with descs := [{ dsc [(0, 4)] with start := some 0 }] })] }.anyColl = true ∧
    ((up.ctx (1 : CtxId)).state = .idle ∧ (∀ k : CtxId, k ≠ 1 → up.tag k ≠ (9#32).toNat % 2 ^ 24) ∧ (up.ctx (0 : CtxId)).state = .active) := by decide +kernel

/-- A module of address 5, the tag of context 0 is 9, and port 0 is in UP. -/
def net (x : Port) : State := { port0 { x with state := 4 } with regs := [(rModAddr, 0x80000005#64), (rCtxTag 0, 9#64)] }
/-- A header with link sequence number n: no payload, to module dst, of a tag and epoch. -/
def hdr (dst tag epoch n : Nat) : HdrWord := sealHdr (dataHdr 1 0 tag 6 dst epoch 0 0 0) (half n)
/-- `net` with context 0 the consumer (role 2) or the producer (role 1) of stage queue 3. -/
def netQ (role : Nat) : State := { net {} with ctxs := [(0, { up.ctx 0 with queues := [(3, { peer := 6, role := role, slots := 2, slotBytes := 256 })] })] }
/-- The distance that the frame rules compare: 0 in order, below 32,768 a skip, from 32,768 on a repeat. -/
def gap (h : HdrWord) : Nat := (BitVec.ofNat 16 (hdrLinkSeq h) - ((net {}).port (0 : PortId)).recvSeq).toNat
/-- A header to another module with no hop left, and one of slot 1 of queue 3. -/
def lastHop : HdrWord := sealHdr (frameHdr 1 1 0 0 9 6 7 1 0 0 0) 0#16
def slotHdr (type seq : Nat) : HdrWord := sealHdr (frameHdr type 2 4 0 9 6 5 1 3 seq 0) 0#16
/-- A link CREDIT. -/
def linkCredit : HdrWord := sealHdr (frameHdr 3 0 0 0 0 6 5 0 0 0 0) 0#16

theorem accepts_of {s : State} {p : Nat} {h : HdrWord} (a : ((s.port p).state == 4 && hdrCrcOk h && decide (hdrLinkSeq h = (s.port p).recvSeq.toNat)) = true) : s.accepts p {} h := by
  simp only [Bool.and_eq_true, beq_iff_eq, decide_eq_true_eq] at a
  exact ⟨⟨a.1.1, rfl, a.1.2⟩, a.2⟩

theorem witness_ReceivedFrames : (net {}).quiet ∧ (net {}).accepts (0 : PortId) {} (hdr 5 9 1 0) ∧
    ((({ ok := false } : Fec).ok = false ∧ hdrCrcOk 1#256 = false) ∧ gap (hdr 5 9 1 32767) = 32767 ∧ hdrCrcOk (hdr 5 9 1 32767) = true ∧ gap (hdr 5 9 1 32768) = 32768 ∧
      hdrCrcOk (hdr 5 9 1 32768) = true) ∧
    (net {}).accepts (0 : PortId) {} lastHop ∧ (net {}).accepts (0 : PortId) {} (hdr 6 9 1 0) ∧
    ((net {}).isMe (hdrDst lastHop) = false ∧ hdrHops lastHop = 0 ∧ (net {}).isMe (hdrDst (hdr 6 9 1 0)) = false ∧ hdrHops (hdr 6 9 1 0) ≠ 0) ∧
    ((net {}).isMe (hdrDst (hdr 5 8 1 0)) = true ∧ (net {}).ctxOfTag (hdrTag (hdr 5 8 1 0)) = none ∧ (net {}).ctxOfTag (hdrTag (hdr 5 9 1 0)) = some 0 ∧ crc32c [] ≠ 1#32) ∧
    (net {}).reaches 0 (hdr 5 9 1 0) [] 0#32 ∧ (net {}).reaches 0 (hdr 5 9 65535 0) [] 0#32 ∧ (net {}).reaches 0 (hdr 5 9 2 0) [] 0#32 ∧
    (olderEpoch (hdrEpoch (hdr 5 9 65535 0)) ((net {}).ctx 0).epoch.toNat = true ∧ hdrEpoch (hdr 5 9 2 0) ≠ ((net {}).ctx 0).epoch.toNat ∧
      olderEpoch (hdrEpoch (hdr 5 9 2 0)) ((net {}).ctx 0).epoch.toNat = false) := by
  refine ⟨quiet_of (by decide +kernel) (by decide +kernel), accepts_of (by decide +kernel), by decide +kernel, accepts_of (by decide +kernel), accepts_of (by decide +kernel), by decide +kernel,
    by decide +kernel, ?_, ?_, ?_, by decide +kernel⟩ <;> exact ⟨by decide +kernel, by decide +kernel, by decide +kernel⟩

/-- The consumer's window is slots 0 and 1. -/
theorem witness_ReceivedFrames_queue : (netQ 2).quiet ∧ (netQ 2).accepts (0 : PortId) {} (slotHdr 1 1) ∧ (netQ 2).reaches 0 (slotHdr 1 1) [] 0#32 ∧
    (let y : QueueSt := { peer := 6, role := 2, slots := 2, slotBytes := 256 }
     hdrEpoch (slotHdr 1 1) = ((netQ 2).ctx 0).epoch.toNat ∧ hdrVc (slotHdr 1 1) = 2 ∧ ((netQ 2).ctx 0).queues.find? (hdrGroup (slotHdr 1 1)) = some y ∧ y.role = 2 ∧ y.seen = [] ∧ y.flushing = false ∧
      y.next ≤ hdrSeq (slotHdr 1 1) ∧ hdrSeq (slotHdr 1 1) < y.next + y.slots ∧ y.next + y.slots ≤ hdrSeq (slotHdr 1 2)) := by
  refine ⟨quiet_of (by decide +kernel) (by decide +kernel), accepts_of (by decide +kernel), ⟨by decide +kernel, by decide +kernel, by decide +kernel⟩, ?_⟩
  decide +kernel

theorem witness_ReceivedFrames_control : (netQ 1).quiet ∧ (netQ 1).accepts (0 : PortId) {} (slotHdr 3 0) ∧ (netQ 1).reaches 0 (slotHdr 3 0) [] 0#32 ∧ (netQ 1).accepts (0 : PortId) {} linkCredit ∧
    (hdrIsLink (slotHdr 3 0) = false ∧ hdrIsLink linkCredit = true ∧ crc32c [] = 0#32 ∧ hdrGroup (slotHdr 3 0) < 256 ∧ ((netQ 1).port (0 : PortId)).queued = [] ∧
      (((netQ 1).ctx 0).queues.find? (hdrGroup (slotHdr 3 0))).map (fun (y : QueueSt) => y.role) = some 1) ∧
    (let f := fun (n r : Nat) => ({ hdr := hdr 6 9 1 n, payload := [], crc := 0#32, replays := r } : Frame)
     let again := fun (f : Frame) => decide ((BitVec.ofNat 16 (hdrLinkSeq f.hdr) - 4#16).toNat < 32768)
     let s := net { replay := [f 3 0, f 4 6, f 5 6] }
     let t := net { replay := [f 4 7] }
     hdrCrcOk (hdr 5 9 1 4) = true ∧ BitVec.ofNat 16 (hdrLinkSeq (hdr 5 9 1 4)) = 4#16 ∧
     (∀ f ∈ (s.port (0 : PortId)).replay, again f = true → f.replays < 7) ∧ (∀ f ∈ (s.port (0 : PortId)).replay, again f = false → f.replays < 8) ∧
      (∃ f ∈ (t.port (0 : PortId)).replay, again f = true ∧ 7 ≤ f.replays) ∧ (∃ f ∈ (s.port (0 : PortId)).replay, BitVec.ofNat 16 (hdrLinkSeq f.hdr) = 4#16) ∧
      (∀ f ∈ (s.port (0 : PortId)).replay, BitVec.ofNat 16 (hdrLinkSeq f.hdr) ≠ 6#16)) ∧
    ((port0 { state := 3 }).port (0 : PortId)).state ≠ 4 := by
  refine ⟨quiet_of (by decide +kernel) (by decide +kernel), accepts_of (by decide +kernel), ⟨by decide +kernel, by decide +kernel, by decide +kernel⟩, accepts_of (by decide +kernel), by decide +kernel,
    by decide +kernel, by decide +kernel⟩

/-- A READY of group 1 whose payload fails, one of an older epoch, a slot CREDIT of a queue that is not open, and CTRL with a flush message and with none. -/
theorem witness_ReceivedFrames_messages :
    (let h := sealHdr (frameHdr 2 1 4 0 9 6 5 1 1 0 0) 0#16
     (net {}).accepts (0 : PortId) {} h ∧ (net {}).reaches 0 h [] 0#32 ∧ hdrGroup h < 256 ∧ hdrType h = 2 ∧ hdrVc h ≠ 2 ∧ crc32c [] ≠ 7#32 ∧ ((net {}).ctx 0).mile.state ≠ 2 ∧
       olderEpoch (hdrEpoch h) ((net {}).ctx 0).epoch.toNat = false ∧ (net {}).reaches 0 (hdr 5 9 65535 0) [] 0#32 ∧ hdrGroup (hdr 5 9 65535 0) < 256) ∧
    ((net {}).accepts (0 : PortId) {} (slotHdr 3 0) ∧ (net {}).reaches 0 (slotHdr 3 0) [] 0#32 ∧ ((net {}).ctx 0).queues.find? (hdrGroup (slotHdr 3 0)) = none) ∧
    (let h := sealHdr (frameHdr 6 2 4 0 9 6 5 1 3 0 0) 0#16
     (netQ 2).accepts (0 : PortId) {} h ∧ hdrIsLink h = false ∧ (netQ 2).reaches 0 h (leBytes 4 1) (crc32c (leBytes 4 1)) ∧ ctrlOf (leBytes 4 1) = some .flush ∧
       (netQ 2).reaches 0 h (leBytes 4 99) (crc32c (leBytes 4 99)) ∧ ctrlOf (leBytes 4 99) = none) := by
  refine ⟨⟨accepts_of (by decide +kernel), ⟨by decide +kernel, by decide +kernel, by decide +kernel⟩, by decide +kernel, by decide +kernel, by decide +kernel, by decide +kernel, by decide +kernel,
    by decide +kernel, ⟨by decide +kernel, by decide +kernel, by decide +kernel⟩, by decide +kernel⟩,
    ⟨accepts_of (by decide +kernel), ⟨by decide +kernel, by decide +kernel, by decide +kernel⟩, by decide +kernel⟩,
    ⟨accepts_of (by decide +kernel), by decide +kernel, ⟨by decide +kernel, by decide +kernel, rfl⟩, by decide +kernel, ⟨by decide +kernel, by decide +kernel, rfl⟩, by decide +kernel⟩⟩

/-- Group 0 of one rank and group 1 of two, with this module of address 5 as rank 0, in object 2. -/
def groups : Mem := Mem.writeN [] (2 ^ 21 + 0x1000) (leBytes 2 1 ++ leBytes 2 0 ++ leBytes 4 64 ++ leBytes 8 0 ++ leBytes 2 2 ++ leBytes 2 0 ++ leBytes 4 66 ++ List.replicate 40 0#8 ++
  leBytes 2 5 ++ leBytes 2 5 ++ leBytes 2 6)
/-- A COLLECTIVE of OP op on group g with its operands in objects 1 and 2, 2 elements. -/
def collD (op g : Nat) : Desc := dsc [(0, 4), (16, op), (20, g), (22, if op = 5 ∨ op = 6 then 1 else 0), (24, if op = 6 then 0 else ref 1 0), (32, if op = 5 then 0 else ref 1 0x100000), (40, 2)]
def collS (d : Desc) : State := { with1 d with
  regs := [(rObjRange 0, 0x1000000000#64), (rRingCfg 0 0, 0x80000000#64), (rModAddr, 0x80000005#64), (rCtxTag 0, 9#64), (rGroupBase 0, BitVec.ofNat 64 (ref 2 0x1000)), (rGroupCfg 0, 2#64)]
  mem := { (with1 d).mem with data := groups } }

/-- What a statement about a COLLECTIVE that begins asks. -/
def collRuns (op g : Nat) : Prop := isColl op (collD op g) = true ∧ (collS (collD op g)).Passes (0 : CtxId) (0 : RingId) 0#32 (collD op g) (collChk op (0 : CtxId)) ∧
  (∃ r, ((collS (collD op g)).beginDesc (0 : CtxId) (collD op g)).readGroup (0 : CtxId) ((collD op g).num 20 2) = .ok r ∧ (r.ranks.length == g + 1) = true) ∧ bitOf (collFlags (collD op g)) 1 = false

theorem witness_CollectivesBegin : collRuns 1 1 ∧ collRuns 2 1 ∧ collRuns 3 1 ∧ collRuns 4 1 ∧ collRuns 5 1 ∧ collRuns 6 1 :=
  ⟨⟨by decide +kernel, passes_of (by decide +kernel), ok_of (by decide +kernel), by decide +kernel⟩, ⟨by decide +kernel, passes_of (by decide +kernel), ok_of (by decide +kernel), by decide +kernel⟩,
    ⟨by decide +kernel, passes_of (by decide +kernel), ok_of (by decide +kernel), by decide +kernel⟩, ⟨by decide +kernel, passes_of (by decide +kernel), ok_of (by decide +kernel), by decide +kernel⟩,
    ⟨by decide +kernel, passes_of (by decide +kernel), ok_of (by decide +kernel), by decide +kernel⟩, ⟨by decide +kernel, passes_of (by decide +kernel), ok_of (by decide +kernel), by decide +kernel⟩⟩

theorem witness_CollectivesBegin_alone : collRuns 1 0 ∧ collRuns 3 0 ∧ (collS (collD 1 0)).noColls ∧ (collS (collD 3 0)).noColls ∧
    (let s := collS (collD 1 0)
     (s.ctx 0).mile.setup = none ∧ s.fabric.waiting = [] ∧ s.fabric.ports = []) ∧
    (let d := collD 3 0
     let s := collS d
     let s1 := (s.beginDesc (0 : CtxId) d).touchRefs (0 : CtxId) [d.num 24 8, d.num 32 8]
     let r := s1.readHeld (0 : CtxId) (dword (s.pinRef (0 : CtxId) (d.num 24 8))).toNat 0 (d.num 40 8 * dtSize (d.num 17 1 % 16))
     r.stop = none ∧ ∃ s2, s1.writeHeld (0 : CtxId) (dword (s.pinRef (0 : CtxId) (d.num 32 8))).toNat 0 (outElems (d.num 17 1 / 16) (wideElems (d.num 17 1 % 16) r.data)) = (s2, none)) :=
  ⟨⟨by decide +kernel, passes_of (by decide +kernel), ok_of (by decide +kernel), by decide +kernel⟩, ⟨by decide +kernel, passes_of (by decide +kernel), ok_of (by decide +kernel), by decide +kernel⟩,
    noColls_of (by decide +kernel), noColls_of (by decide +kernel), by decide +kernel, ⟨by decide +kernel, done_of (by decide +kernel)⟩⟩

/-- A stage queue 3 of 2 slots of 256 bytes in object 3's neighbour 2. -/
def queue (role credits : Nat) : QueueSt := { peer := 6, role := role, slots := 2, slotBytes := 256, buf := BitVec.ofNat 64 (ref 2 0), credits := credits, filled := [(0, 4)] }
def queueD (op : Nat) : Desc := dsc [(0, 4), (16, op), (20, 3), (24, if op = 7 then ref 1 0 else 0), (32, if op = 7 then 0 else ref 1 0), (40, 4)]
def queueS (d : Desc) (y : QueueSt) : State := { collS d with ctxs := [(0, { up.ctx 0 with descs := [d], queues := [(3, y)] })] }
/-- A COLLECTIVE in progress. -/
def collR (op : Nat) (armed : Option Nat) : Desc := { queueD 7 with start := some 0, work := .coll { op := op, group := 3, count := 4, seq := 0, armed := armed } }

theorem witness_QueuesAndTimeouts :
    (isColl 7 (queueD 7) = true ∧ bitOf (collFlags (queueD 7)) 1 = false ∧ (queueS (queueD 7) (queue 1 0)).Passes (0 : CtxId) (0 : RingId) 0#32 (queueD 7) (collChk 7 (0 : CtxId)) ∧ (queueS (queueD 7) (queue 1 0)).noColls ∧
      ((queueS (queueD 7) (queue 1 0)).ctx 0).queues.find? ((queueD 7).num 20 2) = some (queue 1 0) ∧ (queue 1 0).credits = 0) ∧
    ((queueS (queueD 7) (queue 1 1)).Passes (0 : CtxId) (0 : RingId) 0#32 (queueD 7) (collChk 7 (0 : CtxId)) ∧ (queueS (queueD 7) (queue 1 1)).noColls ∧ 0 < (queue 1 1).credits ∧
      ((((queueS (queueD 7) (queue 1 1)).beginDesc (0 : CtxId) (queueD 7)).touchRefs (0 : CtxId) [(queueD 7).num 24 8]).readHeld (0 : CtxId)
        (dword ((queueS (queueD 7) (queue 1 1)).pinRef (0 : CtxId) ((queueD 7).num 24 8))).toNat 0 ((queueD 7).num 40 8)).stop = none) ∧
    (let d := collR 3 none
     (collS d).desc? (0 : CtxId) (0 : RingId) 0#32 = some d ∧ d.ending = none ∧ (collS (collR 3 (some 0))).desc? (0 : CtxId) (0 : RingId) 0#32 = some (collR 3 (some 0)) ∧
      (collS (collR 7 none)).desc? (0 : CtxId) (0 : RingId) 0#32 = some (collR 7 none)) ∧
    ((queueS (dsc []) (queue 2 0)).noColls ∧ ((queueS (dsc []) (queue 2 0)).ctx 0).queues.find? 3 = some (queue 2 0) ∧ (queueS (dsc []) (queue 2 0)).maySend 0 = true) :=
  ⟨⟨by decide +kernel, by decide +kernel, passes_of (by decide +kernel), noColls_of (by decide +kernel), by decide +kernel, rfl⟩,
    ⟨passes_of (by decide +kernel), noColls_of (by decide +kernel), by decide +kernel, by decide +kernel⟩, by decide +kernel, ⟨noColls_of (by decide +kernel), by decide +kernel, by decide +kernel⟩⟩

/-- A QSEND whose slot is sent and not yet acknowledged, a held frame of a newer epoch that is still fresh, and a module that hears its context. -/
theorem witness_QueuesAndTimeouts_since :
    (let d : Desc := { queueD 7 with start := some 0, work := .coll { op := 7, group := 3, count := 4, seq := 0, final := true } }
     let f : Frame := { hdr := hdr 5 9 2 0, payload := [], crc := 0#32 }
     let s := { collS d with ctxs := [(0, { up.ctx 0 with descs := [d], newer := [(0, f)] })] }
     s.desc? (0 : CtxId) (0 : RingId) 0#32 = some d ∧ (match d.work with | .coll r => r.final && r.armed.isNone | _ => false) = true ∧
       ∀ f ∈ (s.ctx (0 : CtxId)).newer, (s.time - f.2.since).toNat < s.collTimeoutNs 0) ∧
    (queueS (dsc []) (queue 2 0)).hears 0 = true := by decide +kernel

theorem witness_QueuesAndTimeouts_receive : isColl 8 (queueD 8) = true ∧ bitOf (collFlags (queueD 8)) 1 = false ∧
    (queueS (queueD 8) (queue 2 0)).Passes (0 : CtxId) (0 : RingId) 0#32 (queueD 8) (collChk 8 (0 : CtxId)) ∧ (queueS (queueD 8) (queue 2 0)).noColls ∧
    (let y := queue 2 0
     let s1 := ((queueS (queueD 8) y).beginDesc (0 : CtxId) (queueD 8)).touchRefs (0 : CtxId) [(queueD 8).num 32 8]
     let slot := (s1.resolve (0 : CtxId) y.buf.toNat).plus (y.next % y.slots * y.slotBytes)
     let g := s1.readTarget (0 : CtxId) slot ((queueD 8).num 40 8)
     ((queueS (queueD 8) y).ctx 0).queues.find? ((queueD 8).num 20 2) = some y ∧ y.flushing = false ∧ y.bad = [] ∧ ceilDiv ((queueD 8).num 40 8) 4 * 4 ≤ y.got y.next ∧
      (queueD 8).num 40 8 ≤ slot.extent ∧ g.stop = none ∧ (queueS (queueD 8) y).maySend (0 : CtxId) = true ∧
      (s1.writeHeld (0 : CtxId) (dword ((queueS (queueD 8) y).pinRef (0 : CtxId) ((queueD 8).num 32 8))).toNat 0 g.data).2 = none) :=
  ⟨by decide +kernel, by decide +kernel, passes_of (by decide +kernel), noColls_of (by decide +kernel), by decide +kernel⟩

/-- A cartridge of a rated life of 100 hours. -/
def cart : CartRecord := { serial := 7#64, model := 1#32, mfgDate := 0x20260101#32, ratedLife := 100#32, wear := 0#32, bias0 := 100#16, pHalf := 10#16 }
/-- `up` with bays 0 and 1 in the given states. -/
def bays (x y : Bay) : State := { up with fabric := { bays := [(0, x), (1, y)] } }

theorem witness_LaserBays : ((bays {} {}).bay (0 : BayId)).state = bayEmpty ∧
    ((bays { state := bayCheck } { state := bayIn }).bay (0 : BayId)).state = bayCheck ∧ ((bays { state := bayCheck } { state := bayIn }).bay (partnerOf (0 : BayId))).lit = true ∧
    (let s := bays { state := bayCheck } {}
     (s.bay (0 : BayId)).state = bayCheck ∧ (s.bay (partnerOf (0 : BayId))).lit = false ∧ ((0 : PortId).val / 8 = (0 : BayId).val / 2 ∧ (s.port (0 : PortId)).state = 0 ∧ 3 ≤ s.chip.stage ∧
       bitOf (s.reg (rPortCtl (0 : PortId))) 0 = false ∧ s.inputs.domainsOff.contains (386 + 3 * ((0 : PortId).val / 8)) = false)) ∧
    (let s := bays { state := bayIn, ramping := true } { state := bayIn, ramping := true }
     (s.bay (2 * (0 : DieId))).ramping = true ∧ (s.bay (2 * (0 : DieId))).state = bayIn ∧ (s.bay (2 * (0 : DieId) + 1)).ramping = true ∧ (s.bay (2 * (0 : DieId) + 1)).state = bayIn) ∧
    (let s := bays { state := bayRetiring } { state := bayIn }
     (s.bay (0 : BayId)).state = bayRetiring ∧ (s.bay (partnerOf (0 : BayId))).state = bayIn ∧ (s.bay (partnerOf (0 : BayId))).ramping = false) ∧
    (let s := bays { state := bayIn, record := some cart } { state := bayIn }
     (s.bay (0 : BayId)).lit = true ∧ (s.bay (partnerOf (0 : BayId))).lit = true ∧ (s.bay (0 : BayId)).state ≠ bayEmpty ∧ (s.bay (0 : BayId)).state ≠ bayOut ∧ (s.bay (0 : BayId)).record = some cart ∧
      (550 ≤ 550 ∧ 0 = 0 ∨ 550 = 550 + 100 * 0) ∧ (750 ≤ 550 ∧ 2 = 0 ∨ 750 = 550 + 100 * 2) ∧ cart.ratedLife.toNat ≤ (s.bay (0 : BayId)).wear.toNat + (1250 * 2 ^ 2 + 25) / 50 ∧ s.chip.stage = 4 ∧
      ((s.bay (0 : BayId)).state = bayIn ∧ (s.bay (partnerOf (0 : BayId))).state = bayIn)) ∧
    (let s := bays { state := baySolo } {}
     (s.bay (0 : BayId)).lit = true ∧ (s.bay (partnerOf (0 : BayId))).lit = false ∧ ¬((s.bay (0 : BayId)).state = bayIn ∧ (s.bay (partnerOf (0 : BayId))).state = bayIn) ∧ s.chip.stage = 4) := by decide +kernel

/-- What a cartridge answers, made outside the model: the P-384 signature over SHA-384 of nonce, record and certificate, and the same for another nonce. -/
def proof1 (nonce : BitVec 256) : CartProof := { chainOk := true, cert := [0x30#8, 3#8, 2#8, 1#8, 7#8], serial := 7#64
                                                 keyX := 0x28d1be516e821765776ef7266e3d4a871ea1c8eb21c84d258dc4581a1cb27b9077168a9857f4b35df57b147fa5fc083c
                                                 keyY := 0xecea0cf85238912d22fa86d73f572a3c3029138bc180cbdc7d352eae39da46ba4be3c65f6aaae88e845f8aa7f0d1a06b
                                                 nonce := nonce
                                                 sigR := 0xd94cae33c4a8ff652c6e6b52481d06b8e8262dd2d16cee3ee69249aa56407120b149ad1b21ebb041ba11eccd2d7e05b7
                                                 sigS := 0x3c682887cbd69c4da38e2be33761feadd495073e3a1c3058df747c6e2e41fdb760b016e7826b052df472a7a41fafd0e5 }
theorem witness_LaserBays_authentic : cartOk (proof1 0x123456789abcdef0123456789abcdef0123456789abcdef0123456789abcdef) cart = true := by decide +kernel
theorem witness_LaserBays_false : cartOk (proof1 0) cart = false ∧ cartOk { proof1 0 with chainOk := false } cart = false ∧
    (let s := bays { ilk := true } { state := bayCheck }
     (s.bay (0 : BayId)).state = bayEmpty ∧ (s.bay (0 : BayId)).ilk = true ∧ (s.bay (1 : BayId)).state = bayCheck ∧ 3 ≤ s.chip.stage ∧ { s with chip := { s.chip with stage := 2 } }.chip.stage < 3) ∧
    ((bays {} {}).bay (0 : BayId)).ilk = false := by decide +kernel

/-- Context 0 with 64 tokens a page, 2 planes, entries 0 to 1,023 and sequences 0 to 15. -/
def rows (d : Desc) (l : Ledger) : State := { with1 d with
  regs := [(rObjRange 0, 0x1000000000#64), (rRingCfg 0 0, 0x80000000#64), (rKvLayout 0, 0x00020040#64), (rLedgerRange 0, 0x40000000000#64), (rSeqRange 0, 0x1000000000#64)], ledger := l }
/-- Sequence 3 lives in 4 tiers of entries from 8, with a length of 64; its first two entries are pages of object 1, the second of them shared. -/
def live3 : Ledger := { entries := [(8, 0x4000000001000000#64), (9, 0x6000000001000001#64)], seqs := [(3, { live := true, base := 8, cap := 4, len := 64 })] }

/-- A LEDGER_EDIT of one record at object 1. -/
def editD : Desc := dsc [(0, 8), (16, ref 1 0), (24, 1), (32, ref 1 0x1000), (40, 256)]
def editRow (op : Nat) : List Byte := [byte op] ++ leBytes 3 0 ++ leBytes 4 3 ++ leBytes 4 16 ++ leBytes 4 4 ++ leBytes 16 0
def editS (op : Nat) : State := { rows editD {} with mem := { (with1 editD).mem with data := Mem.writeN [] 0 (editRow op) } }

/-- OP 1 with its operands is a record, OP 7 is not. -/
theorem witness_LedgerEdits : editD.opcode = 8 ∧ (editS 1).Passes (0 : CtxId) (0 : RingId) 0#32 editD (editChk (0 : CtxId)) ∧ (editS 7).Passes (0 : CtxId) (0 : RingId) 0#32 editD (editChk (0 : CtxId)) ∧
    (let s1 := ((editS 1).beginDesc (0 : CtxId) editD).touchRefs (0 : CtxId) [editD.num 16 8, editD.num 32 8]
     let g := s1.readTarget (0 : CtxId) (s1.resolve (0 : CtxId) (editD.num 16 8)) (32 * editD.num 24 4)
     g.stop = none ∧ ∃ recs, s1.readEdits (0 : CtxId) (records 32 (editD.num 24 4) g.data) [] = .ok recs ∧ (recs.length == 1) = true) ∧
    (let s1 := ((editS 7).beginDesc (0 : CtxId) editD).touchRefs (0 : CtxId) [editD.num 16 8, editD.num 32 8]
     let g := s1.readTarget (0 : CtxId) (s1.resolve (0 : CtxId) (editD.num 16 8)) (32 * editD.num 24 4)
     g.stop = none ∧ s1.readEdits (0 : CtxId) (records 32 (editD.num 24 4) g.data) [] = .error (stFormat, 0)) :=
  ⟨by decide +kernel, passes_of (by decide +kernel), passes_of (by decide +kernel), ⟨by decide +kernel, ok_of (by decide +kernel)⟩, ⟨by decide +kernel, by rfl⟩⟩

/-- The waiting edit of one record. -/
def applyD (x : EditRec) : Desc := { editD with start := some 0, work := .edit { recs := [x], rows := [3], waits := [], out := 0#64, outBytes := 256 } }
def applyS (x : EditRec) (l : Ledger) : State := rows (applyD x) l
def rec3 (op a0 a1 : Nat) (vs : List DWord) : EditRec := { op := op, free := false, check := false, version := 0#16, seq := 3, arg0 := a0, arg1 := a1, data := 0#64, values := vs }

theorem editOf_of {s : State} {c q : Nat} {p : Word} {d : Desc} {x : EditRec} {r : EditRun} (hd : s.desc? c q p = some d) (hw : d.work = .edit r)
    (h : r.pin = false ∧ r.recs = [x] ∧ (s.ctx c).editReady d r = true ∧ x.check = false) : s.EditOf c q p d x :=
  ⟨r, hd, hw, h.1, h.2.1, h.2.2.1, by simp [h.2.2.2]⟩

theorem witness_LedgerEdits_apply :
    (let x := rec3 1 16 4 []
     x.op = 1 ∧ (applyS x {}).EditOf (0 : CtxId) (0 : RingId) 0#32 (applyD x) x ∧ (applyS x {}).ownsEntries (0 : CtxId) x.arg0 (x.arg1 * (applyS x {}).planes (0 : CtxId)) = true ∧
      ((applyS x {}).seqEntry x.seq).live = false ∧ (applyS x {}).anyShared x.arg0 (x.arg1 * (applyS x {}).planes (0 : CtxId)) = false) ∧
    (let x := rec3 2 65 0 []
     x.op = 2 ∧ x.free = false ∧ (applyS x live3).EditOf (0 : CtxId) (0 : RingId) 0#32 (applyD x) x ∧ (applyS x live3).rowOutside (0 : CtxId) 2 x.seq = false ∧ ((applyS x live3).seqEntry x.seq).live = true ∧
      x.arg0 ≤ (applyS x live3).lenLimit (0 : CtxId) ((applyS x live3).seqEntry x.seq)) ∧
    (let x := rec3 3 7 1 [0x4000000001000002#64]
     x.op = 3 ∧ x.free = false ∧ (applyS x live3).EditOf (0 : CtxId) (0 : RingId) 0#32 (applyD x) x ∧ (applyS x live3).rowOutside (0 : CtxId) 3 x.seq = false ∧ ((applyS x live3).seqEntry x.seq).live = true ∧ x.values.length = x.arg1 ∧
      x.arg0 + x.arg1 ≤ (applyS x live3).rowLen (0 : CtxId) ((applyS x live3).seqEntry x.seq) ∧ (applyS x live3).anyShared (((applyS x live3).seqEntry x.seq).base + x.arg0) x.arg1 = false ∧
      (applyS x live3).ledger.entries.Pairwise (fun x y => x.1 < y.1)) ∧
    (let x := rec3 4 0 0 []
     x.op = 4 ∧ x.free = false ∧ (applyS x live3).EditOf (0 : CtxId) (0 : RingId) 0#32 (applyD x) x ∧ (applyS x live3).rowOutside (0 : CtxId) 4 x.seq = false ∧ ((applyS x live3).seqEntry x.seq).live = true ∧
      ((applyS x live3).ctx (0 : CtxId)).rollout.requests.find? x.seq = none ∧ (applyS x live3).mem.handles = [] ∧ (applyS x live3).ledger.entries.Pairwise (fun x y => x.1 < y.1)) ∧
    (let x := rec3 1 16 4 []
     (applyS x live3).desc? (0 : CtxId) (0 : RingId) 0#32 = some (applyD x) ∧ ∀ s0 : State, (∀ k, (applyS x live3).SameRow s0 k) → s0 = { applyS x live3 with ledger := s0.ledger } → applyEdits (0 : CtxId) { s := s0 } [x] 0 = .error (stState, 0)) := by
  refine ⟨⟨rfl, editOf_of (by decide +kernel) rfl (by decide +kernel), by decide +kernel⟩, ⟨rfl, rfl, editOf_of (by decide +kernel) rfl (by decide +kernel), by decide +kernel⟩,
    ⟨rfl, rfl, editOf_of (by decide +kernel) rfl (by decide +kernel), by decide +kernel⟩, ⟨rfl, rfl, editOf_of (by decide +kernel) rfl (by decide +kernel), by decide +kernel⟩, by decide +kernel, ?_⟩
  intro s0 h e
  have h3 : (s0.seqEntry 3).live = true := (congrArg SeqEntry.live (h 3)).trans (by decide +kernel)
  have ho : s0.ownsEntries 0 16 (4 * s0.planes 0) = (applyS (rec3 1 16 4 []) live3).ownsEntries 0 16 (4 * (applyS (rec3 1 16 4 []) live3).planes 0) := by
    generalize s0.ledger = l at e
    subst e
    rfl
  rw [show (applyS (rec3 1 16 4 []) live3).ownsEntries 0 16 (4 * (applyS (rec3 1 16 4 []) live3).planes 0) = true by decide +kernel] at ho
  simp [applyEdits, applyEdit, rec3, h3, ho, State.rowOutside]

/-- The row of sequence 3 lies outside the context's entries, and so does that of an OPEN. -/
theorem witness_LedgerEdits_outside :
    (let x := rec3 2 65 0 []
     let l : Ledger := { seqs := [(3, { live := true, base := 1020, cap := 4, len := 64 })] }
     (applyS x l).EditOf (0 : CtxId) (0 : RingId) 0#32 (applyD x) x ∧ (applyS x l).rowOutside (0 : CtxId) x.op x.seq = true) ∧
    (let x := rec3 1 1020 4 []
     (applyS x {}).EditOf (0 : CtxId) (0 : RingId) 0#32 (applyD x) x ∧ x.op = 1 ∧ (applyS x {}).ownsEntries (0 : CtxId) x.arg0 (x.arg1 * (applyS x {}).planes (0 : CtxId)) = false) :=
  ⟨⟨editOf_of (by decide +kernel) rfl (by decide +kernel), by decide +kernel⟩, ⟨editOf_of (by decide +kernel) rfl (by decide +kernel), by decide +kernel⟩⟩

/-- PIN of 64 tokens of sequence 3 as handle 5 at entry 100; RELEASE of handle 5. -/
def pinD : Desc := dsc [(0, 11), (16, 1), (24, 5), (32, 3), (36, 64), (40, 100), (48, ref 1 0)]
def relD (n : Nat) : Desc := dsc [(0, 11), (16, 2), (24, 5), (44, n), (48, ref 1 0)]
def relS (d : Desc) (l : Ledger) (users : List Nat) : State := { rows d l with mem := { (with1 d).mem with handles := [⟨0, 5#64, 8, 2, 64, users, false⟩] } }

theorem witness_LedgerEdits_prefix : isPrefix 1 pinD = true ∧ (rows pinD live3).Passes (0 : CtxId) (0 : RingId) 0#32 pinD (prefixChk 1 (0 : CtxId)) ∧
    (let s := rows pinD live3
     let e := s.seqEntry (pinD.num 32 2)
     let n := s.prefixEntries (0 : CtxId) (pinD.num 36 4)
     (∀ y ∈ (s.ctx (0 : CtxId)).descs, y.start = none ∧ y.work = .idle) ∧ s.handle? (0 : CtxId) (BitVec.ofNat 64 (pinD.num 24 8)) = none ∧ s.mem.handles.length < 8192 ∧ e.live = true ∧
      pinD.num 36 4 ≤ e.len ∧ n ≤ s.rowLen (0 : CtxId) e ∧ (∀ i, i < n → entryValid (s.entry (e.base + i)) = true) ∧ s.entriesIn (pinD.num 40 4) n = [] ∧ s.outsideRows (0 : CtxId) (pinD.num 40 4) n = true) ∧
    isPrefix 2 (relD 0) = true ∧ (relS (relD 0) live3 [3]).Passes (0 : CtxId) (0 : RingId) 0#32 (relD 0) (prefixChk 2 (0 : CtxId)) ∧
    (∀ x ∈ (relS (relD 0) live3 [3]).mem.handles, x.ctx = 0 → x.users ≠ []) ∧ (relS (relD 31) live3 []).Passes (0 : CtxId) (0 : RingId) 0#32 (relD 31) (prefixChk 2 (0 : CtxId)) ∧
    (∃ x, (relS (relD 31) live3 []).mem.handles.find? (fun y => y.ctx == 0 && y.handle == 5#64) = some x ∧
      decide (x.users = [] ∧ (relD 31).num 44 4 < 16 * ((relS (relD 31) live3 []).entriesIn x.base x.pages).length) = true) :=
  ⟨by decide +kernel, passes_of (by decide +kernel), by decide +kernel, by decide +kernel, passes_of (by decide +kernel), by decide +kernel, passes_of (by decide +kernel), some_of (by decide +kernel)⟩

/-- SERVE_STEP of one record (at object 2) and one plan entry (at object 1), with OUT at object 2. -/
def serveD : Desc := dsc [(0, 9), (16, ref 2 0), (24, 1), (28, 1), (32, ref 1 0), (40, ref 2 0x2000), (48, 256), (56, 77)]
/-- The record: sequence 3, two new tokens, FIRST and SAMPLE, no adapter and no prefix; its tokens, its sampling block (greedy), and a plan entry
whose program is of n bytes. -/
def serveData (n : Nat) : Mem :=
  Mem.writeN (Mem.writeN (Mem.writeN (Mem.writeN [] 0 (leBytes 8 (ref 3 0) ++ leBytes 4 n ++ leBytes 4 32 ++ leBytes 8 (ref 1 0x4000) ++ leBytes 8 0)) 0x1000 (leBytes 4 1 ++ leBytes 4 2))
    0x2000 (leBytes 8 11 ++ leBytes 8 12 ++ leBytes 4 0 ++ leBytes 4 0x3F800000 ++ leBytes 4 0 ++ leBytes 4 5 ++ leBytes 32 0))
    (2 ^ 21) (leBytes 2 3 ++ leBytes 2 2 ++ [3#8, 0#8] ++ leBytes 2 65535 ++ leBytes 8 (ref 1 0x1000) ++ leBytes 8 0 ++ leBytes 8 (ref 1 0x2000))
def serveRegs : Tab DWord := [(rObjRange 0, 0x1000000000#64), (rRingCfg 0 0, 0x80000000#64), (rKvLayout 0, 0x00020040#64), (rLedgerRange 0, 0x40000000000#64), (rSeqRange 0, 0x1000000000#64),
  (rServeLogits 0, BitVec.ofNat 64 (ref 1 0x10000)), (rServeCfg 0, 4#64), (rServeStepBlk 0, BitVec.ofNat 64 (ref 2 0x1000)), (rTgCtl 0, 0x80000100#64), (rTgDepth 0, 1000#64)]
/-- Context 0 with a Tollgate of the given level. -/
def serveS (d : Desc) (level n : Nat) : State := { with1 d with
  regs := serveRegs
  mem := { (with1 d).mem with data := serveData n }
  ledger := { entries := [], seqs := [(3, { live := true, base := 8, cap := 4 })] }
  ctxs := [(0, { up.ctx 0 with descs := [d], rollout := { level := level } })] }

theorem witness_ServeSteps : serveD.opcode = 9 ∧ (serveS serveD 2000 16).Passes (0 : CtxId) (0 : RingId) 0#32 serveD (serveChk (0 : CtxId)) ∧ (serveS serveD 2000 16).holdServe (0 : CtxId) = false ∧
    (serveS serveD 2000 16).editHoldsServe (0 : CtxId) serveD = false ∧
    (let s1 := (serveS serveD 2000 16).beginDesc (0 : CtxId) serveD
     let g := s1.readTarget (0 : CtxId) (s1.resolve (0 : CtxId) (serveD.num 16 8)) (32 * serveNrec serveD)
     let xs := (records 32 (serveNrec serveD) g.data).map (s1.rawRec (0 : CtxId))
     g.stop = none ∧ (∀ x ∈ xs, (rFeed x.r = false → (s1.readTarget (0 : CtxId) (s1.resolve (0 : CtxId) (recNat x.r 8 8)) (4 * rNew x.r)).stop = none) ∧
        (rFirst x.r = true → rHandle x.r = 0#64 ∧ (s1.readTarget (0 : CtxId) (s1.resolve (0 : CtxId) (recNat x.r 24 8)) 64).stop = none)) ∧
      (s1.readTarget (0 : CtxId) (s1.resolve (0 : CtxId) (serveD.num 32 8)) (32 * serveNplan serveD)).stop = none) ∧
    (serveS serveD 511 16).Fails (0 : CtxId) (0 : RingId) 0#32 serveD (serveChk (0 : CtxId)) { status := stBudget } ∧ (serveS serveD 511 16).holdServe (0 : CtxId) = false ∧
    (serveS serveD 511 16).editHoldsServe (0 : CtxId) serveD = false :=
  ⟨by decide +kernel, passes_of (by decide +kernel), by decide +kernel, by decide +kernel, by decide +kernel, fails_of (by decide +kernel), by decide +kernel, by decide +kernel⟩

/-- The admitted step at plan entry i, of a program of n bytes. -/
def serveV (i n : Nat) (sampling : Bool) : ServeRun := { serveId := 77#64, batch := [{ seq := 3, new := 2, first := true, sample := true, feed := false, adapter := 65535, tokens := [1#32, 2#32], handle := 0#64, params := 0#64, outRow := 0 }], plan := [⟨BitVec.ofNat 64 (ref 3 0), n, 32, BitVec.ofNat 64 (ref 1 0x4000)⟩], out := BitVec.ofNat 64 (ref 2 0x2000), outBytes := 256, index := i, admitted := true, sampling := sampling }
def serveR (v : ServeRun) : Desc := { serveD with start := some 0, work := .serve v }
def serveT (v : ServeRun) : State := { serveS (serveR v) 2000 16 with ctxs := [(0, { up.ctx 0 with descs := [serveR v], rollout := { requests := [(3, requestOf (Mem.readN (serveData 16) 0x2000 64) none)] } })] }

theorem serveOf_of {s : State} {c q : Nat} {p : Word} {d : Desc} {v : ServeRun} (hd : s.desc? c q p = some d) (hw : d.work = .serve v) (h : d.ending = none ∧ v.admitted = true) : s.ServeOf c q p d v :=
  ⟨hd, hw, h.1, h.2⟩

/-- A program of 16 bytes runs, one of no bytes has no effect, one of 15 bytes is malformed. -/
theorem witness_ServeSteps_plan :
    (let v := serveV 0 16 false
     (serveT v).ServeOf (0 : CtxId) (0 : RingId) 0#32 (serveR v) v ∧ v.run = none ∧ ∃ e, v.plan[v.index]? = some e ∧
      decide ((serveT v).refWaits (0 : CtxId) e.args.toNat = false ∧ (serveT v).planBad (0 : CtxId) e = none ∧ ((serveT v).readTarget (0 : CtxId) ((serveT v).resolve (0 : CtxId) e.args.toNat) e.argBytes).stop = none ∧
        ((serveT v).ctx (0 : CtxId)).mask ≠ 0#96 ∧ e.codeBytes ≠ 0) = true) ∧
    (let v := serveV 0 0 false
     (serveT v).ServeOf (0 : CtxId) (0 : RingId) 0#32 (serveR v) v ∧ v.run = none ∧ ∃ e, v.plan[v.index]? = some e ∧
      decide ((serveT v).refWaits (0 : CtxId) e.args.toNat = false ∧ (serveT v).planBad (0 : CtxId) e = none ∧ ((serveT v).readTarget (0 : CtxId) ((serveT v).resolve (0 : CtxId) e.args.toNat) e.argBytes).stop = none ∧
        e.codeBytes = 0) = true) ∧
    (let v := serveV 0 15 false
     (serveT v).ServeOf (0 : CtxId) (0 : RingId) 0#32 (serveR v) v ∧ v.run = none ∧ ∃ e, v.plan[v.index]? = some e ∧
      decide ((serveT v).refWaits (0 : CtxId) e.args.toNat = false ∧ ((serveT v).planBad (0 : CtxId) e).isSome = true) = true) :=
  ⟨⟨serveOf_of (by decide +kernel) rfl (by decide +kernel), rfl, some_of (by decide +kernel)⟩, ⟨serveOf_of (by decide +kernel) rfl (by decide +kernel), rfl, some_of (by decide +kernel)⟩,
    ⟨serveOf_of (by decide +kernel) rfl (by decide +kernel), rfl, some_of (by decide +kernel)⟩⟩

theorem sampled_of {x : State × List Byte × Option Byte} {p : State → List Byte → Bool} (h : (x.2.2.isNone && p x.1 x.2.1) = true) : ∃ s1 bs, x = (s1, bs, none) ∧ p s1 bs = true := by
  obtain ⟨s1, bs, o⟩ := x
  cases o with
  | none => exact ⟨s1, bs, rfl, by simpa using h⟩
  | some e => cases h

theorem witness_ServeSteps_sample :
    (let v := serveV 1 16 false
     (serveT v).ServeOf (0 : CtxId) (0 : RingId) 0#32 (serveR v) v ∧ v.run = none ∧ v.plan.length ≤ v.index ∧ v.sampling = false ∧
      ∀ k ∈ (serveT v).samplerClusters (0 : CtxId), ((serveT v).cluster k.1 k.2).idle = true) ∧
    (let v := serveV 1 16 true
     let s := serveT v
     s.ServeOf (0 : CtxId) (0 : RingId) 0#32 (serveR v) v ∧ v.run = none ∧ v.plan.length ≤ v.index ∧ v.sampling = true ∧ s.refWaits (0 : CtxId) v.out.toNat = false ∧
      s.refWaits (0 : CtxId) (s.reg (rServeLogits 0)) = false ∧
      ∃ s1 bs, s.sampleAll (0 : CtxId) v (s.pinRef (0 : CtxId) (s.reg (rServeLogits 0))) = (s1, bs, none) ∧
        decide (((s1.holdClusters (0 : CtxId) false).writeHeld (0 : CtxId) v.out.toNat 0 (summaryArea v (v.batch.filter (fun b => b.sample)).length ++ bs)).2 = none) = true) :=
  ⟨⟨serveOf_of (by decide +kernel) rfl (by decide +kernel), rfl, by decide +kernel, rfl, by decide +kernel⟩,
    ⟨serveOf_of (by decide +kernel) rfl (by decide +kernel), rfl, by decide +kernel, rfl, by decide +kernel, by decide +kernel, sampled_of (by decide +kernel)⟩⟩

/-- BIND of adapter 4 to object 1; UNBIND of it. -/
def bindD : Desc := dsc [(0, 10), (16, 1), (18, 4), (20, 6), (22, 16), (24, 1)]
def bindS : State := { with1 bindD with regs := (rFloor 0, 4#64) :: (with1 bindD).regs }
def unbindD : Desc := dsc [(0, 10), (16, 2), (18, 4)]
def adapt (d : Desc) (l : List Adapter) : State := { with1 d with mem := { (with1 d).mem with adapters := l } }

theorem witness_AdaptersAndTollgate : isAdapter 1 bindD = true ∧ (bindS).Passes (0 : CtxId) (0 : RingId) 0#32 bindD (adapterChk 1 (0 : CtxId)) ∧
    (∃ o, (bindS).obj? (bindD.num 24 4) = some o ∧ (o.ctx == 0) = true) ∧ (bindS).mem.adapters = [] ∧
    isAdapter 2 unbindD = true ∧ (adapt unbindD [⟨0, 4, 6, 16, 1, 2, false, false⟩]).Passes (0 : CtxId) (0 : RingId) 0#32 unbindD (adapterChk 2 (0 : CtxId)) ∧
    (∃ a, (adapt unbindD [⟨0, 4, 6, 16, 1, 2, false, false⟩]).currentAdapter (0 : CtxId) (unbindD.num 18 2) = some a ∧ (a.refs == 2) = true) ∧
    (∀ x ∈ (adapt unbindD [⟨0, 4, 6, 16, 1, 2, false, false⟩]).mem.adapters, x.refs ≠ 0) ∧ up.chip.stage = 4 :=
  ⟨by decide +kernel, passes_of (by decide +kernel), some_of (by decide +kernel), rfl, by decide +kernel, passes_of (by decide +kernel), some_of (by decide +kernel), by decide +kernel, rfl⟩

/-- BIND over an earlier version with two references. -/
def rebindS : State := { adapt bindD [⟨0, 4, 5, 16, 3, 2, false, false⟩] with regs := (rFloor 0, 4#64) :: (with1 bindD).regs }
theorem witness_AdaptersAndTollgate_rebind : rebindS.Passes (0 : CtxId) (0 : RingId) 0#32 bindD (adapterChk 1 (0 : CtxId)) ∧ (∃ o, rebindS.obj? (bindD.num 24 4) = some o ∧ (o.ctx == 0) = true) ∧
    (∃ a, rebindS.currentAdapter (0 : CtxId) (bindD.num 18 2) = some a ∧ (a.refs == 2) = true) ∧ ∀ x ∈ rebindS.mem.adapters, x.refs ≠ 0 :=
  ⟨passes_of (by decide +kernel), some_of (by decide +kernel), some_of (by decide +kernel), by decide +kernel⟩

/-- A manifest of 344 bytes made outside the model, but for its signature: FP32 data of 4 bytes in one chunk, one shard for rank 0, a P-384 key. -/
def manifest : Nat :=
  0x4000000000000000000000000000000005c7f32e2b2fb46cc66a3812d76d7bad282ada305b9593177049747dcdc411d6edc04393333e4ba3e258c0a43627d665a0000000000000045e2b8319d215c7fa7c38d914ce7c489b40204fc8c4d16586da5f744c5ae76ec28b00c739c5e67a475d11a9aff8e0517485b624bf421baeffd6adf5a3197c00eb4cf5f359491de74be97eaf9c552fdeb9530f0feea03a9f1b9e558544652d1bf040000000000000000000000f8000000d8000000a8000000400000000100000001000000000000000400000000000000000000000000000000000000014d414e31
/-- The same with its signature. -/
def signedManifest : Nat :=
  0x77cc314e80209dfeba95cae68daec0920e74f3a1ba6d4853c10d73cb4f24eaa6447ccec64614dd2a3ef9d77e66274d4a78368c5b1a16752673f7112f9edd6453074fdd9c16f09e5d32a558ab76e054c51079592c1a3a3f322615c247c9c11e1700000000000000000000000000000004000000000000000000000000000000005c7f32e2b2fb46cc66a3812d76d7bad282ada305b9593177049747dcdc411d6edc04393333e4ba3e258c0a43627d665a0000000000000045e2b8319d215c7fa7c38d914ce7c489b40204fc8c4d16586da5f744c5ae76ec28b00c739c5e67a475d11a9aff8e0517485b624bf421baeffd6adf5a3197c00eb4cf5f359491de74be97eaf9c552fdeb9530f0feea03a9f1b9e558544652d1bf040000000000000000000000f8000000d8000000a8000000400000000100000001000000000000000400000000000000000000000000000000000000014d414e31
/-- Bytes from address a, without the zero ones. -/
def cells (a : Nat) (bs : List Byte) : Mem := (bs.zipIdx a).filterMap (fun x => if x.1 = 0#8 then none else some (x.2, x.1))
/-- LOAD_SIGNED with REPAIR into object 4, of n manifest bytes and data in object 1. -/
def loadD (n : Nat) : Desc := dsc [(0, 5), (16, ref 1 0), (24, n), (28, 2), (32, ref 1 0x1000), (40, 4)]
/-- Context 0 with the publisher's key in slot 3, group 0 of one rank, and the bytes of a manifest and its data. -/
def loadS (d : Desc) (m : Nat) (bs : List Byte) : State := { collS d with
  regs := (rPubCtl 3, 0x80000000#64) :: (rPubCtx 3, 1#64) :: [0x4c784175, 0x90679d68, 0xb1555a7e, 0xd3774bea, 0xa60be99, 0x4b4eb9db, 0x14b424fd, 0x41a364d1, 0x9195bfc7, 0x5d8b229e, 0xe3f43725, 0xd76b2e0e].zipIdx.map (fun (x : Nat × Nat) => (rPubHash 3 x.2, dword x.1)) ++ (collS d).regs
  mem := { (with1 d).mem with
    objs := (with1 d).mem.objs ++ [(4, { ubase := 3 * 2 ^ 21, size := 4, ctx := 0, frames := [3] })]
    data := cells 0 (leBytes 344 m) ++ cells 0x1000 bs ++ groups } }

/-- A manifest of 8 bytes is malformed. -/
theorem witness_SignedLoads_stop : (loadD 8).opcode = 5 ∧ (loadS (loadD 8) 0 []).Passes (0 : CtxId) (0 : RingId) 0#32 (loadD 8) (loadChk (0 : CtxId)) ∧
    ((loadS (loadD 8) 0 []).beginDesc (0 : CtxId) (loadD 8)).loadFind (0 : CtxId) ((loadS (loadD 8) 0 []).begun (loadD 8)) = .stop { status := stFormat } ∧
    (loadS (loadD 8) 0 []).loadFind (0 : CtxId) (loadD 8) = .stop { status := stFormat } :=
  ⟨by decide +kernel, passes_of (by decide +kernel), by decide +kernel, by decide +kernel⟩

/-- A signature of zeros does not verify. -/
theorem witness_SignedLoads_unsigned :
    (let s := loadS (loadD 344) manifest []
     let g := s.readTarget (0 : CtxId) (s.heldRef (0 : CtxId) (loadD 344) 16) ((loadD 344).num 24 4)
     let m := manifestOf g.data
     g.stop = none ∧ m.ok g.data = true ∧ convAllowed m.efmt ((loadD 344).num 29 1) = true ∧ s.keySlot (0 : CtxId) ((g.data.drop m.keyOff).take 97) = some 3 ∧ m.signed g.data = false) := by decide +kernel

/-- `loadS` with the signature, and the data. -/
def signedS (bs : List Byte) : State := loadS (loadD 344) signedManifest bs
/-- What LOAD_SIGNED finds there: the manifest's fields, the chunk's digest, slot 3, and the whole shard. -/
def found : LoadFind := .shard (manifestOf (leBytes 344 signedManifest)) [sha384 [1#8, 2#8, 3#8, 4#8]] 3 0 4

theorem readTarget_dev {s : State} {c n o k : Nat} {t : Target} {bs : List Byte} (h : t.space = .dev o) (ha : t.addr = 0) (hp : firstHit (s.poisonRanges ++ s.failRanges) 0 n = none) (hn : n = k)
    (hb : s.devBytes 0 k = bs) : s.readTarget c t n = { data := bs } := by
  subst hn hb
  simp [State.readTarget, h, State.devRead, ha, hp]

theorem signed_bytes : (signedS [1#8, 2#8, 3#8, 4#8]).devBytes 0 344 = leBytes 344 signedManifest := by decide +kernel
theorem signed_bytesBegun : ((signedS [1#8, 2#8, 3#8, 4#8]).beginDesc (0 : CtxId) (loadD 344)).devBytes 0 344 = leBytes 344 signedManifest := by decide +kernel
theorem signed_ok : (manifestOf (leBytes 344 signedManifest)).ok (leBytes 344 signedManifest) = true := by decide +kernel
theorem signed_verifies : (manifestOf (leBytes 344 signedManifest)).signed (leBytes 344 signedManifest) = true := by decide +kernel
theorem signed_tables : ((manifestOf (leBytes 344 signedManifest)).shards (leBytes 344 signedManifest)).find? (fun r => r.1 == 0) = some (0, 0, 4) ∧
    records 48 (manifestOf (leBytes 344 signedManifest)).nchunk ((leBytes 344 signedManifest).drop (manifestOf (leBytes 344 signedManifest)).chunkOff) = [sha384 [1#8, 2#8, 3#8, 4#8]] := by decide +kernel

theorem found_by {s : State} {d : Desc} (hr : s.readTarget 0 (s.heldRef 0 d 16) (d.num 24 4) = { data := leBytes 344 signedManifest })
    (hk : s.keySlot 0 (((leBytes 344 signedManifest).drop (manifestOf (leBytes 344 signedManifest)).keyOff).take 97) = some 3) (hd : d.num 29 1 = 0)
    (hg : ∃ g, s.readGroup 0 (d.num 30 2) = .ok g ∧ (g.me == 0) = true) : s.loadFind 0 d = found := by
  obtain ⟨g, hg, hm⟩ := hg
  have hm := beq_iff_eq.mp hm
  simp only [State.loadFind, hr, hk, hg, hd, signed_ok, signed_verifies, signed_tables.1, signed_tables.2, hm]
  simp [convAllowed, mxOut, found]
/-- How the chunks of a load end, for data bs. -/
def chunksOf (bs : List Byte) : Option (Nat × Byte) :=
  let s1 := (signedS bs).beginDesc (0 : CtxId) (loadD 344)
  (State.loadChunks (0 : CtxId) (s1.heldRef (0 : CtxId) (loadD 344) 32) (manifestOf (leBytes 344 signedManifest)) ((loadD 344).num 29 1) (s1.objBase ((loadD 344).num 40 4)) 0 4
    ((List.range (ceilDiv 4 chunkBytes)).map (fun i => (0 / chunkBytes + i, [sha384 [1#8, 2#8, 3#8, 4#8]].getD (0 / chunkBytes + i) [])))
    (s1.touchRefs (0 : CtxId) [(loadD 344).num 16 8, (loadD 344).num 32 8, (loadD 344).num 40 4 * 2 ^ 40]) 0 [] false).2.1

theorem signed_passes : (signedS [1#8, 2#8, 3#8, 4#8]).Passes (0 : CtxId) (0 : RingId) 0#32 (loadD 344) (loadChk (0 : CtxId)) := passes_of (by decide +kernel)
theorem signed_found : (signedS [1#8, 2#8, 3#8, 4#8]).loadFind (0 : CtxId) (loadD 344) = found :=
  found_by (readTarget_dev (o := 1) (by decide +kernel) (by decide +kernel) (by decide +kernel) (by decide +kernel) signed_bytes) (by decide +kernel) (by decide +kernel) (ok_of (by decide +kernel))
theorem signed_begun : ((signedS [1#8, 2#8, 3#8, 4#8]).beginDesc (0 : CtxId) (loadD 344)).loadFind (0 : CtxId) ((signedS [1#8, 2#8, 3#8, 4#8]).begun (loadD 344)) = found :=
  found_by (readTarget_dev (o := 1) (by decide +kernel) (by decide +kernel) (by decide +kernel) (by decide +kernel) signed_bytesBegun) (by decide +kernel) (by decide +kernel) (ok_of (by decide +kernel))
theorem signed_object : (signedS []).inRange (0 : CtxId) ((loadD 344).num 40 4) = true ∧ bitOf ((loadD 344).num 28 1) 1 = true ∧
      ((signedS []).visible (0 : CtxId) ((loadD 344).num 40 4)).map (fun o => o.size) = some ((outBytes 0 ((loadD 344).num 29 1) 4).1 + (outBytes 0 ((loadD 344).num 29 1) 4).2) := by decide +kernel
theorem signed_chunk : chunksOf [1#8, 2#8, 3#8, 4#8] = none := by decide +kernel
theorem signed_badChunk : chunksOf [1#8, 2#8, 3#8, 5#8] = some (0, stAuth) := by decide +kernel

/-- A segment record of 32 BF16 elements of object 3, or a malformed one of 31. -/
def segRow (n : Nat) : List Byte := leBytes 2 0 ++ [0#8, 0#8] ++ leBytes 4 n ++ leBytes 4 3 ++ leBytes 36 0
/-- DECLARE on group 1: banks 1 and 2, alias 7, one record in object 1. -/
def sbD (op step : Nat) : Desc := if op = 1 then dsc [(0, 13), (16, 1), (18, 1), (20, 7), (24, ref 1 0x1000), (32, 1), (36, 1), (40, 2), (44, 1)] else dsc [(0, 13), (16, op), (48, step)]
/-- The pair it makes on this rank, 0 of 2. -/
def pair0 : Pair := { group := 1, nranks := 2, me := 0, ranks := [5, 6], qslice := 1, aliasId := 7, bank0 := 1, bank1 := 2, recs := segsOf [segRow 32] 0 0, mapDigest := 9#256, async := false }
def sbS (n : Nat) (d : Desc) (p : Option Pair) : State := { collS d with
  mem := { (with1 d).mem with data := cells 0x1000 (segRow n) ++ groups }
  ctxs := [(0, { up.ctx 0 with descs := [d], pair := p })] }

theorem witness_SwitchbackPairs : isSwitchback 1 (sbD 1 0) = true ∧ ((sbS 32 (sbD 1 0) none).ctx (0 : CtxId)).flipWaiting = false ∧
    (sbS 32 (sbD 1 0) none).Passes (0 : CtxId) (0 : RingId) 0#32 (sbD 1 0) (sbChk 1 (0 : CtxId)) ∧
    ∃ g, ((sbS 32 (sbD 1 0) none).beginDesc (0 : CtxId) (sbD 1 0)).readGroup (0 : CtxId) ((sbD 1 0).num 18 2) = .ok g ∧
      (let d := sbD 1 0
       let s := sbS 32 d none
       let s1 := s.beginDesc (0 : CtxId) d
       let m := s1.readTarget (0 : CtxId) (s1.resolve (0 : CtxId) (d.num 24 8)) (48 * d.num 32 4)
       let raw := records 48 (d.num 32 4) m.data
       let kept := (segsOf raw 0 0).filter (fun r => r.srcRank == g.me || r.slice == g.me % d.num 44 1)
       decide (m.stop = none ∧ g.ranks.length % d.num 44 1 = 0 ∧ raw.all (segRecOk g.ranks.length (d.num 44 1)) = true ∧ s.inRange (0 : CtxId) (d.num 20 4) = true ∧
        s.inRange (0 : CtxId) (d.num 36 4) = true ∧ s.inRange (0 : CtxId) (d.num 40 4) = true ∧ (s.ctx (0 : CtxId)).pair = none ∧ s.obj? (d.num 20 4) = none ∧
        (s.obj? (d.num 36 4)).map (fun o => (o.ctx, o.state)) = some (0, 1) ∧ (s.obj? (d.num 40 4)).map (fun o => (o.ctx, o.state)) = some (0, 1) ∧ d.num 36 4 ≠ d.num 40 4 ∧
        s.objSize (0 : CtxId) (d.num 36 4) = s.objSize (0 : CtxId) (d.num 40 4) ∧
        (∀ r ∈ kept, (r.srcRank = g.me → r.srcOff + 4 * r.elems ≤ s.objSize (0 : CtxId) r.srcObj) ∧ r.dstOff + r.elemBytes ≤ s.objSize (0 : CtxId) (d.num 36 4) ∧
          r.scaleOff + r.scaleBytes ≤ s.objSize (0 : CtxId) (d.num 36 4) ∧ overlapAt kept r = false) ∧ kept.length ≤ 1048576 ∧ kept ≠ [])) = true :=
  ⟨by decide +kernel, by decide +kernel, passes_of (by decide +kernel), ok_of (by decide +kernel)⟩

/-- 31 elements are no multiple of 32. -/
theorem witness_SwitchbackPairs_malformed : (sbS 31 (sbD 1 0) none).Passes (0 : CtxId) (0 : RingId) 0#32 (sbD 1 0) (sbChk 1 (0 : CtxId)) ∧
    ((sbS 31 (sbD 1 0) none).ctx (0 : CtxId)).flipWaiting = false ∧ ∃ g, ((sbS 31 (sbD 1 0) none).beginDesc (0 : CtxId) (sbD 1 0)).readGroup (0 : CtxId) ((sbD 1 0).num 18 2) = .ok g ∧
      (let d := sbD 1 0
       let s1 := (sbS 31 d none).beginDesc (0 : CtxId) d
       let m := s1.readTarget (0 : CtxId) (s1.resolve (0 : CtxId) (d.num 24 8)) (48 * d.num 32 4)
       decide (m.stop = none ∧ g.ranks.length % d.num 44 1 = 0 ∧ (records 48 (d.num 32 4) m.data).findIdx? (fun r => !segRecOk g.ranks.length (d.num 44 1) r) = some 0)) = true :=
  ⟨passes_of (by decide +kernel), by decide +kernel, ok_of (by decide +kernel)⟩

theorem witness_SwitchbackPairs_toRollout : isSwitchback 2 (sbD 2 0) = true ∧ (sbS 32 (sbD 2 0) (some pair0)).Passes (0 : CtxId) (0 : RingId) 0#32 (sbD 2 0) (sbChk 2 (0 : CtxId)) ∧
    (((sbS 32 (sbD 2 0) (some pair0)).ctx (0 : CtxId)).flipWaiting = false ∧ ((sbS 32 (sbD 2 0) (some pair0)).ctx (0 : CtxId)).pair = some pair0 ∧ 2 ≤ pair0.nranks ∧
      ((sbS 32 (sbD 2 0) (some pair0)).ctx (0 : CtxId)).sbAgrees = []) ∧
    ∃ g, ((sbS 32 (sbD 2 0) (some pair0)).beginDesc (0 : CtxId) (sbD 2 0)).readGroup (0 : CtxId) pair0.group = .ok g ∧ decide (g.me = pair0.me ∧ g.ranks.length = pair0.nranks) = true :=
  ⟨by decide +kernel, passes_of (by decide +kernel), by decide +kernel, ok_of (by decide +kernel)⟩

/-- In ROLLOUT no SERVE_STEP has started; DROP in LEARN, alone and with an EXEC in progress. -/
theorem witness_SwitchbackPairs_end :
    (isSwitchback 3 (sbD 3 0) = true ∧ (sbS 32 (sbD 3 0) (some { pair0 with phase := 3 })).Passes (0 : CtxId) (0 : RingId) 0#32 (sbD 3 0) (sbChk 3 (0 : CtxId)) ∧
      (((sbS 32 (sbD 3 0) (some { pair0 with phase := 3 })).ctx (0 : CtxId)).flipWaiting = false ∧
        ((sbS 32 (sbD 3 0) (some { pair0 with phase := 3 })).ctx (0 : CtxId)).pair = some { pair0 with phase := 3 } ∧
        ∀ y ∈ ((sbS 32 (sbD 3 0) (some { pair0 with phase := 3 })).ctx (0 : CtxId)).descs, y.opcode = 9 → y.start = none)) ∧
    (isSwitchback 4 (sbD 4 0) = true ∧ (sbS 32 (sbD 4 0) (some pair0)).Passes (0 : CtxId) (0 : RingId) 0#32 (sbD 4 0) (sbChk 4 (0 : CtxId)) ∧
      ∀ y ∈ ((sbS 32 (sbD 4 0) (some pair0)).ctx (0 : CtxId)).descs, y.opcode = 9 ∨ y.opcode = 3 → y.start = none) ∧
    (let e := { dsc [(0, 3)] with pos := 1, start := some 0, work := .exec run0 }
     let s := { sbS 32 (sbD 4 0) (some pair0) with ctxs := [(0, { up.ctx 0 with descs := [sbD 4 0, e], pair := some pair0 })] }
     s.Passes (0 : CtxId) (0 : RingId) 0#32 (sbD 4 0) (sbChk 4 (0 : CtxId)) ∧ (s.ctx (0 : CtxId)).flipWaiting = false ∧
      (e ∈ (s.ctx (0 : CtxId)).descs ∧ e.opcode = 3 ∧ e.start = some 0 ∧ e.pos ≠ (sbD 4 0).pos)) :=
  ⟨⟨by decide +kernel, passes_of (by decide +kernel), by decide +kernel⟩, ⟨by decide +kernel, passes_of (by decide +kernel), by decide +kernel⟩,
    ⟨passes_of (by decide +kernel), by decide +kernel, by decide +kernel⟩⟩

/-- The pair on 3 ranks in a turn at stage n. -/
def turning (u : Turn) : Pair := { pair0 with nranks := 3, ranks := [5, 6, 7], phase := 2, turn := some u }
def turnD : Desc := { sbD 2 0 with start := some 0, work := .turn }
def turnS (u : Turn) : State := sbS 32 turnD (some (turning u))
def turn0 (stage : Nat) : Turn := { ring := 0, pos := 0, step := 4#64, seq := 0, stage := stage }

/-- What every clause asks. -/
def inTurn (u : Turn) : Bool := decide (((turnS u).ctx (0 : CtxId)).pair = some (turning u) ∧ (turning u).turn = some u ∧ ((turnS u).ctx (0 : CtxId)).find u.ring u.pos = some turnD ∧ turnD.ending = none ∧
  (∀ y ∈ ((turnS u).ctx (0 : CtxId)).descs, y.ring = u.ring → y.pos = u.pos → y = turnD) ∧ (turnS u).hears (0 : CtxId) = true)
/-- What stage 4 asks besides: this rank has sent its segments and its agreements match. -/
def settled (u : Turn) : Bool := u.sent && u.agrees.all (fun a => decide (a.step = u.step ∧ a.digest = 9#256))

theorem witness_SwitchbackTurns :
    (let u := { turn0 1 with seq := 3 }
     inTurn u = true ∧ 2 < u.seq ∧ u.seq < 4 ∧ (∀ a ∈ u.agrees, a.1 ≠ 1) ∧ u.stage ≤ 5 ∧ ¬((5#64) = u.step ∧ (9#256) = (turning u).mapDigest) ∧ ((4#64) = u.step ∧ (9#256) = (turning u).mapDigest) ∧
      (∃ k ∈ otherRanks (turning u).ranks (turning u).me, k.1 ≠ 1 ∧ ∀ a ∈ u.agrees, a.1 ≠ k.1)) ∧
    (let u := { turn0 4 with sent := true, agrees := [⟨1, 0, 4#64, 9#256⟩, ⟨2, 0, 4#64, 9#256⟩] }
     inTurn u = true ∧ settled u = true ∧ u.stage = 4 ∧ ∃ r ∈ (turning u).receives, sha256 ((turnS u).segInBank (turning u) r) ≠ u.arrived.readN (r.base + r.bytes) 32) ∧
    (let u := { turn0 4 with sent := true, arrived := cells 64 (sha256 (List.replicate 64 0#8)) }
     inTurn u = true ∧ settled u = true ∧ u.stage = 4 ∧ (turning u).receives ≠ [] ∧ (∀ r ∈ (turning u).receives, sha256 ((turnS u).segInBank (turning u) r) = u.arrived.readN (r.base + r.bytes) 32) ∧
      (∃ k, k < (turning u).nranks ∧ k ≠ (turning u).me ∧ ∀ a ∈ u.confirms, a.1 ≠ k) ∧ (turnS u).maySend (0 : CtxId) = true) := by
  refine ⟨by decide +kernel, by decide +kernel, by decide +kernel, by decide +kernel, by decide +kernel, by decide +kernel, by decide +kernel, ⟨1, by decide +kernel⟩, by decide +kernel⟩

/-- A module without a valid address, or a context without a tag, hears nothing. -/
theorem witness_SwitchbackTurns_deaf : { turnS (turn0 1) with regs := [(rCtxTag 0, 9#64)] }.hears (0 : CtxId) = false ∧ { turnS (turn0 1) with regs := [(rModAddr, 0x80000005#64)] }.hears (0 : CtxId) = false := by
  decide +kernel

/-- Of three confirmations rank 2's differs, or none does. -/
theorem witness_SwitchbackTurns_confirm :
    (let u := turn0 5
     let cs : List (Nat × BitVec 256) := (1, 7#256) :: u.confirms.filter (fun a => a.1 != 1)
     inTurn u = true ∧ u.stage = 5 ∧ ∃ k, k < (turning u).nranks ∧ ∀ a ∈ cs, a.1 ≠ k) ∧
    (let u := { turn0 5 with confirms := [(0, 7#256), (2, 8#256)] }
     let cs : List (Nat × BitVec 256) := (1, 7#256) :: u.confirms.filter (fun a => a.1 != 1)
     inTurn u = true ∧ u.stage = 5 ∧ (∀ k, k < (turning u).nranks → ∃ a ∈ cs, a.1 = k) ∧ (turning u).oddRanks cs = 2 :: []) ∧
    (let u := { turn0 5 with confirms := [(0, 7#256), (2, 7#256)] }
     let cs : List (Nat × BitVec 256) := (1, 7#256) :: u.confirms.filter (fun a => a.1 != 1)
     inTurn u = true ∧ u.stage = 5 ∧ (∀ k, k < (turning u).nranks → ∃ a ∈ cs, a.1 = k) ∧ (turning u).oddRanks cs = []) ∧
    (let u := { turn0 6 with flipWaits := some [] }
     inTurn u = true ∧ u.stage = 6 ∧ ((turnS u).ctx (0 : CtxId)).allDone (u.flipWaits.getD []) = true ∧ turnD.work = .turn ∧ 5 < u.stage) := by
  refine ⟨⟨by decide +kernel, by decide +kernel, 2, by decide +kernel⟩, by decide +kernel, by decide +kernel, by decide +kernel⟩

/-- A Milepost in CLOSED at step 7 with one shard and one shadow range in object 1, its state object 4, and shadow group 1. -/
def setup0 : MpSetup := { shadowGroup := 1, replicaGroup := 0xFFFF, shard := [⟨1, 0x2000, 64⟩], shadow := [⟨1, 0x3000, 64⟩], replica := [], keepObj := 3, stateObj := 4 }
def mile0 : Mile := { state := 1, setup := some setup0, last := 7#64, shard := 7#64, shadow := 7#64 }
/-- Its set-up block, and a Waymark of the shadow with a digest, at object 1. -/
def mileData (digest : List Byte) : Mem :=
  cells 0x1000 (leBytes 2 1 ++ leBytes 2 0xFFFF ++ leBytes 2 1 ++ leBytes 2 0 ++ leBytes 8 7 ++ leBytes 4 3 ++ leBytes 4 4 ++ leBytes 40 0 ++
    leBytes 8 1 ++ leBytes 8 0x2000 ++ leBytes 16 64 ++ leBytes 8 1 ++ leBytes 8 0x3000 ++ leBytes 16 64) ++
  cells 0x8000 (leBytes 4 waymarkMagic ++ leBytes 2 1 ++ leBytes 2 2 ++ leBytes 8 7 ++ leBytes 16 64 ++ digest) ++ groups
def mileS (m : Mile) (digest : List Byte) (ds : List Desc) : State := { collS (dsc []) with
  mem := { (with1 (dsc [])).mem with
    objs := (with1 (dsc [])).mem.objs ++ [(4, { ubase := 3 * 2 ^ 21, size := 131072, ctx := 0, frames := [3] })]
    data := mileData digest }
  ctxs := [(0, { up.ctx 0 with descs := ds, mile := m })] }
/-- MILEPOST of OP op: OPEN names group 1 and attempt 0, each names step 8. -/
def mileD (op : Nat) : Desc := dsc [(0, 12), (16, op), (18, if op = 1 then 1 else 0), (24, 8)]
/-- A COMMIT in progress. -/
def commitD : Desc := { mileD 2 with start := some 0, work := .commit }
def commitM (r : CommitRun) : Mile := { mile0 with state := 3, ranks := [5, 6], commit := some r }

theorem witness_MilepostSteps : (isMilepost 1 (mileD 1) = true ∧ (mileS mile0 [] [mileD 1]).Passes (0 : CtxId) (0 : RingId) 0#32 (mileD 1) (mileChk 1 (0 : CtxId)) ∧
      ∃ g, ((mileS mile0 [] [mileD 1]).beginDesc (0 : CtxId) (mileD 1)).group? (0 : CtxId) ((mileD 1).num 18 2) = some g ∧ (g.ranks.length == 2) = true) ∧
    (isMilepost 2 (mileD 2) = true ∧ (mileS { mile0 with state := 4, failedStep := 8#64 } [] [mileD 2]).Passes (0 : CtxId) (0 : RingId) 0#32 (mileD 2) (mileChk 2 (0 : CtxId))) ∧
    (let m := { mile0 with state := 2, badWork := true }
     (mileS m [] [mileD 2]).Passes (0 : CtxId) (0 : RingId) 0#32 (mileD 2) (mileChk 2 (0 : CtxId)) ∧ m.setup = some setup0 ∧ (∀ y ∈ ((mileS m [] [mileD 2]).ctx (0 : CtxId)).descs, y.start = none) ∧ m.badWork = true) ∧
    (let m := { mile0 with state := 2, shard := 6#64 }
     (mileS m [] [mileD 2]).Passes (0 : CtxId) (0 : RingId) 0#32 (mileD 2) (mileChk 2 (0 : CtxId)) ∧ m.badWork = false ∧ ((mileS m [] [mileD 2]).ctx (0 : CtxId)).integ = 0#64 ∧
      (∀ e ∈ ((mileS m [] [mileD 2]).ctx (0 : CtxId)).trig, e.fired = true) ∧ m.shard ≠ m.last) ∧
    (isMilepost 3 (mileD 3) = true ∧ (mileS { mile0 with state := 2 } [] [mileD 3]).Passes (0 : CtxId) (0 : RingId) 0#32 (mileD 3) (mileChk 3 (0 : CtxId))) :=
  ⟨⟨by decide +kernel, passes_of (by decide +kernel), some_of (by decide +kernel)⟩, ⟨by decide +kernel, passes_of (by decide +kernel)⟩,
    ⟨passes_of (by decide +kernel), rfl, by decide +kernel, rfl⟩, ⟨passes_of (by decide +kernel), rfl, by decide +kernel, by decide +kernel, by decide +kernel⟩,
    ⟨by decide +kernel, passes_of (by decide +kernel)⟩⟩

/-- An OPEN whose norm records can be stamped, and one whose norm area is in a READ_ONLY object. -/
theorem witness_MilepostSteps_stamp :
    (let s := mileS mile0 [] [mileD 1]
     (s.beginDesc (0 : CtxId) (mileD 1)).stampFails (0 : CtxId) mile0.step = none) ∧
    (let s := { mileS mile0 [] [mileD 1] with
       regs := (rNormBase 0, BitVec.ofNat 64 (ref 3 0)) :: (mileS mile0 [] [mileD 1]).regs
       ctxs := [(0, { up.ctx 0 with descs := [mileD 1], mile := mile0, trig := [{ prog := 1, gradObj := 1, fireAfter := 1, layer := 0, norm := true }] })] }
     let s := s.modObj 3 (fun o => { o with readOnly := true })
     s.Passes (0 : CtxId) (0 : RingId) 0#32 (mileD 1) (mileChk 1 (0 : CtxId)) ∧ (s.beginDesc (0 : CtxId) (mileD 1)).stampFails (0 : CtxId) mile0.step = some stAuth) :=
  ⟨by decide +kernel, passes_of (by decide +kernel), by decide +kernel⟩

/-- A FAIL of step 8 and attempt 0 meets the open step, one of step 9 does not. -/
theorem witness_MilepostSteps_frames :
    (let m := { mile0 with state := 2 }
     (mileS m [] []).hears (0 : CtxId) = true ∧ { mileS m [] [] with regs := [] }.hears (0 : CtxId) = false ∧ m.state = 2 ∧ 8#64 = m.last + 1#64 ∧ 0#32 = m.attempt ∧ ¬((m.state = 2 ∨ m.state = 3) ∧ 9#64 = m.last + 1#64 ∧ 0#32 = m.attempt)) ∧
    (let r : CommitRun := { checked := true, formed := true, shard := 3#256 }
     let m := { commitM r with setup := some { setup0 with replicaGroup := 1 } }
     let s := mileS m [] [commitD]
     s.inReplica (0 : CtxId) 1 = true ∧ s.inReplica (0 : CtxId) 2 = false ∧ m.commit = some r ∧ r.formed = true ∧ r.contributed = false ∧ m.state = 3) ∧
    (let r : CommitRun := { checked := true, formed := true, shard := 3#256 }
     let m := commitM r
     m.state = 3 ∧ m.commit = some r ∧ m.setup = some setup0 ∧ setup0.replicaGroup = 0xFFFF ∧ r.contributed = false ∧ r.formed = true ∧ 4#256 ≠ r.shard ∧ 3#256 = r.shard ∧ otherRanks m.ranks m.me = [(1, 6)] ∧ m.contribs = [] ∧
      ∃ g, (mileS m [] [commitD]).group? (0 : CtxId) setup0.shadowGroup = some g ∧ decide (2 ≤ g.ranks.length) = true) ∧
    (let r : CommitRun := { checked := true, taken := (mileS mile0 [] [commitD]).digestBytesOf setup0 }
     let m := commitM r
     let s := mileS m [] [commitD]
     r.taken = s.digestBytesOf setup0 ∧ r.checked = true ∧ r.formed = false ∧ m.shadowIn = none ∧ (s.readSpans (s.rangeSpans setup0.replica)).stop = none ∧ (s.readSpans (s.rangeSpans setup0.shard)).stop = none ∧
      (s.readSpans (s.rangeSpans setup0.shadow)).stop = none) ∧
    (let r : CommitRun := { checked := true, contributed := true }
     let m := commitM r
     let s := { mileS m [] [commitD] with regs := (rCommitOut 0, BitVec.ofNat 64 (ref 1 0x9000)) :: (collS (dsc [])).regs }
     let k : Contribution := { step := 8#64, attempt := 0#32, fail := false, cause := 0#8, failRank := 0, p := 0#32, v := [], nonfinite := false }
     let bad := fun (k : Contribution) => k.fail || k.step != m.last + 1#64 || k.attempt != m.attempt
     let all := fun (ks : List Contribution) => ks.set m.me (s.contribution (0 : CtxId))
     m.state = 3 ∧ m.commit = some r ∧ r.contributed = true ∧ s.hears (0 : CtxId) = true ∧ [k, k].length = m.ranks.length ∧ [k, { k with attempt := 1#32 }].length = m.ranks.length ∧
      (s.ctx (0 : CtxId)).find commitD.ring commitD.pos = some commitD ∧ commitD.work = .commit ∧ commitD.ending = none ∧ (∀ y ∈ (s.ctx (0 : CtxId)).descs, y.ring = commitD.ring → y.pos = commitD.pos → y = commitD) ∧
      ((all [k, { k with attempt := 1#32 }]).zipIdx.find? (fun x => bad x.1)) = some ({ k with attempt := 1#32 }, 1) ∧ (∀ x ∈ all [k, k], bad x = false) ∧ s.reg (rCommitOut 0) ≠ 0 ∧
      bitOf (s.reg (rRecCfg 0)) 31 = false ∧ m.block = []) := by
  refine ⟨by decide +kernel, by decide +kernel, ⟨rfl, rfl, rfl, rfl, rfl, rfl, by decide +kernel, rfl, by decide +kernel, rfl, some_of (by decide +kernel)⟩, by decide +kernel, by decide +kernel⟩

/-- SHADOW_CTL of OP op: a block or Waymark in object 1 (to 0x9000 for WAYMARK), the shadow, peer 6, attempt 1 and step 7 where the OP has them. -/
def shadowD (op : Nat) : Desc := dsc [(0, 14), (16, op), (17, if op = 4 then 2 else 0), (18, if op = 5 ∨ op = 6 then 6 else 0), (20, if op = 7 then 1 else 0),
  (24, if op = 1 then ref 1 0x1000 else if op = 3 then ref 1 0x9000 else if op = 4 then ref 1 0x8000 else 0), (32, if op = 3 ∨ op = 4 then 128 else 0), (40, if op = 2 ∨ op = 4 ∨ op = 7 then 7 else 0)]
def shadowS (op : Nat) (m : Mile) (digest : List Byte) : State := mileS m digest [shadowD op]
def shadowRuns (op : Nat) (m : Mile) (digest : List Byte) : Prop := isShadow op (shadowD op) = true ∧ (shadowS op m digest).Passes (0 : CtxId) (0 : RingId) 0#32 (shadowD op) (shadowChk op (0 : CtxId))

theorem witness_ShadowControl_setup : shadowRuns 1 {} [] ∧
    (let s := shadowS 1 {} []
     let d := shadowD 1
     let s1 := s.beginDesc (0 : CtxId) d
     let a := s1.resolve (0 : CtxId) (d.num 24 8)
     let h := s1.readTarget (0 : CtxId) a 64
     let b := s1.readTarget (0 : CtxId) (a.plus 64) 64
     let rs := records 32 2 b.data
     64 ≤ a.extent ∧ h.stop = none ∧ setupHdrOk h.data = true ∧ recNat h.data 4 2 = 1 ∧ recNat h.data 6 2 = 0 ∧ 64 + 64 ≤ a.extent ∧ b.stop = none ∧ rs.all rangeRecOk = true ∧
      rs.map rangeOf = [⟨1, 0x2000, 64⟩, ⟨1, 0x3000, 64⟩] ∧ (∀ x ∈ rs.map rangeOf, s.inRange (0 : CtxId) x.obj = true ∧ s.rangeFits (0 : CtxId) x = true) ∧
      s.inRange (0 : CtxId) (recNat h.data 16 4) = true ∧ s.inRange (0 : CtxId) (recNat h.data 20 4) = true ∧ 131072 ≤ s.objSize (0 : CtxId) (recNat h.data 20 4)) ∧
    (let d := dsc [(0, 14), (16, 1), (24, ref 1 0)]
     let s := mileS {} [] [d]
     let s1 := s.beginDesc (0 : CtxId) d
     isShadow 1 d = true ∧ s.Passes (0 : CtxId) (0 : RingId) 0#32 d (shadowChk 1 (0 : CtxId)) ∧ (64 ≤ (s1.resolve (0 : CtxId) (d.num 24 8)).extent ∧
      (s1.readTarget (0 : CtxId) (s1.resolve (0 : CtxId) (d.num 24 8)) 64).stop = none ∧ setupHdrOk (s1.readTarget (0 : CtxId) (s1.resolve (0 : CtxId) (d.num 24 8)) 64).data = false)) :=
  ⟨⟨by decide +kernel, passes_of (by decide +kernel)⟩, by decide +kernel, ⟨by decide +kernel, passes_of (by decide +kernel), by decide +kernel⟩⟩

theorem witness_ShadowControl : (shadowRuns 2 mile0 [] ∧ mile0.commit = none) ∧ (shadowRuns 5 mile0 [] ∧ ((shadowS 5 mile0 []).ctx (0 : CtxId)).readies = []) ∧ shadowRuns 6 mile0 [] ∧
    (let r : FillRun := { send := true, kind := false, peer := 6, total := 64 }
     let d := { shadowD 5 with start := some 0, work := .fill r }
     (mileS mile0 [] [d]).desc? (0 : CtxId) (0 : RingId) 0#32 = some d ∧ d.work = .fill r ∧ d.ending = none) ∧
    (shadowRuns 7 mile0 [] ∧ ((shadowS 7 mile0 []).ctx (0 : CtxId)).newer = [] ∧ ((shadowS 7 mile0 []).ctx (0 : CtxId)).pair = none) ∧
    (shadowRuns 8 mile0 [] ∧ (shadowS 8 mile0 []).tag 0 ≠ 0 ∧ ((shadowS 8 mile0 []).ctx (0 : CtxId)).pair = none) :=
  ⟨⟨⟨by decide +kernel, passes_of (by decide +kernel)⟩, rfl⟩, ⟨⟨by decide +kernel, passes_of (by decide +kernel)⟩, rfl⟩, ⟨by decide +kernel, passes_of (by decide +kernel)⟩, by decide +kernel,
    ⟨⟨by decide +kernel, passes_of (by decide +kernel)⟩, rfl, rfl⟩, ⟨⟨by decide +kernel, passes_of (by decide +kernel)⟩, by decide +kernel, rfl⟩⟩

/-- EXPEL while a turn that another descriptor began is in stage 1. -/
theorem witness_ShadowControl_expel :
    (let x := { pair0 with phase := 2, turn := some { turn0 1 with pos := 1 } }
     let s := { shadowS 8 mile0 [] with ctxs := [(0, { up.ctx 0 with descs := [shadowD 8, { turnD with pos := 1 }], mile := mile0, pair := some x })] }
     isShadow 8 (shadowD 8) = true ∧ s.Passes (0 : CtxId) (0 : RingId) 0#32 (shadowD 8) (shadowChk 8 (0 : CtxId)) ∧ s.tag 0 ≠ 0 ∧ (shadowD 8).pos ≠ 1) :=
  ⟨by decide +kernel, passes_of (by decide +kernel), by decide +kernel, by decide +kernel⟩

theorem witness_ShadowControl_waymark : shadowRuns 3 mile0 [] ∧ ((shadowS 3 mile0 []).ctx (0 : CtxId)).mile.setup = some setup0 ∧
    (∃ g, ((shadowS 3 mile0 []).beginDesc (0 : CtxId) (shadowD 3)).readGroup (0 : CtxId) setup0.shadowGroup = .ok g ∧ (g.ranks.length == 2) = true) ∧
    (let s := shadowS 3 mile0 []
     spanBytes (s.rangeSpans setup0.shadow) = 64 ∧ s.blockLen (s.objBase setup0.stateObj + 65536) = 0 ∧ 64 + 64 + 0 ≤ (shadowD 3).num 32 8 ∧
      (s.readSpans (s.rangeSpans setup0.shadow ++ [(s.objBase setup0.stateObj + 65536, 0)])).stop = none) ∧
    ∀ bs, ∃ s2, (((shadowS 3 mile0 []).beginDesc (0 : CtxId) (shadowD 3)).touchRefs (0 : CtxId) [(shadowD 3).num 24 8]).writeTarget (0 : CtxId)
      ((((shadowS 3 mile0 []).beginDesc (0 : CtxId) (shadowD 3)).touchRefs (0 : CtxId) [(shadowD 3).num 24 8]).resolve (0 : CtxId) ((shadowD 3).num 24 8)) bs = (s2, none) :=
  ⟨⟨by decide +kernel, passes_of (by decide +kernel)⟩, rfl, ok_of (by decide +kernel), by decide +kernel, writes_of (by decide +kernel) (by decide +kernel)⟩

/-- What a RESTORE of the Waymark with that digest asks; its shadow's bytes are zeros. -/
def restores (digest : List Byte) (same : Bool) : Prop := shadowRuns 4 mile0 digest ∧ ((shadowS 4 mile0 digest).ctx (0 : CtxId)).mile.setup = some setup0 ∧
  ∃ g, ((shadowS 4 mile0 digest).beginDesc (0 : CtxId) (shadowD 4)).readGroup (0 : CtxId) setup0.shadowGroup = .ok g ∧
    (let s := shadowS 4 mile0 digest
     let d := shadowD 4
     let s1 := s.beginDesc (0 : CtxId) d
     let a := s1.resolve (0 : CtxId) (d.num 24 8)
     let h := s1.readTarget (0 : CtxId) a 64
     let spans := s.rangeSpans setup0.shadow
     let b := s1.readTarget (0 : CtxId) (a.plus 64) 64
     let s2 := (State.writeSpans spans (s1.touchRefs (0 : CtxId) [d.num 24 8]) 0 0 (b.data.take 64)).devWrite (s.objBase setup0.stateObj + 65536) (b.data.drop 64)
     decide (shadowFlag d = true ∧ spanBytes spans = 64 ∧ h.stop = none ∧ recNat h.data 0 4 = waymarkMagic ∧ recNat h.data 16 8 = 64 ∧ recNat h.data 8 8 = d.num 40 8 ∧
      recNat h.data 4 2 = (g.me + 1) % g.ranks.length ∧ 64 + 64 ≤ d.num 32 8 ∧ b.stop = none ∧
      s.spansReadOnly (spans ++ [(s.objBase setup0.stateObj + 65536, 65536)]) = false ∧
      decide (weightDigest (s2.readSpans spans).data = (h.data.drop 32).take 32) = same)) = true

theorem witness_ShadowControl_restore : restores (weightDigest (List.replicate 64 0#8)) true ∧ restores (List.replicate 32 1#8) false :=
  ⟨⟨⟨by decide +kernel, passes_of (by decide +kernel)⟩, rfl, ok_of (by decide +kernel)⟩, ⟨⟨by decide +kernel, passes_of (by decide +kernel)⟩, rfl, ok_of (by decide +kernel)⟩⟩

/-- The fuse words 1 and 2 rise, and a step of that state answers a next state. -/
theorem witness_FusesOnlyRise : { up with flash := { fuses := [1#16, 2#16] } }.FusesRise ∧ { up with flash := { fuses := [1#16, 2#16] } }.pending = [] ∧
    (∃ t, step { up with flash := { fuses := [1#16, 2#16] } } = .next t) := ⟨by unfold State.FusesRise; decide +kernel, rfl, ⟨_, rfl⟩⟩

/-- Reset, and a state with bytes, objects and ledger entries, is canonical, and its step answers a next state. -/
theorem witness_TablesStayCanonical : State.reset.Canonical ∧ { rows (dsc []) live3 with host := { data := [(3, 1#8), (9, 2#8)] } }.Canonical ∧
    ∃ t, step (rows (dsc []) live3) = .next t :=
  ⟨by unfold State.Canonical; decide +kernel, by unfold State.Canonical; decide +kernel, ⟨_, rfl⟩⟩

/-! Values that the spec's worked examples and the standards it names give. -/

/-- The worked example of R417: 54, then 55, then steady. -/
theorem test_power_example : rawM 64 4650 3600 4200 98 0 = 54 ∧ rawM 54 4060 3010 4200 98 0 = 55 ∧ rawM 55 4112 3062 4200 98 0 = 55 := by decide
/-- The worked example of R185: scale byte 0x81 and codes 0x5, 0xC, 0x0, 0x1 for 13.0, -7.0, 0.3 and 2.2. -/
theorem test_mxfp4_example : mxBlock fmtE2m1 ([0x41500000#32, 0xC0E00000#32, 0x3E99999A#32, 0x400CCCCD#32] ++ List.replicate 28 0#32) = (0x81, [0x5, 0xC, 0x0, 0x1] ++ List.replicate 28 0) := by
  decide +kernel
/-- The worked example after R315: 36 pages of position 13 are freed, entries 513,036 to 513,071, and VERSION is 213. -/
theorem test_setLength_example : (match applyEdit 3 { s := { State.reset with
      regs := [(rKvLayout 3, dword (512 + 36 * 2 ^ 16)), (rLedgerRange 3, dword (512568 + 504 * 2 ^ 32))]
      ledger := { entries := (List.range 36).map (fun i => (513036 + i, 0x4000000001000000#64)), seqs := [(1017, { len := 6658, base := 512568, cap := 14, version := 212#16, live := true })] } } }
      { op := 2, free := true, check := true, version := 212#16, seq := 1017, arg0 := 6655, arg1 := 0, data := 0#64 } with
    | .ok a => (a.freed.map (fun x => x.1), (a.s.seqEntry 1017).len, (a.s.seqEntry 1017).version, a.s.ledger.entries)
    | .error _ => ([], 0, 0#16, [])) = ((List.range 36).map (fun i => 513036 + i), 6655, 213#16, []) := by decide +kernel
/-- The turn that fails on rank 17 in stage 4 answers 0x0004_0011 (worked example after R385). -/
theorem test_abort_result : (match exec (.sbAbort 0 17 stCheck 4) { turnS (turn0 4) with mem := { objs := [(2, { ubase := 2 ^ 21, size := 64, ctx := 0, frames := [1] })] } } with
    | .next t => ((t.ctx 0).find 0 0).bind (fun (d : Desc) => d.ending.map (fun e => (e.status, e.result)))
    | _ => none) = some (stCheck, 0x00040011#64) := by decide +kernel
/-- The check value of CRC-32C (Castagnoli). -/
theorem test_crc32c : crc32c ((List.range 9).map (fun i => byte (0x31 + i))) = 0xE3069283#32 := by decide +kernel
/-- FIPS 180-4: the digests of "abc". -/
theorem test_sha : beNat (sha256 [0x61#8, 0x62#8, 0x63#8]) = 0xba7816bf8f01cfea414140de5dae2223b00361a396177a9cb410ff61f20015ad ∧
    beNat (sha384 [0x61#8, 0x62#8, 0x63#8]) = 0xcb00753f45a35e8bb5a03d699ac65007272c32ab0eded1631a8b605a43ff5bed8086072ba1e7cc2358baeca134c825a7 := by decide +kernel
/-- Philox-4x32-10 of key and counter zero (R177). -/
theorem test_philox : philox 0 0 (0, 0, 0, 0) = (0x6627e8d5, 0xe169c58d, 0xbc57ac4c, 0x9b00dbd8) := by decide +kernel
/-- Words of R176 written out from its table: PX.NEXT, HF.ADD, LT.ADD, HX.DONE, and PX.NEXT with rs1 not 0. -/
theorem test_extensions : extOp 0b0000000_00011_00000_000_00101_0001011 = some 0 ∧ (extOp 0b0000000_00010_00001_100_00101_0001011).isSome = true ∧
    (extOp 0b0000000_00010_00001_001_00101_0101011).isSome = true ∧ (extOp 0b0000000_00000_00000_000_00000_1111011).isSome = true ∧
    extOp 0b0000000_00011_00001_000_00101_0001011 = none := by decide +kernel
/-- 1.0 + 2^-24 rounds to even, 1.0 + 3 x 2^-24 rounds up. -/
theorem test_fadd : fadd 0x3F800000#32 0x33800000#32 = 0x3F800000#32 ∧ fadd 0x3F800000#32 0x34400000#32 = 0x3F800002#32 := by decide +kernel
/-- WEAR grows by 10 a hour at half load and 55 degrees, and doubles every 10 degrees (R287). -/
theorem test_wear : wearAdd 500 550 = 10 ∧ wearAdd 500 650 = 20 ∧ wearAdd 1000 450 = 20 := by decide +kernel

end Sys2Proof.Tests
end

namespace Sys2Proof.Machine

/-! The arms of `exec` for the commands of this part. -/

theorem exec_bar0BadAccess (write : Bool) (off size : Nat) (s : State) :
    exec (.bar0BadAccess write off size) s = execBar0BadAccess write off size s := rfl

theorem exec_stickyCauseClear (f : Func) (v : Word) (s : State) : exec (.stickyCauseClear f v) s = execStickyCauseClear f v s := rfl

theorem exec_descriptorUndefinedOpcode (c : CtxId) (q : RingId) (p : Word) (s : State) :
    exec (.descriptorUndefinedOpcode c q p) s = execDescriptorUndefinedOpcode c q p s := rfl

theorem exec_registerWrite (f : Func) (off : Nat) (a : RegAccess) (s : State) :
    exec (.registerWrite f off a) s = execRegisterWrite f off a s := rfl

/-- Physical function 0 reaches BAR0 at the offset it names (R81). -/
theorem exec_registerWrite_pf (off : Nat) (a : RegAccess) (s : State) : exec (.registerWrite .pf off a) s = .next (s.access .pf off a) := rfl

/-- A virtual function has one page of 4 KiB (R81). -/
theorem exec_registerWrite_vf_beyond_page {off : Nat} (h : 0x1000 ≤ off) (n : CtxId) (a : RegAccess) (s : State) :
    exec (.registerWrite (.vf n) off a) s = .next s := by
  simp [exec_registerWrite, execRegisterWrite, bar0Offset, Nat.not_lt.mpr h]

/-- Settles O13: the two branches of BAR0_BAD_ACCESS (R10), for a write and for a read. -/
theorem narrowOrUnalignedAccess : Obligations.NarrowOrUnalignedAccess := by
  refine ⟨fun off size s => ?write, fun off size s => ?read⟩
  case write => rw [exec_bar0BadAccess]; rfl
  case read => rw [exec_bar0BadAccess]; rfl

/-! Descriptors with an undefined opcode. -/

/-- What `modDesc` does depends on its function only at the place it changes. -/
theorem State.modDesc_congr (s : State) (c : Nat) {q p : Nat} {f g : Desc → Desc} (h : ∀ x, x.ring = q → x.pos = p → f x = g x) :
    s.modDesc c q p f = s.modDesc c q p g := by
  have hfg : (fun d : Desc => if d.ring = q ∧ d.pos = p then f d else d) = fun d => if d.ring = q ∧ d.pos = p then g d else d :=
    funext fun d => ite_congr rfl (fun hd => h d hd.1 hd.2) fun _ => rfl
  simp only [State.modDesc, hfg]

/-- The start of a descriptor leaves every other place of its context's rings. -/
theorem State.find_beginDesc_ne (s : State) (c : Nat) (d : Desc) {q p : Nat} (h : ¬(q = d.ring ∧ p = d.pos)) :
    ((s.beginDesc c d).ctx c).find q p = (s.ctx c).find q p := by
  have hb : s.modDesc c d.ring d.pos (fun _ => s.begun d) = s.modDesc c d.ring d.pos (fun x => { s.begun d with ring := x.ring, pos := x.pos }) :=
    s.modDesc_congr c fun x hr hp => by rw [hr, hp]; rfl
  calc ((s.beginDesc c d).ctx c).find q p
      = ((s.modDesc c d.ring d.pos (fun _ => s.begun d)).ctx c).find q p := rfl
    _ = (s.ctx c).find q p := by rw [hb]; exact State.find_modDesc_ne (fun _ => ⟨rfl, rfl⟩) h

/-- The start of a descriptor leaves the other contexts. -/
theorem State.beginDesc_ctx_ne (s : State) {c k : Nat} (d : Desc) (h : k ≠ c) : (s.beginDesc c d).ctx k = s.ctx k :=
  s.modDesc_ctx_ne d.ring d.pos _ h

/-- The end of a descriptor's work leaves every other place of its context's rings. -/
theorem State.find_endDesc_ne (s : State) (c : Nat) {q p q' p' : Nat} (e : Ending) (h : ¬(q' = q ∧ p' = p)) :
    ((s.endDesc c q p e).ctx c).find q' p' = (s.ctx c).find q' p' :=
  State.find_modDesc_ne (fun x => by split <;> exact ⟨rfl, rfl⟩) h

/-- The end of a descriptor's work leaves the other contexts. -/
theorem State.endDesc_ctx_ne (s : State) {c k : Nat} (q p : Nat) (e : Ending) (h : k ≠ c) : (s.endDesc c q p e).ctx k = s.ctx k :=
  s.modDesc_ctx_ne q p _ h

/-- A descriptor that may start has not ended (R89). -/
theorem State.ending_of_mayStart {s : State} {c : Nat} {d : Desc} (h : s.mayStart c d = true) : d.ending = none := by
  simp only [State.mayStart, Bool.and_eq_true, Option.isNone_iff_eq_none] at h
  obtain ⟨⟨⟨⟨⟨-, hend⟩, -⟩, -⟩, -⟩, -⟩ := h
  exact hend

theorem opcodeDefined_eq_false_iff (o : Nat) : opcodeDefined o = false ↔ o = 0 ∨ 0x11 ≤ o := by
  simp only [opcodeDefined, decide_eq_false_iff_not]
  omega

/-- The opcode is the first check of R102. -/
theorem State.check_undefined_opcode (s : State) (c : Nat) {d : Desc} (k : Chk) (h : opcodeDefined d.opcode = false) :
    s.check c d k = some { status := 0x03#8, secondary := 0x8000#16 } := by
  simp only [State.check, h, Bool.not_false, if_true]
  rfl

/-- A descriptor that fails a check changes only in its start and its ending; the module's count of starts is one higher. -/
theorem State.startDesc_fails_frame {s : State} {c q : Nat} {p : Word} {d : Desc} {chk : State → Desc → Chk} {mine hold : Desc → Bool}
    {run : State → Desc → State} {e : Ending} (h : s.Fails c q p d chk e) (hm : mine d = true) (hh : hold d = false) :
    ∃ t, s.startDesc c q p mine hold chk run = t ∧ t.Ended c d e ∧ t = { s with ctxs := t.ctxs, nextStart := s.nextStart + 1 } ∧
      (∀ k, k ≠ c → t.ctx k = s.ctx k) ∧ (∀ r n, ¬(r = d.ring ∧ n = d.pos) → (t.ctx c).find r n = (s.ctx c).find r n) := by
  obtain ⟨hd, hmay, -⟩ := id h
  refine ⟨_, State.startDesc_fails h hm hh, ?ended, rfl, fun k hk => ?others, fun r n hne => ?places⟩
  case ended =>
    have hopen : (s.begun d).ending = none := (State.ending_of_mayStart hmay : d.ending = none)
    exact State.endDesc_ended (State.find_beginDesc hd) hopen
  case others => rw [State.endDesc_ctx_ne _ _ _ _ hk, State.beginDesc_ctx_ne _ _ hk]
  case places => rw [State.find_endDesc_ne _ _ _ hne, State.find_beginDesc_ne _ _ _ hne]

/-- Settles O21: an undefined opcode fails the first check of R102, so the shared start of descriptors ends it with FORMAT. -/
theorem undefinedOpcodeCompletesWithFormat : Obligations.UndefinedOpcodeCompletesWithFormat := by
  intro c q p d s hd hmay hop
  have hundef : opcodeDefined d.opcode = false := (opcodeDefined_eq_false_iff _).mpr hop
  have hfails : s.Fails c q p d undefChk { status := 0x03#8, secondary := 0x8000#16 } :=
    ⟨hd, hmay, State.check_undefined_opcode _ _ _ hundef⟩
  obtain ⟨t, ht, hrest⟩ := State.startDesc_fails_frame (mine := fun d => !opcodeDefined d.opcode || opUndefined d)
    (hold := fun _ => false) (run := fun s _ => s) hfails (by simp [hundef]) rfl
  exact ⟨t, by rw [exec_descriptorUndefinedOpcode, execDescriptorUndefinedOpcode, ht], hrest⟩

end Sys2Proof.Machine

namespace Sys2Proof.Machine

/-! Which offsets answer before stage 4 (R50), and what reading or writing a word does there. -/

/-- BAR0 answers at an offset: the module is in stage 4, or the offset lies in GLB or SEC (R50). -/
def State.answersAt (s : State) (off : Nat) : Prop := s.chip.stage = 4 ∨ earlyBlock off = true

theorem State.answersAt_iff (s : State) (off : Nat) : s.answersAt off ↔ ¬(s.chip.stage ≠ 4 ∧ (!earlyBlock off) = true) := by
  cases h : earlyBlock off <;> simp [State.answersAt, h]

theorem State.readWord_closed {s : State} {off : Nat} (h : ¬s.answersAt off) : s.readWord off = (s.countErr, 0xFFFFFFFF) := by
  rw [State.answersAt_iff, Classical.not_not] at h
  simp only [State.readWord, if_pos h]

theorem State.readWord_register {s s' : State} {off v : Nat} (h : s.answersAt off) (hw : s.bar0Word off = (s', some v)) :
    s.readWord off = (s'.clearRead off, v % 2 ^ 32) := by
  simp only [State.readWord, if_neg ((s.answersAt_iff off).mp h), hw]

theorem State.readWord_unnamed {s s' : State} {off : Nat} (h : s.answersAt off) (hw : s.bar0Word off = (s', none)) :
    s.readWord off = (s'.bump, s'.free.toNat % 2 ^ 32) := by
  simp only [State.readWord, if_neg ((s.answersAt_iff off).mp h), hw]

theorem State.writeWord_closed {s : State} {off : Nat} (h : ¬s.answersAt off) (f : Func) (v : Nat) : s.writeWord f off v = s.countErr := by
  rw [State.answersAt_iff, Classical.not_not] at h
  simp only [State.writeWord, if_pos h]

/-- The low word of a 64-bit register waits (R9). -/
theorem State.writeWord_low {s : State} {f : Func} {off : Nat} (h : s.answersAt off) (hw : wide64 off = true) (hf : s.mayWrite f off = true) (v : Nat) :
    s.writeWord f off v = { s with latches := s.latches.set off (word v) } := by
  simp only [State.writeWord, if_neg ((s.answersAt_iff off).mp h), hw, hf, if_true]

theorem State.writeWord_low_denied {s : State} {f : Func} {off : Nat} (h : s.answersAt off) (hw : wide64 off = true) (hf : s.mayWrite f off = false)
    (v : Nat) : s.writeWord f off v = s := by
  simp only [State.writeWord, if_neg ((s.answersAt_iff off).mp h), hw, hf, if_true, Bool.false_eq_true, if_false]

/-- A word that belongs to no 64-bit register is written as it stands. -/
theorem State.writeWord_narrow {s : State} {off : Nat} (h : s.answersAt off) (hw : wide64 off = false) (hl : off % 8 = 4 → wide64 (off - 4) = false)
    (f : Func) (v : Nat) : s.writeWord f off v = s.write32At f off v := by
  have hhigh : ¬(off % 8 = 4 ∧ wide64 (off - 4) = true) := fun ⟨h4, hw'⟩ => by simp [hl h4] at hw'
  simp only [State.writeWord, if_neg ((s.answersAt_iff off).mp h), hw, Bool.false_eq_true, if_false, if_neg hhigh]

/-- A 64-bit write is the write of its low word, then of its high word (R9). -/
theorem State.access_write64 {s : State} {off : Nat} (h : s.answersAt off) (f : Func) (lo hi : Word) :
    s.access f off (.write64 (BitVec.ofNat 64 (lo.toNat + hi.toNat * 2 ^ 32))) = (s.writeWord f off lo.toNat).writeWord f (off + 4) hi.toNat := by
  have hlo := lo.isLt
  have hhi := hi.isLt
  have hv : (lo.toNat + hi.toNat * 2 ^ 32) % 2 ^ 64 = lo.toNat + hi.toNat * 2 ^ 32 := Nat.mod_eq_of_lt (by omega)
  have hlow : (lo.toNat + hi.toNat * 2 ^ 32) % 2 ^ 32 = lo.toNat := by omega
  have hhigh : (lo.toNat + hi.toNat * 2 ^ 32) / 2 ^ 32 = hi.toNat := by omega
  simp only [State.access, if_neg ((s.answersAt_iff off).mp h), BitVec.toNat_ofNat, hv, hlow, hhigh]

/-- A read of a word emits what it returns, in the state that the read leaves. -/
theorem exec_read32 {s u : State} {off v : Nat} (h : s.readWord off = (u, v)) :
    exec (.registerWrite .pf off .read32) s = .next (u.emit (.readData (leBytes 4 v))) := by
  simp only [exec_registerWrite_pf, State.access, h]

theorem exec_write32 (s : State) (off : Nat) (v : Word) : exec (.registerWrite .pf off (.write32 v)) s = .next (s.writeWord .pf off v.toNat) := rfl

/-! The words of BAR0 that the statement names, and what reading each one clears. -/

/-- Where the PMC block names no register, nothing is counted. -/
theorem State.pmcWord_unnamed {s : State} {off : Nat} (h : (s.pmcWord off).2 = none) : (s.pmcWord off).1 = s := by
  revert h
  unfold State.pmcWord
  dsimp only
  split
  case isTrue =>
    split
    · exact nofun
    · split
      · exact nofun
      · split
        · exact nofun
        · exact fun _ => rfl
  case isFalse =>
    split
    · exact nofun
    · split
      · exact nofun
      · exact fun _ => rfl

/-- No register stands at an offset: then reading the word there counts nothing. -/
theorem State.bar0Word_unnamed {s : State} {off : Nat} (h : (s.bar0Word off).2 = none) : s.bar0Word off = (s, none) := by
  refine Prod.ext ?_ h
  unfold State.bar0Word at h ⊢
  split
  case isTrue hpmc =>
    rw [if_pos hpmc] at h
    exact State.pmcWord_unnamed h
  case isFalse => rfl

/-- HLT registers that hold a set-up value of their own and are plain to write. -/
theorem State.bar0Word_hlt {s : State} {off : Nat} (h : off = rPwrCtl ∨ off = rThrottleCtl ∨ off = rSleepCtl) :
    s.bar0Word off = (s, some (s.reg off)) := by
  rcases h with rfl | rfl | rfl <;> rfl

theorem State.bar0Word_glbStage (s : State) : s.bar0Word 0x44 = (s, some s.glbStage) := rfl

theorem State.bar0Word_opxDrop (s : State) : s.bar0Word 0x800008 = (s, some (s.fabric.dropTag * 2 ^ 16 + s.fabric.dropHops)) := rfl

/-- Reading a GLB or an HLT register clears nothing. -/
theorem State.clearRead_glb_or_hlt (s : State) {off : Nat} (h : off < 0x100000 ∨ (0xA00000 ≤ off ∧ off < 0xB00000)) : s.clearRead off = s := by
  unfold State.clearRead
  repeat rw [if_neg (by omega)]

theorem State.clearRead_opxDrop (s : State) : s.clearRead 0x800008 = { s with fabric := { s.fabric with dropTag := 0, dropHops := 0 } } := rfl

/-- Where the word at p of the CTX page of a context lies (R81). -/
theorem ctxPage_word {c p : Nat} (hc : c < 64) (hp : p < 0x1000) : 0x100000 ≤ ctxPage c + p ∧ ctxPage c + p < 0x140000 ∧
    (ctxPage c + p - 0x100000) / 0x1000 = c ∧ (ctxPage c + p) % 0x1000 = p := by
  unfold ctxPage
  omega

theorem State.bar0Word_staleDrop (s : State) {c : Nat} (hc : c < 64) :
    s.bar0Word (ctxPage c + 0x030) = (s, some (s.ctx c).staleDrop.toNat) := by
  obtain ⟨hlo, hhi, hpage, hword⟩ := ctxPage_word hc (p := 0x030) (by decide)
  have hpmc : ¬(0xC00000 ≤ ctxPage c + 0x030 ∧ ctxPage c + 0x030 < 0xD00000) := by omega
  rw [State.bar0Word, if_neg hpmc, if_pos ⟨hlo, hhi⟩, hpage, hword]
  rfl

theorem State.clearRead_staleDrop (s : State) {c : Nat} (hc : c < 64) : s.clearRead (ctxPage c + 0x030) =
    s.modCtx c (fun x => { x with staleDrop := 0#32, mile := { x.mile with staleAtOpen := x.mile.staleAtOpen - x.staleDrop } }) := by
  obtain ⟨hlo, hhi, hpage, hword⟩ := ctxPage_word hc (p := 0x030) (by decide)
  simp only [State.clearRead, if_pos (And.intro hlo hhi), hpage, hword, if_true]

/-! Sticky causes of FAULT_N (R34). -/

/-- Only the FAULT_N pin may change, and whether it is due to a cause does not depend on it. -/
theorem State.refreshFault_eq (s : State) :
    s.refreshFault = { s with inputs := { s.inputs with faultN := s.inputs.faultN && (s.faultPresent || s.faultHeld) } } := by
  unfold State.refreshFault
  cases s.faultPresent || s.faultHeld <;> simp

theorem State.clearSticky_spec (s : State) (v : Word) : ∃ t, s.clearSticky v.toNat = t ∧ t = { s with inputs := t.inputs } ∧
    t.inputs.sticky = s.inputs.sticky &&& ~~~(v &&& 0xFF0#32) ∧ t.inputs.faultN = (s.inputs.faultN && (t.faultPresent || t.faultHeld)) := by
  have hmask : word (v.toNat &&& 0xFF0) = v &&& 0xFF0#32 := BitVec.eq_of_toNat_eq (by simp [word])
  refine ⟨_, rfl, ?_⟩
  rw [State.clearSticky, hmask, State.refreshFault_eq]
  exact ⟨rfl, rfl, rfl⟩

/-! The clauses of the obligation, one theorem each. -/

theorem State.not_answersAt_of_early {s : State} {off : Nat} (hs : s.chip.stage ≠ 4) (he : earlyBlock off = false) : ¬s.answersAt off := by
  simp [State.answersAt, hs, he]

/-- Before stage 4 an access outside GLB and SEC is counted; a write is discarded, a read returns all ones (R50). -/
theorem exec_write32_early {s : State} {off : Nat} (hs : s.chip.stage ≠ 4) (he : earlyBlock off = false) (v : Word) :
    exec (.registerWrite .pf off (.write32 v)) s = .next s.countErr := by
  rw [exec_write32, State.writeWord_closed (State.not_answersAt_of_early hs he)]

theorem exec_read32_early {s : State} {off : Nat} (hs : s.chip.stage ≠ 4) (he : earlyBlock off = false) :
    exec (.registerWrite .pf off .read32) s = .next (s.countErr.emit (.readData (List.replicate 4 0xFF#8))) :=
  exec_read32 (State.readWord_closed (State.not_answersAt_of_early hs he))

/-- The words of a 64-bit register, written one after the other, do what one write of the whole does (R9). -/
theorem exec_write32_low_then_high {s : State} {off : Nat} (hs : s.chip.stage = 4) (hw : wide64 off = true) (hf : s.mayWrite .pf off = true)
    (lo hi : Word) : ∃ u, exec (.registerWrite .pf off (.write32 lo)) s = .next u ∧ u = { s with latches := s.latches.set off lo } ∧
      exec (.registerWrite .pf (off + 4) (.write32 hi)) u =
        exec (.registerWrite .pf off (.write64 (BitVec.ofNat 64 (lo.toNat + hi.toNat * 2 ^ 32)))) s := by
  have hlow := State.writeWord_low (.inl hs) hw hf lo.toNat
  refine ⟨_, exec_write32 s off lo, ?latched, ?high⟩
  case latched => rw [hlow, word, BitVec.ofNat_toNat, BitVec.setWidth_eq]
  case high => rw [exec_write32, exec_registerWrite_pf, State.access_write64 (.inl hs)]

/-- No 64-bit register stands in the HLT block or just below it. -/
theorem wide64_hlt {off : Nat} (h : 0x9FFFFC ≤ off ∧ off < 0xB00000) : wide64 off = false := by
  unfold wide64
  repeat rw [if_neg (by omega)]
  simp only [Bool.or_eq_false_iff, Bool.and_eq_false_iff, beq_eq_false_iff_ne, decide_eq_false_iff_not]
  omega

/-- In stage 4 a word of the HLT block is written by its own rule. -/
theorem exec_write32_hlt {s : State} {off : Nat} (hs : s.chip.stage = 4) (ho : 0xA00000 ≤ off ∧ off < 0xB00000) (v : Word) :
    exec (.registerWrite .pf off (.write32 v)) s = .next (s.writeHlt off v.toNat) := by
  rw [exec_write32, State.writeWord_narrow (.inl hs) (wide64_hlt (by omega)) (fun _ => wide64_hlt (by omega))]
  simp only [State.write32At]
  repeat rw [if_neg (by omega)]
  rw [if_pos (by omega)]

theorem State.writeHlt_pwrCtl (s : State) (v : Nat) : s.writeHlt rPwrCtl v = s.setReg rPwrCtl (v &&& 0xFFFF) := rfl
theorem State.writeHlt_throttleCtl (s : State) (v : Nat) : s.writeHlt rThrottleCtl v = s.setReg rThrottleCtl (v &&& 0x3FFFFF) := rfl
theorem State.writeHlt_sleepCtl (s : State) (v : Nat) : s.writeHlt rSleepCtl v = s.setReg rSleepCtl (v &&& 0x3FFFFFF) := rfl

/-- A read of a register that answers and clears nothing changes nothing. -/
theorem exec_read32_register {s : State} {off v : Nat} (h : s.answersAt off) (hw : s.bar0Word off = (s, some v)) (hc : s.clearRead off = s) :
    exec (.registerWrite .pf off .read32) s = .next (s.emit (.readData (leBytes 4 (v % 2 ^ 32)))) := by
  rw [exec_read32 (State.readWord_register h hw), hc]

/-- GLB_STAGE takes no write (R53). -/
theorem exec_write32_glbStage (s : State) (v : Word) : exec (.registerWrite .pf 0x44 (.write32 v)) s = .next s := by
  rw [exec_write32, State.writeWord_narrow (.inr rfl) rfl (fun _ => rfl)]
  rfl

/-- Settles O14: each clause from the lemmas on the words of BAR0 above. -/
theorem registerAccesses : Obligations.RegisterAccesses := by
  refine ⟨?early, ?words, ?denied, ?plain, ?vf, ?sticky, ?hlt, ?glbStage, ?staleDrop, ?opxDrop, ?unnamed⟩
  case early => exact fun off v s hs he => ⟨exec_write32_early hs he v, exec_read32_early hs he⟩
  case words => exact fun off lo hi s hs hw hf => exec_write32_low_then_high hs hw hf lo hi
  case denied => exact fun off lo s hs hw hf => by rw [exec_write32, State.writeWord_low_denied (.inl hs) hw hf]
  case plain =>
    intro v s hs
    refine ⟨?pwrCtl, ?throttleCtl, ?sleepCtl⟩
    case pwrCtl => rw [exec_write32_hlt hs (by decide), State.writeHlt_pwrCtl, State.setReg]
    case throttleCtl => rw [exec_write32_hlt hs (by decide), State.writeHlt_throttleCtl, State.setReg]
    case sleepCtl => rw [exec_write32_hlt hs (by decide), State.writeHlt_sleepCtl, State.setReg]
  case vf => exact fun n off a s ho => exec_registerWrite_vf_beyond_page ho n a s
  case sticky =>
    intro v s hs
    obtain ⟨t, ht, hrest⟩ := s.clearSticky_spec v
    exact ⟨t, by rw [exec_stickyCauseClear, execStickyCauseClear, State.ownerWrite_pf _ _ hs, ht], hrest⟩
  case hlt =>
    intro off s hs ho
    have hrange : 0xA00000 ≤ off ∧ off < 0xB00000 := by rcases ho with rfl | rfl | rfl <;> decide
    exact exec_read32_register (.inl hs) (State.bar0Word_hlt ho) (s.clearRead_glb_or_hlt (.inr hrange))
  case glbStage =>
    exact fun v s => ⟨exec_read32_register (.inr rfl) s.bar0Word_glbStage (s.clearRead_glb_or_hlt (.inl (by decide))), exec_write32_glbStage s v⟩
  case staleDrop =>
    intro c s hs
    have hread := exec_read32 (State.readWord_register (.inl hs) (s.bar0Word_staleDrop c.isLt))
    rw [s.clearRead_staleDrop c.isLt, Nat.mod_eq_of_lt (s.ctx c).staleDrop.isLt] at hread
    refine ⟨_, hread, rfl, ?cleared, fun k hk => ?others, rfl⟩
    case cleared => rw [State.emit_ctx, State.modCtx_ctx_self]
    case others => rw [State.emit_ctx, State.modCtx_ctx_ne _ _ hk]
  case opxDrop =>
    intro s hs
    rw [exec_read32 (State.readWord_register (.inl hs) s.bar0Word_opxDrop), s.clearRead_opxDrop]
    rfl
  case unnamed => exact fun off s hs h => ⟨_, exec_read32 (State.readWord_unnamed (.inl hs) (State.bar0Word_unnamed h))⟩

end Sys2Proof.Machine

namespace Sys2Proof.Machine

/-! The arms of `exec` for the power inputs, rails, trips and stages. -/

theorem exec_mainInputGood (a b : Bool) (s : State) : exec (.mainInputGood a b) s = execMainInputGood a b s := rfl
theorem exec_stage2Complete (f : Option (Byte × Byte)) (s : State) : exec (.stage2Complete f) s = execStage2Complete f s := rfl
theorem exec_stage3Complete (d : Option DieId) (s : State) : exec (.stage3Complete d) s = execStage3Complete d s := rfl
theorem exec_inputTrip (overV feedB : Bool) (s : State) : exec (.inputTrip overV feedB) s = execInputTrip overV feedB s := rfl
theorem exec_reversePolarity (feedB : Bool) (s : State) : exec (.reversePolarity feedB) s = execReversePolarity feedB s := rfl
theorem exec_feedLost (feedB : Bool) (s : State) : exec (.feedLost feedB) s = execFeedLost feedB s := rfl
theorem exec_feedRestored (feedB : Bool) (s : State) : exec (.feedRestored feedB) s = execFeedRestored feedB s := rfl
theorem exec_railOverCurrent (rail : Nat) (domains : List Nat) (s : State) :
    exec (.railOverCurrent rail domains) s = execRailOverCurrent rail domains s := rfl

/-! FAULT_N and the sticky bits of HLT_INPUT_STATUS. -/

@[simp] theorem State.assertFault_faultN (s : State) : s.assertFault.inputs.faultN = true := rfl
@[simp] theorem State.setSticky_faultN (s : State) (i : Nat) : (s.setSticky i).inputs.faultN = s.inputs.faultN := rfl

/-- A sticky bit is set from then on. -/
theorem State.setSticky_getLsbD (s : State) {i : Nat} (h : i < 32) : (s.setSticky i).inputs.sticky.getLsbD i = true := by
  rw [State.setSticky, BitVec.getLsbD_or, word, BitVec.getLsbD_ofNat, Nat.testBit_two_pow_self]
  simp [h]

@[simp] theorem State.toStage0_inputs (s : State) (cause unit : Byte) : (s.toStage0 cause unit).inputs = s.inputs := rfl

/-! INPUT_TRIP (R17, R18). -/

theorem exec_inputTrip_live {s : State} {feedB : Bool} (h : s.live feedB = true) (overV : Bool) :
    exec (.inputTrip overV feedB) s = .next (s.inputTrip overV feedB) := by
  simp [exec_inputTrip, execInputTrip, h]

/-- The under-voltage trip is reported on FAULT_N unless both PERST inputs are asserted (R18). -/
theorem State.inputTrip_underV_faultN (s : State) (feedB : Bool) :
    (s.inputTrip false feedB).inputs.faultN = if (s.hostA.perst && s.hostB.perst) = true then s.inputs.faultN else true := by
  unfold State.inputTrip
  simp only [Bool.not_false, Bool.true_and]
  split <;> simp

/-- Settles O6: the level of FAULT_N after the trip depends on the two PERST inputs alone. -/
theorem underVoltageTripFault : Obligations.UnderVoltageTripFault := by
  intro feedB s hlive
  refine ⟨_, exec_inputTrip_live hlive false, fun hone => ?one, fun ha hb => ?both⟩
  case one => rcases hone with h | h <;> simp [State.inputTrip_underV_faultN, h]
  case both => simp [State.inputTrip_underV_faultN, ha, hb]

/-! The power manager as a feed is lost (R22, R417). -/

/-- What `accrue` changes: the module counters and the time they were last counted. -/
theorem State.accrue_eq (s : State) : s.accrue = { s with pmcMod := s.accrue.pmcMod, pmcModOvf := s.accrue.pmcModOvf, pmcTime := s.accrue.pmcTime } := by
  unfold State.accrue
  dsimp only
  split <;> rfl

@[simp] theorem State.toRatio_m (s : State) (cap : Nat) : (s.toRatio cap).power.m = max s.ratio s.mFloor := rfl
@[simp] theorem State.toRatio_cap (s : State) (cap : Nat) : (s.toRatio cap).power.cap = min s.power.cap cap := rfl

/-- Beside m and the cap only counters change. -/
theorem State.toRatio_eq (s : State) (cap : Nat) : s.toRatio cap = { s with
    power := (s.toRatio cap).power, pmcMod := s.accrue.pmcMod, pmcModOvf := s.accrue.pmcModOvf, pmcTime := s.accrue.pmcTime } := by
  simp only [State.toRatio]
  rw [State.accrue_eq]

@[simp] theorem State.toRatio_inputs (s : State) (cap : Nat) : (s.toRatio cap).inputs = s.inputs := by rw [State.toRatio_eq]
@[simp] theorem State.toRatio_ctxs (s : State) (cap : Nat) : (s.toRatio cap).ctxs = s.ctxs := by rw [State.toRatio_eq]
@[simp] theorem State.toRatio_tiles (s : State) (cap : Nat) : (s.toRatio cap).tiles = s.tiles := by rw [State.toRatio_eq]
@[simp] theorem State.toRatio_mem (s : State) (cap : Nat) : (s.toRatio cap).mem = s.mem := by rw [State.toRatio_eq]
@[simp] theorem State.toRatio_chip (s : State) (cap : Nat) : (s.toRatio cap).chip = s.chip := by rw [State.toRatio_eq]

/-! Feeds (R19 to R22). -/

/-- The module without one of its feeds. -/
def State.dropFeed (s : State) (feedB : Bool) : State :=
  { s with inputs := { s.inputs with feedA := s.inputs.feedA && feedB, feedB := s.inputs.feedB && !feedB } }

theorem State.dropFeed_live_self (s : State) (feedB : Bool) : (s.dropFeed feedB).live feedB = false := by
  cases feedB <;> simp [State.live, State.dropFeed]

theorem State.dropFeed_live_other (s : State) (feedB : Bool) : (s.dropFeed feedB).live (!feedB) = s.live (!feedB) := by
  cases feedB <;> simp [State.live, State.dropFeed]

/-- Whether a connector is a live feed is a matter of the two feeds alone. -/
theorem State.live_congr {s t : State} (ha : t.inputs.feedA = s.inputs.feedA) (hb : t.inputs.feedB = s.inputs.feedB) (feedB : Bool) :
    t.live feedB = s.live feedB := by
  simp only [State.live, ha, hb]

/-- The loss of one of two feeds is no trip. -/
theorem exec_feedLost_of_two {s : State} (ha : s.inputs.feedA = true) (hb : s.inputs.feedB = true) (feedB : Bool) :
    exec (.feedLost feedB) s = .next (s.feedLost feedB) := by
  cases feedB <;> simp [exec_feedLost, execFeedLost, State.live, ha, hb]

/-- In service the power manager acts at once and the loss is reported; the class decides whether CLASS_FEED is set (R21, R22). -/
theorem State.feedLost_in_service {s : State} (h : s.chip.stage = 4) (feedB : Bool) : ∃ u, u = (s.dropFeed feedB).toRatio (min s.throttleCap 3600) ∧
    s.feedLost feedB = if 3600 < s.pwrClass then ({ u with inputs := { u.inputs with lostInService := true } } : State).assertFault.setSticky 6
      else ({ u with inputs := { u.inputs with lostInService := true } } : State).assertFault := by
  refine ⟨_, rfl, ?_⟩
  simp only [State.feedLost, if_pos h, decide_eq_true_eq]
  rfl

/-- Before stage 4 a class that one feed can supply goes on (R21). -/
theorem State.feedLost_before_service {s : State} (h : s.chip.stage ≠ 4) (hc : s.pwrClass ≤ 3600) (feedB : Bool) : s.feedLost feedB = s.dropFeed feedB := by
  simp only [State.feedLost, if_neg h, decide_eq_false (Nat.not_lt.mpr hc)]
  rfl

theorem feedLost_in_service_spec {s : State} (ha : s.inputs.feedA = true) (hb : s.inputs.feedB = true) (h : s.chip.stage = 4) (feedB : Bool) :
    ∃ t, exec (.feedLost feedB) s = .next t ∧ t.live feedB = false ∧ t.live (!feedB) = true ∧ t.inputs.faultN = true ∧ t.inputs.lostInService = true ∧
      (3600 < s.pwrClass → t.inputs.sticky.getLsbD 6 = true) ∧ t.power.m = max s.ratio s.mFloor ∧
      t.power.cap = min s.power.cap (min s.throttleCap 3600) ∧ t.ctxs = s.ctxs ∧ t.tiles = s.tiles ∧ t.mem = s.mem ∧ t.chip = s.chip := by
  obtain ⟨u, hu, ht⟩ := State.feedLost_in_service h feedB
  have hfeeds : u.live feedB = false ∧ u.live (!feedB) = true := by
    have hl := fun b => State.live_congr (s := s.dropFeed feedB) (t := u) (by rw [hu, State.toRatio_inputs]) (by rw [hu, State.toRatio_inputs]) b
    refine ⟨by rw [hl, State.dropFeed_live_self], ?_⟩
    rw [hl, State.dropFeed_live_other]
    cases feedB <;> simp [State.live, ha, hb]
  have hm : u.power.m = max s.ratio s.mFloor := by rw [hu, State.toRatio_m]; rfl
  have hcap : u.power.cap = min s.power.cap (min s.throttleCap 3600) := by rw [hu, State.toRatio_cap]; rfl
  have hsame : u.ctxs = s.ctxs ∧ u.tiles = s.tiles ∧ u.mem = s.mem ∧ u.chip = s.chip := by rw [hu]; simp [State.dropFeed]
  refine ⟨_, exec_feedLost_of_two ha hb feedB, ?_⟩
  rw [ht]
  split
  case isTrue hc => exact ⟨hfeeds.1, hfeeds.2, rfl, rfl, fun _ => State.setSticky_getLsbD _ (by decide), hm, hcap, hsame⟩
  case isFalse hc => exact ⟨hfeeds.1, hfeeds.2, rfl, rfl, fun h => absurd h hc, hm, hcap, hsame⟩

/-- Both feeds suffice for every class (R21). -/
theorem State.feedsOk_of_two {s : State} (ha : s.inputs.feedA = true) (hb : s.inputs.feedB = true) : s.feedsOk = true := by
  simp [State.feedsOk, State.feeds, State.oneFeed, ha, hb, b2n]

/-- One feed does not suffice for a class above 3,600 W (R21). -/
theorem State.feedsOk_of_one {s : State} (h : s.oneFeed = true) (hc : 3600 < s.pwrClass) : s.feedsOk = false := by
  simp [State.feedsOk, h, hc]

/-- The feeds of listed inputs join the live ones; a cause that one feed was lost in service ends once they suffice (R19 to R22). -/
theorem State.feedsIn_eq (s : State) (a b : Bool) : s.feedsIn a b = { s with inputs := { s.inputs with
    feedA := s.inputs.feedA || a
    feedB := s.inputs.feedB || b
    revA := s.inputs.revA && !a
    revB := s.inputs.revB && !b
    lostInService := (s.feedsIn a b).inputs.lostInService
    faultN := (s.feedsIn a b).inputs.faultN } } := by
  unfold State.feedsIn
  simp only [State.refreshFault_eq]
  split <;> rfl

theorem State.feedsIn_lostInService {s : State} {a b : Bool} (ha : (s.inputs.feedA || a) = true) (hb : (s.inputs.feedB || b) = true) :
    (s.feedsIn a b).inputs.lostInService = false := by
  unfold State.feedsIn
  simp only [State.refreshFault_eq]
  rw [if_pos (State.feedsOk_of_two ha hb)]

/-- The switches of the live feeds close; a rail comes back exactly where main input had been removed and a feed is live (R16, R19, R23). -/
theorem State.switchOn_eq (s : State) : s.switchOn = { s with inputs := { s.inputs with
    switchA := s.inputs.feedA || s.inputs.switchA && !s.inputs.revA
    switchB := s.inputs.feedB || s.inputs.switchB && !s.inputs.revB
    removed := s.inputs.removed && !(s.inputs.removed && s.feeds != 0)
    railsOff := if (s.inputs.removed && s.feeds != 0) = true then [] else s.inputs.railsOff
    domainsOff := if (s.inputs.removed && s.feeds != 0) = true then [] else s.inputs.domainsOff
    pwrGood := s.switchOn.inputs.pwrGood
    faultN := s.switchOn.inputs.faultN } } := by
  simp only [State.switchOn, State.refreshFault_eq]
  rfl

@[simp] theorem State.switchOn_chip (s : State) : s.switchOn.chip = s.chip := by rw [State.switchOn_eq]
@[simp] theorem State.switchOn_feeds (s : State) : s.switchOn.feeds = s.feeds := by rw [State.switchOn_eq]; rfl
@[simp] theorem State.switchOn_feedsOk (s : State) : s.switchOn.feedsOk = s.feedsOk := by rw [State.switchOn_eq]; rfl

/-- Stage 2 begins or nothing changes. -/
theorem State.begin2_eq (s : State) : s.begin2 = { s with chip := s.begin2.chip } := by
  unfold State.begin2
  split <;> rfl

theorem State.begin2_of_stage {s : State} (h : s.chip.stage ≠ 1) : s.begin2 = s := by
  simp [State.begin2, h]

/-- Where the feeds suffice a restart of the stages changes the start logic alone. -/
theorem State.restartStages_eq {s : State} (h : s.feedsOk = true) : s.restartStages = { s with chip := s.restartStages.chip } := by
  simp only [State.restartStages, h, Bool.not_true, Bool.and_false, Bool.false_eq_true, if_false]
  split
  case isTrue => rw [State.begin2_eq]
  case isFalse => rfl

/-- Main power on both feeds, with no trip held: beside the inputs only the start logic changes, and it only before stage 4 (R17, R21, R49). -/
theorem State.powered_of_two {s : State} (ht : s.inputs.tripHold = false) (ha : s.inputs.feedA = true) (hb : s.inputs.feedB = true) :
    s.powered = { s.switchOn with chip := s.powered.chip } ∧ (s.chip.stage = 4 → s.powered = s.switchOn) := by
  have hok : s.switchOn.feedsOk = true := by rw [State.switchOn_feedsOk, State.feedsOk_of_two ha hb]
  simp only [State.powered, ht, hok, Bool.not_true, Bool.false_eq_true, if_false]
  split
  case isTrue h => exact ⟨State.restartStages_eq hok, fun h4 => by simp [h4] at h⟩
  case isFalse => exact ⟨State.begin2_eq _, fun h4 => State.begin2_of_stage (by simp [h4])⟩

/-- Beside the inputs nothing changes as a feed comes in. -/
@[simp] theorem State.feedsIn_chip (s : State) (a b : Bool) : (s.feedsIn a b).chip = s.chip := by rw [State.feedsIn_eq]

theorem feedRestored_in_service_spec {s : State} {feedB : Bool} (hon : s.chip.alwaysOn = true) (h4 : s.chip.stage = 4) (ht : s.inputs.tripHold = false)
    (hlost : s.live feedB = false) (hother : s.live (!feedB) = true) : ∃ t, exec (.feedRestored feedB) s = .next t ∧ t.inputs.feedA = true ∧
      t.inputs.feedB = true ∧ t.inputs.lostInService = false ∧ t = { s with inputs := t.inputs } := by
  have hexec : exec (.feedRestored feedB) s = .next (s.feedsIn (!feedB) feedB).powered := by
    simp [exec_feedRestored, execFeedRestored, hon, hlost, hother]
  have ha : (s.inputs.feedA || !feedB) = true := by cases feedB <;> simp_all [State.live]
  have hb : (s.inputs.feedB || feedB) = true := by cases feedB <;> simp_all [State.live]
  have hinA : (s.feedsIn (!feedB) feedB).inputs.feedA = true := by rw [State.feedsIn_eq]; exact ha
  have hinB : (s.feedsIn (!feedB) feedB).inputs.feedB = true := by rw [State.feedsIn_eq]; exact hb
  have hhold : (s.feedsIn (!feedB) feedB).inputs.tripHold = false := by rw [State.feedsIn_eq]; exact ht
  have hon4 := (State.powered_of_two hhold hinA hinB).2 (by rw [State.feedsIn_chip, h4])
  refine ⟨_, hexec, ?_⟩
  rw [hon4, State.switchOn_eq]
  refine ⟨hinA, hinB, State.feedsIn_lostInService ha hb, ?_⟩
  rw [State.feedsIn_eq]

/-! Reversed polarity (R19, R20). -/

/-- A report goes out at once where the bus is up, and waits otherwise (R19, R27). -/
theorem State.report_of_busUp {s : State} (h : s.busUp = true) (kind : Nat) (args : List Nat) :
    s.report kind args = s.emit (.mgmt (Config.busReport kind args)) := by
  simp [State.report, h]

theorem State.report_of_busDown {s : State} (h : s.busUp = false) (kind : Nat) (args : List Nat) :
    s.report kind args = { s with mgmt := { s.mgmt with reports := s.mgmt.reports ++ [⟨kind, args⟩] } } := by
  simp [State.report, h]

/-- A report changes what has left the module or what waits for the bus. -/
theorem State.report_eq (s : State) (kind : Nat) (args : List Nat) :
    s.report kind args = { s with out := (s.report kind args).out, mgmt := (s.report kind args).mgmt } := by
  unfold State.report
  split <;> rfl

/-- What the always-on logic notes of a reversed connector, before it reports it (R19). -/
def State.noteReversed (s : State) (feedB : Bool) : State :=
  (((({ s with inputs := { s.inputs with
    switchA := s.inputs.switchA && feedB
    switchB := s.inputs.switchB && !feedB
    revA := s.inputs.revA || !feedB
    revB := s.inputs.revB || feedB
    smbAlert := true } } : State).setSticky (if feedB = true then 10 else 11)).logEv 11 [if feedB = true then 1 else 0]).assertFault)

theorem State.reversed_eq (s : State) (feedB : Bool) :
    s.reversed feedB = (s.noteReversed feedB).report 11 [if feedB = true then 1 else 0] := by
  cases feedB <;> rfl

theorem State.noteReversed_eq (s : State) (feedB : Bool) :
    s.noteReversed feedB = { s with inputs := (s.noteReversed feedB).inputs, flash := (s.noteReversed feedB).flash } := rfl

theorem State.reversed_inputs (s : State) (feedB : Bool) : (s.reversed feedB).inputs = (s.noteReversed feedB).inputs := by
  rw [State.reversed_eq, State.report_eq]

theorem State.reversed_flash (s : State) (feedB : Bool) : (s.reversed feedB).flash = (s.noteReversed feedB).flash := by
  rw [State.reversed_eq, State.report_eq]

theorem State.noteReversed_sticky (s : State) (feedB : Bool) :
    (s.noteReversed feedB).inputs.sticky.getLsbD (if feedB = true then 10 else 11) = true := by
  unfold State.noteReversed
  exact State.setSticky_getLsbD _ (by split <;> decide)

theorem State.noteReversed_switch (s : State) (feedB : Bool) :
    (if feedB = true then (s.noteReversed feedB).inputs.switchB else (s.noteReversed feedB).inputs.switchA) = false := by
  cases feedB <;> simp [State.noteReversed, State.setSticky, State.logEv, State.assertFault]

theorem reversePolarity_spec {s : State} {feedB : Bool} (hon : s.chip.alwaysOn = true) (hl : s.live feedB = false) :
    ∃ t, exec (.reversePolarity feedB) s = .next t ∧
    t.inputs.sticky.getLsbD (if feedB = true then 10 else 11) = true ∧ t.inputs.smbAlert = true ∧ t.inputs.faultN = true ∧ t.live feedB = false ∧
    (if feedB = true then t.inputs.switchB else t.inputs.switchA) = false ∧ t.flash.log = s.flash.log ++ [⟨11, [if feedB = true then 1 else 0]⟩] ∧
    (s.busUp = true → t.out = s.out ++ [.mgmt (Config.busReport 11 [if feedB = true then 1 else 0])] ∧ t.mgmt = s.mgmt) ∧
    (s.busUp = false → t.out = s.out ∧ t.mgmt = { s.mgmt with reports := s.mgmt.reports ++ [⟨11, [if feedB = true then 1 else 0]⟩] }) ∧
    t = { s with inputs := t.inputs, flash := t.flash, out := t.out, mgmt := t.mgmt } := by
  have hexec : exec (.reversePolarity feedB) s = .next (s.reversed feedB) := by
    simp [exec_reversePolarity, execReversePolarity, hon, hl]
  refine ⟨_, hexec, ?sticky, ?alert, ?fault, ?feed, ?switch, ?log, ?up, ?down, ?frame⟩
  case sticky => rw [State.reversed_inputs, State.noteReversed_sticky]
  case alert => rw [State.reversed_inputs]; rfl
  case fault => rw [State.reversed_inputs]; rfl
  case feed => exact (State.live_congr (by rw [State.reversed_inputs]; rfl) (by rw [State.reversed_inputs]; rfl) feedB).trans hl
  case switch => rw [State.reversed_inputs, State.noteReversed_switch]
  case log => rw [State.reversed_flash]; rfl
  case up =>
    intro h
    rw [State.reversed_eq, State.report_of_busUp (s := s.noteReversed feedB) h]
    exact ⟨rfl, rfl⟩
  case down =>
    intro h
    rw [State.reversed_eq, State.report_of_busDown (s := s.noteReversed feedB) h]
    exact ⟨rfl, rfl⟩
  case frame => rw [State.reversed_eq, State.report_eq, State.noteReversed_eq]

/-- Settles O8: one lemma for the loss in service, one for the return, one for reversed polarity; before service the loss is only recorded. -/
theorem feedsAndPolarity : Obligations.FeedsAndPolarity := by
  refine ⟨fun feedB s ha hb h4 => feedLost_in_service_spec ha hb h4 feedB, ?before,
    fun feedB s hon h4 ht hl ho => feedRestored_in_service_spec hon h4 ht hl ho, fun feedB s hon hl => reversePolarity_spec hon hl⟩
  case before =>
    intro feedB s ha hb h4 hc
    refine ⟨_, exec_feedLost_of_two ha hb feedB, ?_⟩
    rw [State.feedLost_before_service h4 hc]
    refine ⟨s.dropFeed_live_self feedB, ?other, rfl⟩
    rw [State.dropFeed_live_other]
    cases feedB <;> simp [State.live, ha, hb]

end Sys2Proof.Machine

namespace Sys2Proof.Machine

/-! The arms of `exec` for the management bus, SPDM and the test port. -/

theorem exec_mgmtDynamicAddress (a : BitVec 7) (s : State) : exec (.mgmtDynamicAddress a) s = execMgmtDynamicAddress a s := rfl
theorem exec_mctpControl (path : MgmtPath) (msg : List Byte) (s : State) : exec (.mctpControl path msg) s = execMctpControl path msg s := rfl
theorem exec_pldmMonitoring (path : MgmtPath) (x : Sensor) (s : State) : exec (.pldmMonitoring path x) s = execPldmMonitoring path x s := rfl
theorem exec_pldmFirmwareUpdate (off : Via Nat) (data : List Byte) (s : State) :
    exec (.pldmFirmwareUpdate off data) s = execPldmFirmwareUpdate off data s := rfl
theorem exec_spdmGetMeasurements (i : Via (Bool × Nat)) (s : State) : exec (.spdmGetMeasurements i) s = execSpdmGetMeasurements i s := rfl
theorem exec_spdmKeyExchange (msg : Via (List Byte)) (s : State) : exec (.spdmKeyExchange msg) s = execSpdmKeyExchange msg s := rfl
theorem exec_spdmFinish (ok : Via Bool) (s : State) : exec (.spdmFinish ok) s = execSpdmFinish ok s := rfl
theorem exec_unlockNonce (path : MgmtPath) (s : State) : exec (.unlockNonce path) s = execUnlockNonce path s := rfl
theorem exec_dbgUnlock (sig : Bool) (sn n : DWord) (age : Nat) (s : State) : exec (.dbgUnlock sig sn n age) s = execDbgUnlock sig sn n age s := rfl
theorem exec_dbgInstruction (op : DbgOp) (s : State) : exec (.dbgInstruction op) s = s.dbg op := rfl

/-! The management bus and its reports (R19, R25 to R27, R57). -/

theorem State.busUp_iff (s : State) : s.busUp = true ↔ s.chip.rom = true ∧ s.mgmt.stuck = false := by
  simp [State.busUp]

theorem State.mailboxUp_iff (s : State) : s.mailboxUp = true ↔ s.chip.rom = true ∧ s.pathUp .pf = true := by
  simp [State.mailboxUp]

/-- Emitting in a row adds to what has left the module, in order. -/
theorem State.foldl_emit (f : α → Out) (l : List α) (s : State) : l.foldl (fun (s : State) e => s.emit (f e)) s = { s with out := s.out ++ l.map f } := by
  induction l generalizing s with
  | nil => simp
  | cons e l ih => rw [List.foldl_cons, ih]; simp [State.emit]

/-- Where the bus is up everything that waited for it goes out, in order. -/
theorem State.sendReports_of_busUp {s : State} (h : s.busUp = true) : s.sendReports = { s with
    mgmt := { s.mgmt with reports := [] }
    out := s.out ++ s.mgmt.reports.map (fun e => .mgmt (Config.busReport e.kind e.args)) } := by
  simp only [State.sendReports, h, if_true, State.foldl_emit]

theorem State.sendReports_of_busDown {s : State} (h : s.busUp = false) : s.sendReports = s := by
  simp [State.sendReports, h]

/-- With the boot ROM running the bus is up as the line is released. -/
theorem mgmtLineReleased_spec (s : State) : ∃ t, exec .mgmtLineReleased s = .next t ∧ t = { s with mgmt := t.mgmt, out := t.out } ∧
    (s.chip.rom = true → t.mgmt = { s.mgmt with stuck := false, reports := [] } ∧
      t.out = s.out ++ s.mgmt.reports.map (fun e => .mgmt (Config.busReport e.kind e.args))) ∧
    (s.chip.rom = false → t.mgmt = { s.mgmt with stuck := false } ∧ t.out = s.out) := by
  refine ⟨({ s with mgmt := { s.mgmt with stuck := false } } : State).sendReports, rfl, ?_⟩
  cases hrom : s.chip.rom with
  | true =>
    rw [State.sendReports_of_busUp (by simp [State.busUp, hrom])]
    exact ⟨rfl, fun _ => ⟨rfl, rfl⟩, nofun⟩
  | false =>
    rw [State.sendReports_of_busDown (by simp [State.busUp, hrom])]
    exact ⟨rfl, nofun, fun _ => ⟨rfl, rfl⟩⟩

theorem exec_mgmtDynamicAddress_up {s : State} (hrom : s.chip.rom = true) (hfree : s.mgmt.stuck = false) (a : BitVec 7) :
    exec (.mgmtDynamicAddress a) s = .next { s with mgmt := { s.mgmt with dynAddr := some a } } := by
  rw [exec_mgmtDynamicAddress, execMgmtDynamicAddress, if_pos (s.busUp_iff.mpr ⟨hrom, hfree⟩)]

theorem exec_mctpControl_up {s : State} {path : MgmtPath} (h : s.mgmtUp path = true) (msg : List Byte) :
    exec (.mctpControl path msg) s = .next (s.emit (.mgmt (Config.mctpAnswer msg))) := by
  rw [exec_mctpControl, execMctpControl, if_pos h]

theorem exec_pldmMonitoring_up {s : State} {path : MgmtPath} (h : s.mgmtUp path = true) (x : Sensor) :
    exec (.pldmMonitoring path x) s = .next (s.bump.emit (.mgmt (Config.pldmReading (s.sensor x).1 (s.sensor x).2))) := by
  rw [exec_pldmMonitoring, execPldmMonitoring, if_pos h]

/-! Firmware update (R57, R59, R60). -/

/-- Image B is the spare part: image A runs, or a recovery image while BOOT_SRC does not try B first (log 57). -/
def State.spareIsB (s : State) : Prop := s.chip.image = 1 ∨ (s.chip.image = 3 ∧ fld s.strapNat 14 2 ≠ 2)

theorem State.imageWrite_of_none {s : State} (h : s.chip.image = 0) (off : Nat) (data : List Byte) :
    s.imageWrite off data = { s with mgmt := { s.mgmt with recovery := s.mgmt.recovery.writeN off data } } := by
  simp [State.imageWrite, h]

theorem State.imageWrite_of_spareB {s : State} (h : s.spareIsB) (off : Nat) (data : List Byte) :
    s.imageWrite off data = { s with flash := { s.flash with imageB := s.flash.imageB.writeN off data } } := by
  have h0 : s.chip.image ≠ 0 := by rcases h with h | ⟨h, -⟩ <;> simp [h]
  exact (if_neg h0).trans (if_pos h)

theorem State.imageWrite_of_spareA {s : State} (h0 : s.chip.image ≠ 0) (h : ¬s.spareIsB) (off : Nat) (data : List Byte) :
    s.imageWrite off data = { s with flash := { s.flash with imageA := s.flash.imageA.writeN off data } } :=
  (if_neg h0).trans (if_neg h)

theorem State.spare_of_spareB {s : State} (h : s.spareIsB) : s.spare = .b := if_pos h
theorem State.spare_of_spareA {s : State} (h : ¬s.spareIsB) : s.spare = .a := if_neg h

theorem State.imageWrite_out (s : State) (off : Nat) (data : List Byte) : (s.imageWrite off data).out = s.out := by
  unfold State.imageWrite
  split
  · rfl
  · split <;> rfl

/-- What a PLDM chunk leaves before its answer: the part that it wrote is the next to boot while an image runs (R60). -/
def State.pldmChunk (s : State) (off : Nat) (data : List Byte) : State :=
  if s.chip.image = 0 then s.imageWrite off data
  else { s.imageWrite off data with flash := { (s.imageWrite off data).flash with nextBoot := some s.spare } }

theorem exec_pldmFirmwareUpdate_up {s : State} {path : MgmtPath} (h : s.mgmtUp path = true) (off : Nat) (data : List Byte) :
    exec (.pldmFirmwareUpdate ⟨path, off⟩ data) s = .next { s.pldmChunk off data with out := s.out ++ [.mgmt (Config.pldmUpdate off data)] } := by
  have hout : (s.pldmChunk off data).out = s.out := by
    unfold State.pldmChunk
    split <;> exact s.imageWrite_out off data
  rw [exec_pldmFirmwareUpdate, execPldmFirmwareUpdate, if_pos h, ← hout]
  rfl

theorem pldmFirmwareUpdate_spec {s : State} {path : MgmtPath} (h : s.mgmtUp path = true) (off : Nat) (data : List Byte) : ∃ t,
    exec (.pldmFirmwareUpdate ⟨path, off⟩ data) s = .next { t with out := s.out ++ [.mgmt (Config.pldmUpdate off data)] } ∧
    ((s.chip.image = 1 ∨ (s.chip.image = 3 ∧ fld s.strapNat 14 2 ≠ 2)) →
      t = { s with flash := { s.flash with imageB := s.flash.imageB.writeN off data, nextBoot := some .b } }) ∧
    ((s.chip.image = 2 ∨ (s.chip.image = 3 ∧ fld s.strapNat 14 2 = 2)) →
      t = { s with flash := { s.flash with imageA := s.flash.imageA.writeN off data, nextBoot := some .a } }) ∧
    (s.chip.image = 0 → t = { s with mgmt := { s.mgmt with recovery := s.mgmt.recovery.writeN off data } }) := by
  refine ⟨_, exec_pldmFirmwareUpdate_up h off data, fun hB => ?partB, fun hA => ?partA, fun h0 => ?ram⟩
  case partB =>
    have h0 : s.chip.image ≠ 0 := by rcases hB with h | ⟨h, -⟩ <;> simp [h]
    rw [State.pldmChunk, if_neg h0, State.imageWrite_of_spareB hB, State.spare_of_spareB hB]
  case partA =>
    have h0 : s.chip.image ≠ 0 := by rcases hA with h | ⟨h, -⟩ <;> simp [h]
    have hB : ¬s.spareIsB := by rcases hA with h | ⟨h, hs⟩ <;> simp [State.spareIsB, *]
    rw [State.pldmChunk, if_neg h0, State.imageWrite_of_spareA h0 hB, State.spare_of_spareA hB]
  case ram => rw [State.pldmChunk, if_pos h0, State.imageWrite_of_none h0]

/-! SPDM (R62). -/

theorem exec_spdmGetMeasurements_plain {s : State} {path : MgmtPath} (h : s.mgmtUp path = true) (i : Nat) :
    exec (.spdmGetMeasurements ⟨path, false, i⟩) s = .next (s.emit (.mgmt (s.signedMeasurement i))) := by
  simp [exec_spdmGetMeasurements, execSpdmGetMeasurements, h]

theorem exec_spdmGetMeasurements_secured {s : State} {path : MgmtPath} (h : s.mgmtUp path = true) (hs : s.mgmt.spdm = 2) (i : Nat) :
    exec (.spdmGetMeasurements ⟨path, true, i⟩) s = .next (s.sendSealed (s.signedMeasurement i)) := by
  simp [exec_spdmGetMeasurements, execSpdmGetMeasurements, h, hs]

/-- Measurement 2 is the digest of the running image (R62). -/
theorem State.measure_two (s : State) : s.measure 2 = (1, sha384 (imageBytes (if s.chip.image = 1 then s.flash.imageA
    else if s.chip.image = 2 then s.flash.imageB else if s.chip.image = 3 then s.mgmt.recovery else []))) := by
  have himage : s.runningImage = if s.chip.image = 1 then s.flash.imageA else if s.chip.image = 2 then s.flash.imageB
      else if s.chip.image = 3 then s.mgmt.recovery else [] := by
    unfold State.runningImage
    split <;> simp_all
  rw [← himage]
  rfl

/-- Before its stage a measurement is all zero (R62). -/
theorem State.measurement_early {s : State} {i : Nat} (h : s.chip.stage < (s.measure i).1) : ∀ b ∈ s.measurement i, b = 0#8 := by
  rw [State.measurement, if_neg (Nat.not_le.mpr h)]
  simp

theorem exec_spdmKeyExchange_up {s : State} {path : MgmtPath} (h : s.mgmtUp path = true) (msg : List Byte) :
    exec (.spdmKeyExchange ⟨path, msg⟩) s = .next (s.keyExchange msg) := by
  rw [exec_spdmKeyExchange, execSpdmKeyExchange, if_pos h]

theorem exec_spdmFinish_up {s : State} {path : MgmtPath} (h : s.mgmtUp path = true) (hs : s.mgmt.spdm = 1) (ok : Bool) :
    exec (.spdmFinish ⟨path, ok⟩) s = .next (s.finishSession ok) := by
  rw [exec_spdmFinish, execSpdmFinish, if_pos ⟨h, hs⟩]

/-! The unlock and the instructions of the test port (R45, R63). -/

theorem exec_unlockNonce_bus {s : State} (h : s.busUp = true) : exec (.unlockNonce .bus) s = .next { s with
    mgmt := { s.mgmt with nonces := s.mgmt.nonces ++ [Config.nonce s.mgmt.nonceCount], nonceCount := s.mgmt.nonceCount + 1 }
    out := s.out ++ [.mgmt (leBytes 8 (Config.nonce s.mgmt.nonceCount).toNat)] } := by
  rw [exec_unlockNonce, execUnlockNonce, if_pos (show s.mgmtUp .bus = true from h)]
  rfl

/-- Every tile is in reset exactly in stage 0 with every tile off (R45). -/
theorem State.tilesInReset_iff (s : State) : s.tilesInReset = true ↔ s.chip.stage = 0 ∧ ∀ t : TileId, (s.tile t).sleep = .off := by
  simp only [State.tilesInReset, allTiles, Bool.and_eq_true, beq_iff_eq, List.all_eq_true, List.mem_range]
  exact and_congr_right fun _ => ⟨fun h t => h t t.isLt, fun h t ht => h ⟨t, ht⟩⟩

theorem exec_dbgUnlock_eq (sig : Bool) (sn n : DWord) (age : Nat) (s : State) : exec (.dbgUnlock sig sn n age) s =
    .next (if s.chip.rom = true ∧ s.chip.stage = 0 ∧ (∀ t : TileId, (s.tile t).sleep = .off) ∧ sig = true ∧ sn = Config.serial ∧ n ∈ s.mgmt.nonces ∧ age ≤ 60
      then { s with chip := { s.chip with dbgUnlock := true } } else s) := by
  have hcond : (s.chip.rom && s.tilesInReset && sig && sn == Config.serial && s.mgmt.nonces.contains n && decide (age ≤ 60)) = true ↔
      s.chip.rom = true ∧ s.chip.stage = 0 ∧ (∀ t : TileId, (s.tile t).sleep = .off) ∧ sig = true ∧ sn = Config.serial ∧ n ∈ s.mgmt.nonces ∧ age ≤ 60 := by
    simp only [Bool.and_eq_true, s.tilesInReset_iff, beq_iff_eq, List.contains_iff_mem, decide_eq_true_eq, and_assoc]
  rw [exec_dbgUnlock, execDbgUnlock]
  exact congrArg _ (ite_congr (propext hcond) (fun _ => rfl) (fun _ => rfl))

/-- Outside stage 0 the tiles are not in reset, and EXTEST acts as BYPASS (R45). -/
theorem exec_extest_as_bypass {s : State} (h : s.chip.stage ≠ 0) : exec (.dbgInstruction .extest) s = exec (.dbgInstruction .bypass) s := by
  have hreset : s.tilesInReset = false := by
    rw [← Bool.not_eq_true, s.tilesInReset_iff]
    exact fun hr => h hr.1
  simp [exec_dbgInstruction, State.dbg, hreset]

/-- Settles O9: one lemma for each command. -/
theorem managementSpdmAndDebug : Obligations.ManagementSpdmAndDebug := by
  refine ⟨fun s => rfl, fun s => rfl, mgmtLineReleased_spec, fun a s hrom hfree => exec_mgmtDynamicAddress_up hrom hfree a,
    fun s => ⟨s.busUp_iff, s.mailboxUp_iff⟩, fun path msg s h => exec_mctpControl_up h msg, fun path x s h => ⟨_, exec_pldmMonitoring_up h x⟩,
    fun path off data s h => pldmFirmwareUpdate_spec h off data, fun path i s h => exec_spdmGetMeasurements_plain h i,
    fun path i s h hs => exec_spdmGetMeasurements_secured h hs i, State.measure_two, fun i s h => State.measurement_early h,
    fun path msg s h => exec_spdmKeyExchange_up h msg, fun path ok s h hs => exec_spdmFinish_up h hs ok,
    fun s hrom hfree => exec_unlockNonce_bus (s.busUp_iff.mpr ⟨hrom, hfree⟩), exec_dbgUnlock_eq, fun s => rfl, fun s => rfl,
    fun s h => exec_extest_as_bypass h, fun k s h => ?locked, fun k s h => ?unlocked⟩
  case locked => simp [exec_dbgInstruction, State.dbg, h]
  case unlocked => simp [exec_dbgInstruction, State.dbg, h]

end Sys2Proof.Machine

namespace Sys2Proof.Machine

/-! What the work of contexts can change: turns of the Switchback that go on and COLLECTIVEs that complete write memory, send frames, log
what they find and end descriptors. The start logic, the inputs, tiles, registers and the ledger stay. -/

/-- u differs from s at most in contexts, device and host memory, the fabric, the health log, what has left the module and counters. -/
structure State.WorkOnly (s u : State) : Prop where
  same : u = { s with
    ctxs := u.ctxs
    flash := { s.flash with log := u.flash.log }
    mem := u.mem
    fabric := u.fabric
    host := u.host
    pmcMod := u.pmcMod
    pmcModOvf := u.pmcModOvf
    fresh := u.fresh
    out := u.out }

theorem State.WorkOnly.refl (s : State) : s.WorkOnly s := ⟨rfl⟩

theorem State.WorkOnly.trans {s u v : State} (h : s.WorkOnly u) (k : u.WorkOnly v) : s.WorkOnly v := ⟨by rw [k.same, h.same]⟩

theorem State.WorkOnly.foldl {f : State → α → State} (hf : ∀ (s : State) (a : α), s.WorkOnly (f s a)) (l : List α) (s : State) :
    s.WorkOnly (l.foldl f s) := by
  induction l generalizing s with
  | nil => exact .refl s
  | cons a l ih => exact (hf s a).trans (ih _)

theorem State.SendsOnly.workOnly {s u : State} (h : s.SendsOnly u) : s.WorkOnly u := ⟨by rw [h.same]⟩

theorem State.WorkOnly.chip {s u : State} (h : s.WorkOnly u) : u.chip = s.chip := by rw [h.same]
theorem State.WorkOnly.inputs {s u : State} (h : s.WorkOnly u) : u.inputs = s.inputs := by rw [h.same]

theorem State.modCtx_workOnly (s : State) (c : Nat) (f : Ctx → Ctx) : s.WorkOnly (s.modCtx c f) := ⟨rfl⟩
theorem State.bump_workOnly (s : State) : s.WorkOnly s.bump := ⟨rfl⟩
theorem State.endDesc_workOnly (s : State) (c q p : Nat) (e : Ending) : s.WorkOnly (s.endDesc c q p e) := ⟨rfl⟩
theorem State.modTurn_workOnly (s : State) (c : Nat) (f : Pair → Turn → Pair × Turn) : s.WorkOnly (s.modTurn c f) := ⟨rfl⟩
theorem State.poisonLines_workOnly (s : State) (ls : List Nat) : s.WorkOnly (s.poisonLines ls) := ⟨rfl⟩

theorem State.raiseVec_workOnly (s : State) (c v : Nat) : s.WorkOnly (s.raiseVec c v) := by
  unfold State.raiseVec
  dsimp only
  split <;> exact ⟨rfl⟩

/-! Writes and failing reads of the unified range (R220, R229, R246 to R248). -/

theorem State.putBlock_workOnly (s : State) (a : Nat) (bs : List Byte) : s.WorkOnly (s.putBlock a bs) :=
  ⟨by rw [(State.putBlock_writesOnly s a bs).same]⟩

theorem State.freeFrame_workOnly (s : State) (f : Nat) : s.WorkOnly (s.freeFrame f) := by
  unfold State.freeFrame
  split <;> exact ⟨rfl⟩

/-- The writes that waited for a block. -/
theorem State.putBlocks_workOnly (s : State) (ws : List (Nat × List Byte)) : s.WorkOnly (ws.foldl (fun s w => s.putBlock w.1 w.2) s) :=
  .foldl (fun s w => s.putBlock_workOnly w.1 w.2) ws s

theorem State.cancelMig_workOnly (s : State) (m : Mig) : s.WorkOnly (s.cancelMig m) := by
  refine .trans ?_ ((State.freeFrame_workOnly _ m.frame).trans (State.putBlocks_workOnly _ m.writes))
  exact ⟨rfl⟩

theorem State.haltMoves_workOnly (s : State) (id : Nat) (o : Obj) : s.WorkOnly (s.haltMoves id o) := by
  refine .trans ?_ (.foldl State.cancelMig_workOnly _ _)
  exact ⟨rfl⟩

theorem State.quarantine_workOnly (s : State) (id : Nat) (ls : List Nat) : s.WorkOnly (s.quarantine id ls) := by
  unfold State.quarantine
  split
  · exact .refl s
  · have hset : ∀ (o : Obj), s.WorkOnly (s.setObj id o) := fun _ => ⟨rfl⟩
    have hlog : ∀ (u : State), u.WorkOnly (u.logEv 7 (id :: ls)) := fun _ => ⟨rfl⟩
    exact (((hset _).trans (State.haltMoves_workOnly _ _ _)).trans (hlog _)).trans (State.raiseVec_workOnly _ _ _)

theorem State.reach_workOnly (s : State) (a n : Nat) : s.WorkOnly (s.reach a n) := by
  unfold State.reach
  dsimp only
  split
  · split
    · exact (State.poisonLines_workOnly _ _).trans (State.quarantine_workOnly _ _ _)
    · exact .refl s
  · exact .refl s

theorem State.carryBlock_workOnly (s : State) (o : Obj) (b new : Nat) : s.WorkOnly (s.carryBlock o b new) := by
  unfold State.carryBlock
  dsimp only
  split
  · exact ⟨rfl⟩
  · split <;> exact ⟨rfl⟩

theorem State.switchBlock_workOnly (s : State) (m : Mig) : s.WorkOnly (s.switchBlock m) := by
  unfold State.switchBlock
  split
  · exact .refl s
  · split
    · exact (State.poisonLines_workOnly _ _).trans (State.quarantine_workOnly _ _ _)
    · next o _ _ =>
      refine (State.carryBlock_workOnly s o m.blk m.frame).trans ?_
      refine .trans ?_ ((State.freeFrame_workOnly _ (o.frame m.blk)).trans (State.putBlocks_workOnly _ m.writes))
      exact ⟨rfl⟩

theorem State.devWriteBlock_workOnly (s : State) (a : Nat) (bs : List Byte) : s.WorkOnly (s.devWriteBlock a bs) := by
  unfold State.devWriteBlock
  split
  · exact State.putBlock_workOnly s a bs
  · split
    · exact (State.switchBlock_workOnly s _).trans (State.putBlock_workOnly _ a bs)
    · exact ⟨rfl⟩

theorem State.devWrite_workOnly (s : State) (a : Nat) (bs : List Byte) : s.WorkOnly (s.devWrite a bs) := by
  unfold State.devWrite
  generalize bs.length / blockBytes + 2 = n
  induction n generalizing s a bs with
  | zero => exact .refl s
  | succ n ih =>
    unfold State.devWriteAux
    split
    · exact .refl s
    · exact (State.devWriteBlock_workOnly s _ _).trans (ih _ _ _)

theorem State.hostWrite_workOnly (s : State) (f : Func) (a : Nat) (bs : List Byte) : s.WorkOnly (s.hostWrite f a bs).1 :=
  ⟨by rw [(State.hostWrite_writesOnly s f a bs).same]⟩

theorem State.writeTarget_workOnly (s : State) (c : Nat) (t : Target) (bs : List Byte) : s.WorkOnly (s.writeTarget c t bs).1 := by
  have hh := State.hostWrite_workOnly s (s.ctx c).func t.addr bs
  unfold State.writeTarget
  split
  · split
    · exact .refl s
    · exact State.devWrite_workOnly s _ _
  · split <;> (next h => rw [h] at hh; exact hh)
  · exact .refl s

theorem State.writeHeld_workOnly (s : State) (c ref off : Nat) (bs : List Byte) : s.WorkOnly (s.writeHeld c ref off bs).1 := by
  unfold State.writeHeld
  dsimp only
  split
  · exact State.writeTarget_workOnly s _ _ _
  · exact .refl s

theorem State.writeRef_workOnly (s : State) (c ref off : Nat) (bs : List Byte) : s.WorkOnly (s.writeRef c ref off bs) := by
  unfold State.writeRef
  dsimp only
  split
  · exact State.writeTarget_workOnly s _ _ _
  · exact .refl s

/-! COLLECTIVEs that are done (R272 to R280, R340, R347). -/

theorem State.spoilGrads_workOnly (s : State) (c : Nat) (r : CollRun) : s.WorkOnly (s.spoilGrads c r).1 := by
  unfold State.spoilGrads
  split
  · exact .refl s
  · dsimp only
    refine .trans ((State.writeHeld_workOnly s c r.dst.toNat 0 (s.freeBytes r.dstBytes)).trans (State.bump_workOnly _)) ?_
    split
    · exact (State.devWrite_workOnly _ _ _).trans (State.bump_workOnly _)
    · exact .refl _

theorem State.writeNorm_workOnly (s : State) (c : Nat) (r : CollRun) : s.WorkOnly (s.writeNorm c r).1 := by
  unfold State.writeNorm
  split
  · exact .refl s
  · split
    · exact .refl s
    · exact (State.modCtx_workOnly s c _).trans (State.writeRef_workOnly _ _ _ _ _)

theorem State.finishColl_workOnly (s : State) (c : Nat) (d : Desc) (r : CollRun) : s.WorkOnly (s.finishColl c d r) :=
  ((State.spoilGrads_workOnly s c r).trans (State.writeNorm_workOnly _ c _)).trans (State.endDesc_workOnly _ _ _ _ _)

theorem State.settleColls_workOnly (s : State) (c : Nat) : s.WorkOnly (s.settleColls c) := by
  refine .foldl (fun s d => ?_) _ s
  split
  · split
    · exact .refl s
    · split
      · exact State.finishColl_workOnly s c d _
      · split
        · exact State.endDesc_workOnly s _ _ _ _
        · exact .refl s
  · exact .refl s

/-! Turns of the Switchback (R371 to R376). -/

theorem State.writeSeg_workOnly (s : State) (p : Pair) (r : SegRec) (start : Nat) (bs : List Byte) : s.WorkOnly (s.writeSeg p r start bs) := by
  have hpart : ∀ (u : State) (a : Nat) (l : List Byte), u.WorkOnly (if l.isEmpty then u else u.devWrite a l) := by
    intro u a l
    split
    · exact .refl u
    · exact State.devWrite_workOnly u a l
  exact (hpart s _ _).trans (hpart _ _ _)

theorem State.endTurn_workOnly (s : State) (c : Nat) (st : Byte) (rank stage : Nat) : s.WorkOnly (s.endTurn c st rank stage) := by
  unfold State.endTurn
  split
  · exact .refl s
  · split
    · exact .refl s
    · exact (((State.modCtx_workOnly s c _).trans (State.devWrite_workOnly _ _ _)).trans (State.bump_workOnly _)).trans (State.endDesc_workOnly _ _ _ _ _)

theorem State.turnFail_workOnly (s : State) (c : Nat) (st : Byte) (rank : Nat) : s.WorkOnly (s.turnFail c st rank) := by
  unfold State.turnFail
  split
  · exact .refl s
  · split
    · exact .refl s
    · split
      · exact .refl s
      · exact .trans (.foldl (fun s (r : Nat × Nat) => (State.sendCtrl_sendsOnly s c r.2 _ _ _).workOnly) _ s) (State.endTurn_workOnly _ _ _ _ _)

theorem State.sendChunk_workOnly (s : State) (c : Nat) (p : Pair) (t : Turn) (r : SegRec) (start : Nat) (bs : List Byte) (d : Nat) :
    s.WorkOnly (s.sendChunk c p t r start bs d) := by
  unfold State.sendChunk
  split
  · exact (State.writeSeg_workOnly s p r start _).trans (State.modTurn_workOnly _ _ _)
  · exact (State.sendData_sendsOnly s _ _ _ _ _ _ _).workOnly

theorem State.sendSeg_workOnly (s : State) (c : Nat) (p : Pair) (t : Turn) (r : SegRec) : s.WorkOnly (s.sendSeg c p t r).1 := by
  unfold State.sendSeg
  dsimp only
  split
  · exact State.reach_workOnly s _ _
  · exact .foldl (fun s x => .foldl (fun s d => State.sendChunk_workOnly s c p t r _ _ d) _ s) _ s

theorem State.sendSegs_workOnly (c : Nat) (p : Pair) (t : Turn) (rs : List SegRec) (s : State) : s.WorkOnly (State.sendSegs c p t rs s).1 := by
  induction rs generalizing s with
  | nil => exact .refl s
  | cons r rs ih =>
    have hr := State.sendSeg_workOnly s c p t r
    unfold State.sendSegs
    split
    · next h =>
      rw [h] at hr
      exact hr.trans (ih _)
    · next h =>
      rw [h] at hr
      exact hr

theorem State.turnStore_workOnly (s : State) (c src off : Nat) (bs : List Byte) : s.WorkOnly (s.turnStore c src off bs) := by
  unfold State.turnStore
  split
  · exact .refl s
  · split
    · exact .refl s
    · refine .trans (.foldl (fun s u => .foldl (fun s r => ?_) _ s) _ s) (State.modTurn_workOnly _ _ _)
      refine .trans ?_ (State.modTurn_workOnly _ _ _)
      split
      · exact .refl s
      · exact State.writeSeg_workOnly s _ _ _ _

theorem State.turnProgress_workOnly (s : State) (c : Nat) : s.WorkOnly (s.turnProgress c) := by
  unfold State.turnProgress
  split
  · exact .refl s
  next p _ =>
  split
  · exact .refl s
  next t _ =>
  split
  · exact State.turnFail_workOnly s _ _ _
  split
  · exact .refl s
  split
  · split
    · exact State.modTurn_workOnly s _ _
    · exact .refl s
  split
  · exact State.modTurn_workOnly s _ _
  · have hsend := (State.modTurn_workOnly s c (fun p t => (p.setStandby 2, { t with stage := 3 }))).trans (State.sendSegs_workOnly c p t p.sends _)
    dsimp only
    split
    · next h =>
      rw [h] at hsend
      exact hsend.trans (State.turnFail_workOnly _ _ _ _)
    · next h =>
      rw [h] at hsend
      refine hsend.trans (.trans ?_ (State.modTurn_workOnly _ _ _))
      refine .trans ?_ (State.modTurn_workOnly _ _ _)
      exact .foldl (fun s (x : Nat × Nat × List Byte) => State.turnStore_workOnly s c x.1 x.2.1 x.2.2) t.early _

/-! Ports that leave UP or TRAIN, and an engine that goes off (R272, R277, R291). -/

theorem State.settleAll_workOnly (s : State) : s.WorkOnly s.settleAll :=
  .foldl (fun s c => (State.settleColls_workOnly s c).trans (State.turnProgress_workOnly _ c)) _ s

theorem State.leavePorts_workOnly (s : State) (ps : List Nat) (st : Nat) : s.WorkOnly (s.leavePorts ps st) := by
  have hmod : ∀ (u : State) (p : Nat), u.WorkOnly (u.modPort p (fun x => x.leave st)) := fun _ _ => ⟨rfl⟩
  refine .trans ?_ (State.settleAll_workOnly _)
  refine (State.WorkOnly.foldl hmod ps s).trans ?_
  exact .foldl (fun s f => (State.placeFrame_sendsOnly s f).workOnly) _ _

theorem State.engineDown_chip (s : State) (d : Nat) : (s.engineDown d).chip = s.chip := by
  unfold State.engineDown
  rw [State.assertFault_chip, (State.leavePorts_workOnly _ _ _).chip]

end Sys2Proof.Machine

namespace Sys2Proof.Machine

/-! Stages 3 and 4 begin (R49, R50, R54, R55). -/

theorem State.leaveOff_sendsOnly (s : State) (p : Nat) : s.SendsOnly (s.leaveOff p) := by
  unfold State.leaveOff
  split
  · exact ⟨rfl⟩
  · exact .refl s

/-- Beside the stage only ports change as stage 3 begins. -/
theorem State.begin3_sendsOnly (s : State) : ({ s with chip := { s.chip with stage := 3 } } : State).SendsOnly s.begin3 :=
  .foldl State.leaveOff_sendsOnly _ _

theorem State.begin3_spec (s : State) : s.begin3.chip.stage = 3 ∧ s.begin3.flash = s.flash ∧ s.begin3.ctxs = s.ctxs ∧ s.begin3.mem = s.mem := by
  rw [s.begin3_sendsOnly.same]
  exact ⟨rfl, rfl, rfl, rfl⟩

@[simp] theorem State.refreshFault_chip (s : State) : s.refreshFault.chip = s.chip := by rw [State.refreshFault_eq]

/-- Engines without a cartridge that go off leave the start logic as it is. -/
theorem State.enginesDown_chip (l : List Nat) (s : State) :
    (l.foldl (fun (s : State) d => if s.engineLit d then s else s.engineDown d) s).chip = s.chip := by
  induction l generalizing s with
  | nil => rfl
  | cons d l ih =>
    rw [List.foldl_cons, ih]
    split
    · rfl
    · exact s.engineDown_chip d

theorem State.fullFunction_stage (s : State) : s.fullFunction.chip.stage = 4 := by
  simp only [State.fullFunction]
  rw [(State.raiseVec_workOnly _ 0 0).chip, State.refreshFault_chip, State.enginesDown_chip]

theorem exec_stage2Complete_none {s : State} (h : s.chip.stage = 2) : exec (.stage2Complete none) s = .next s.begin3 := by
  simp [exec_stage2Complete, execStage2Complete, h]

theorem exec_stage2Complete_some {s : State} (h : s.chip.stage = 2) (cause unit : Byte) : exec (.stage2Complete (some (cause, unit))) s =
    .next (if s.unitExcluded unit.toNat then s.begin3 else (s.toStage0 cause unit).assertFault) := by
  simp [exec_stage2Complete, execStage2Complete, h]

theorem exec_stage3Complete_none {s : State} (h : s.chip.stage = 3) : exec (.stage3Complete none) s = .next s.fullFunction := by
  simp [exec_stage3Complete, execStage3Complete, h]

theorem exec_stage3Complete_some {s : State} (h : s.chip.stage = 3) (d : DieId) : exec (.stage3Complete (some d)) s =
    .next (if s.unitExcluded (112 + d.val) then s.fullFunction else (s.toStage0 0x09#8 (byte (112 + d.val))).assertFault) := by
  simp [exec_stage3Complete, execStage3Complete, h]

/-- A failed self-test returns to stage 0 with its CAUSE and UNIT and FAULT_N, and writes no record (R54). -/
theorem State.failedTest_spec (s : State) (cause unit : Byte) : (s.toStage0 cause unit).assertFault.chip.stage = 0 ∧
    (s.toStage0 cause unit).assertFault.chip.cause = cause ∧ (s.toStage0 cause unit).assertFault.chip.unit = unit ∧
    (s.toStage0 cause unit).assertFault.inputs.faultN = true ∧ (s.toStage0 cause unit).assertFault.ctxs = State.reset.ctxs ∧
    (s.toStage0 cause unit).assertFault.mem.data = [] ∧ (s.toStage0 cause unit).assertFault.out = s.out :=
  ⟨rfl, rfl, rfl, rfl, rfl, rfl, rfl⟩

/-- UNIT 112 + d is die d (table of GLB_STAGE). -/
theorem State.unitExcluded_die (s : State) (d : DieId) : s.unitExcluded (112 + d.val) = s.flash.dieFence.toNat.testBit d := by
  have hd := d.isLt
  rw [State.unitExcluded, if_neg (by omega), decide_eq_true (by omega), Bool.true_and, Nat.add_sub_cancel_left]

theorem byte_unit_of_die (d : DieId) : (byte (112 + d.val)).toNat = 112 + d.val := by
  have hd := d.isLt
  simp only [byte, BitVec.toNat_ofNat]
  omega

/-! MAIN_INPUT_GOOD (R20 to R23, R32). -/

theorem exec_mainInputGood_on {s : State} (hon : s.chip.alwaysOn = true) {a b : Bool} (h : (a || b) = true) :
    exec (.mainInputGood a b) s = .next (s.feedsIn a b).powered := by
  rw [exec_mainInputGood, execMainInputGood, if_pos ⟨hon, h⟩]

/-- PWR_GOOD rises with the switches unless a module-level rail stays latched off (R23, R32). -/
theorem State.switchOn_pwrGood {s : State} (haux : s.chip.auxOn = true) (ha : s.inputs.feedA = true)
    (hrails : s.inputs.removed = true ∨ s.inputs.domainsOff = []) : s.switchOn.inputs.pwrGood = true := by
  have hfeeds : (s.feeds != 0) = true := by simp [State.feeds, ha, b2n]
  have hdomains : (if (s.inputs.removed && s.feeds != 0) = true then [] else s.inputs.domainsOff) = ([] : List Nat) := by
    rcases hrails with h | h <;> simp [h, hfeeds]
  have hlevel : s.switchOn.inputs.pwrGood = (s.chip.auxOn && (s.inputs.feedA || s.inputs.switchA && !s.inputs.revA ||
      (s.inputs.feedB || s.inputs.switchB && !s.inputs.revB)) && s.feeds != 0 &&
      !(if (s.inputs.removed && s.feeds != 0) = true then [] else s.inputs.domainsOff).any (fun d => (domainDie d).isNone)) := by
    simp only [State.switchOn, State.refreshFault_eq]
    rfl
  rw [hlevel, hdomains, haux, ha, hfeeds]
  rfl

theorem mainInputGood_both_spec {s : State} (haux : s.chip.auxOn = true) (hon : s.chip.alwaysOn = true) (ht : s.inputs.tripHold = false) :
    ∃ t, exec (.mainInputGood true true) s = .next t ∧ t.inputs.feedA = true ∧ t.inputs.feedB = true ∧ t.inputs.switchA = true ∧ t.inputs.switchB = true ∧
      t.inputs.railsOff = (if s.inputs.removed = true then [] else s.inputs.railsOff) ∧ t.inputs.removed = false ∧
      ((s.inputs.removed = true ∨ s.inputs.domainsOff = []) → t.inputs.pwrGood = true) ∧ t.flash = s.flash ∧ t.host = s.host := by
  obtain ⟨u, hu⟩ : ∃ u, u = s.feedsIn true true := ⟨_, rfl⟩
  have hsame := hu.trans (s.feedsIn_eq true true)
  have hinA : u.inputs.feedA = true := by rw [hsame]; exact Bool.or_true _
  have hinB : u.inputs.feedB = true := by rw [hsame]; exact Bool.or_true _
  have hhold : u.inputs.tripHold = false := by rw [hsame]; exact ht
  have hfeeds : (u.feeds != 0) = true := by simp [State.feeds, hinA, b2n]
  have hrails : u.inputs.removed = s.inputs.removed ∧ u.inputs.railsOff = s.inputs.railsOff ∧ u.inputs.domainsOff = s.inputs.domainsOff := by
    rw [hsame]
    exact ⟨rfl, rfl, rfl⟩
  obtain ⟨hremoved, hoff, hdomains⟩ := hrails
  have hexec : exec (.mainInputGood true true) s = .next u.powered := hu ▸ exec_mainInputGood_on hon rfl
  refine ⟨_, hexec, ?_⟩
  rw [(State.powered_of_two hhold hinA hinB).1]
  refine ⟨?feedA, ?feedB, ?switchA, ?switchB, ?rails, ?removed, fun hback => ?pg, ?flash, ?host⟩
  case feedA => rw [State.switchOn_eq]; exact hinA
  case feedB => rw [State.switchOn_eq]; exact hinB
  case switchA => rw [State.switchOn_eq]; simp [hinA]
  case switchB => rw [State.switchOn_eq]; simp [hinB]
  case rails => rw [State.switchOn_eq]; simp [hfeeds, hremoved, hoff]
  case removed => rw [State.switchOn_eq]; simp [hfeeds]
  case pg => exact State.switchOn_pwrGood (by rw [hsame]; exact haux) hinA (by rw [hremoved, hdomains]; exact hback)
  case flash => rw [State.switchOn_eq, hsame]
  case host => rw [State.switchOn_eq, hsame]

/-- With no trip held and feeds that do not suffice the class holds the module, but in stage 4 (R21, R51). -/
theorem State.powered_of_few {s : State} (ht : s.inputs.tripHold = false) (hok : s.feedsOk = false) (h4 : s.chip.stage ≠ 4) :
    s.powered = s.switchOn.classFeed := by
  simp [State.powered, ht, hok, h4]

/-- The hold for the feeds: CLASS_FEED, FAULT_N and stage 0, whose CAUSE and UNIT a failed self-test or a trip keeps (R21, R54). -/
theorem State.classFeed_spec {s : State} (h4 : s.chip.stage ≠ 4) : s.classFeed.chip.stage = 0 ∧ s.classFeed.inputs.sticky.getLsbD 6 = true ∧
    s.classFeed.inputs.faultN = true ∧ s.classFeed.feeds = s.feeds ∧
    (if s.chip.stage = 0 ∧ bootWait s.chip.cause = false then s.classFeed.chip = s.chip else s.classFeed.chip.cause = 0x0B#8 ∧ s.classFeed.chip.unit = 255#8) := by
  have hsticky : (s.setSticky 6).assertFault.inputs.sticky.getLsbD 6 = true := State.setSticky_getLsbD s (by decide)
  by_cases hheld : s.chip.stage = 0 ∧ bootWait s.chip.cause = false
  · have hkept : s.classFeed = (s.setSticky 6).assertFault := if_pos (.inr ⟨hheld.1, by simp [hheld.2]⟩)
    rw [hkept, if_pos hheld]
    exact ⟨hheld.1, hsticky, rfl, rfl, rfl⟩
  · have hreturn : s.classFeed = (s.setSticky 6).assertFault.toStage0 0x0B#8 255#8 := if_neg (by simpa [h4] using hheld)
    rw [hreturn, if_neg hheld]
    exact ⟨rfl, hsticky, rfl, rfl, rfl, rfl⟩

theorem mainInputGood_one_spec {s : State} (hon : s.chip.alwaysOn = true) (ht : s.inputs.tripHold = false)
    (hb : s.inputs.feedB = false) (hc : 3600 < s.pwrClass) (h4 : s.chip.stage ≠ 4) :
    ∃ t, exec (.mainInputGood true false) s = .next t ∧ t.chip.stage = 0 ∧ t.inputs.sticky.getLsbD 6 = true ∧ t.inputs.faultN = true ∧ t.feeds = 1 ∧
      (if s.chip.stage = 0 ∧ bootWait s.chip.cause = false then t.chip = s.chip else t.chip.cause = 0x0B#8 ∧ t.chip.unit = 255#8) := by
  obtain ⟨u, hu⟩ : ∃ u, u = s.feedsIn true false := ⟨_, rfl⟩
  have hsame := hu.trans (s.feedsIn_eq true false)
  have hinA : u.inputs.feedA = true := by rw [hsame]; exact Bool.or_true _
  have hinB : u.inputs.feedB = false := by rw [hsame]; simp [hb]
  have hhold : u.inputs.tripHold = false := by rw [hsame]; exact ht
  have hchip : u.switchOn.chip = s.chip := by rw [State.switchOn_chip, hsame]
  have hone : u.oneFeed = true := by simp [State.oneFeed, hinA, hinB]
  have hfew : u.feedsOk = false := State.feedsOk_of_one hone (by rw [hsame]; exact hc)
  have hpowered : u.powered = u.switchOn.classFeed := State.powered_of_few hhold hfew (by rw [hsame]; exact h4)
  have hexec : exec (.mainInputGood true false) s = .next u.powered := hu ▸ exec_mainInputGood_on hon rfl
  have hfeeds : u.switchOn.feeds = 1 := by rw [State.switchOn_feeds]; simp [State.feeds, hinA, hinB, b2n]
  have hspec := State.classFeed_spec (s := u.switchOn) (by rw [hchip]; exact h4)
  rw [hchip, hfeeds] at hspec
  exact ⟨_, hexec, hpowered ▸ hspec⟩

/-- Settles O5: the main input by the feeds that it leaves live, the stages by their completions. -/
theorem mainInputAndStages : Obligations.MainInputAndStages := by
  refine ⟨fun s haux hon ht => mainInputGood_both_spec haux hon ht, fun s _ hon ht _ hb hc h4 => mainInputGood_one_spec hon ht hb hc h4,
    fun s h => ⟨_, exec_stage2Complete_none h, s.begin3_spec⟩, ?fails2, ?fenced2, fun s h => ⟨_, exec_stage3Complete_none h, s.fullFunction_stage⟩,
    ?fails3, ?fenced3⟩
  case fails2 =>
    intro cause unit s h hin
    obtain ⟨hstage, hcause, hunit, hrest⟩ := s.failedTest_spec cause unit
    refine ⟨_, ?_, hstage, hcause, hunit, hrest⟩
    rw [exec_stage2Complete_some h, hin, if_neg Bool.false_ne_true]
  case fenced2 =>
    intro cause unit s h hout
    rw [exec_stage2Complete_some h, exec_stage2Complete_none h, hout, if_pos rfl]
  case fails3 =>
    intro d s h hin
    obtain ⟨hstage, hcause, hunit, hrest⟩ := s.failedTest_spec 0x09#8 (byte (112 + d.val))
    refine ⟨_, ?_, hstage, hcause, hunit ▸ byte_unit_of_die d, hrest⟩
    rw [exec_stage3Complete_some h, s.unitExcluded_die, hin, if_neg Bool.false_ne_true]
  case fenced3 =>
    intro d s h hout
    rw [exec_stage3Complete_some h, exec_stage3Complete_none h, s.unitExcluded_die, hout, if_pos rfl]

end Sys2Proof.Machine

namespace Sys2Proof.Machine

/-! The loss of HBM and of the host interface at once (R23; log 54). Memory is emptied before held transfers go on; the statement speaks of
every state, so also of one in which a descriptor that has not started holds work, which the loss of HBM does not end. -/

/-- A REDUCE_SCATTER of one rank that waits for a path and has no start order; SRC and DST are object 5. -/
def unstartedReduction : Desc := {
  ring := 0
  pos := 0
  bytes := 0
  work := .coll { op := 1, group := 1, src := 0x50000000000#64, dst := 0x50000000000#64, count := 1, seq := 0, ranks := [0], held := true } }

/-- A step is open whose shard is to be kept in object 9, which the module does not hold. -/
def stepWithoutKeepObject : Mile := {
  state := 2
  setup := some { shadowGroup := 1, replicaGroup := 0, shard := [], shadow := [], replica := [], keepObj := 9, stateObj := 0 } }

/-- Stage 4 with that descriptor; object 5 is a released block of the slow tier with one byte that is not zero. -/
def unstartedWorkState : State := { State.reset with
  chip := { alwaysOn := true, strapped := true, rom := true, stage := 4, image := 1 }
  inputs := { feedA := true, feedB := true, switchA := true, switchB := true, pwrGood := true }
  ctxs := [(0, { state := .active, enable := true, descs := [unstartedReduction], mile := stepWithoutKeepObject })]
  mem := { objs := [(5, { ubase := 0x200000, size := 64, ctx := 0, state := 2, frames := [hbmFrames] })] }
  host := { data := [(3, 0x3F#8)] } }

theorem exec_railOverCurrent_on {s : State} (h : s.inputs.switches = true) (rail : Nat) (domains : List Nat) :
    exec (.railOverCurrent rail domains) s = .next (s.railTrip rail domains) := by
  rw [exec_railOverCurrent, execRailOverCurrent, if_pos h]

/-- The loss of PD411 ends started work alone; as the loss of PD410 lets held transfers go on, the kept shard is written at address 0, which
no object owns. -/
theorem unstartedWorkState_railTrip_data : (unstartedWorkState.railTrip 0 [pdHost, pdMem]).mem.data = [(3, 0x3F#8)] := by decide +kernel

/-- Refutes O7: device memory is not empty after a rail takes PD410 and PD411, in a state where work is held that has not started. -/
theorem not_tripsReturnToStageZero : ¬ Obligations.TripsReturnToStageZero := by
  intro h
  obtain ⟨-, -, hrail, -⟩ := h
  obtain ⟨t, ht, -, -, -, -, -, hmem⟩ := hrail 0 [pdHost, pdMem] unstartedWorkState rfl rfl
  have hnext : t = unstartedWorkState.railTrip 0 [pdHost, pdMem] :=
    Host.Outcome.next.inj (ht.symm.trans (exec_railOverCurrent_on rfl 0 [pdHost, pdMem]))
  have hempty : (unstartedWorkState.railTrip 0 [pdHost, pdMem]).mem.data = [] := hnext ▸ (hmem (by decide)).1
  rw [unstartedWorkState_railTrip_data] at hempty
  cases hempty

end Sys2Proof.Machine

namespace Sys2Proof.Machine

/-! WEAR of a cartridge in service (R287). The statement adds to it modulo 2 ^ 32, the module stops at all ones. -/

theorem exec_wearHourly (b : BayId) (load temp bias power : Nat) (s : State) :
    exec (.wearHourly b load temp bias power) s = execWearHourly b load temp bias power s := rfl

/-- A message leaves the bays as they are. -/
@[simp] theorem State.raiseVec_bay (s : State) (c v b : Nat) : (s.raiseVec c v).bay b = s.bay b := by
  unfold State.raiseVec
  dsimp only
  split <;> rfl

/-- The hourly addition to WEAR stops at all ones (R287). -/
theorem State.hourly_wear {s : State} {b : Nat} {r : CartRecord} (hr : (s.bay b).record = some r) (hl : (s.bay b).lit = true)
    (load temp bias power : Nat) :
    ((s.hourly b load temp bias power).bay b).wear = word (satAdd 0xFFFFFFFF (s.bay b).wear.toNat (wearAdd load temp)) := by
  unfold State.hourly
  simp only [hr, hl, Bool.not_true, Bool.false_eq_true, if_false]
  split <;> split <;> simp

/-- A WEAR of all ones stays, whatever the addition. -/
theorem satAdd_of_full (x : Nat) : satAdd 0xFFFFFFFF 0xFFFFFFFF x = 0xFFFFFFFF := if_pos (Nat.le_add_right _ _)

/-- A cartridge in service whose WEAR holds all ones. -/
def wornBayState : State := { State.reset with
  chip := { alwaysOn := true, strapped := true, rom := true, stage := 4, image := 1 }
  fabric := { bays := [(0, { state := baySolo, ilk := true, wear := 0xFFFFFFFF#32, record := some ⟨0#64, 0#32, 0#32, 60000#32, 0#32, 0#16, 0#16⟩ })] } }

theorem wornBayState_hourly_wear (load temp bias power : Nat) : ((wornBayState.hourly 0 load temp bias power).bay 0).wear = 0xFFFFFFFF#32 := by
  have hfull : (wornBayState.bay 0).wear.toNat = 0xFFFFFFFF := rfl
  rw [State.hourly_wear (r := ⟨0#64, 0#32, 0#32, 60000#32, 0#32, 0#16, 0#16⟩) rfl rfl, hfull, satAdd_of_full]
  rfl

/-- Refutes O50: WEAR saturates, so that an hour at half load and 55 degrees does not add 10 to a WEAR of all ones, nor wrap it to 9. -/
theorem not_laserBays : ¬ Obligations.LaserBays := by
  intro h
  obtain ⟨-, -, -, -, -, -, -, hwear, -⟩ := h
  obtain ⟨t, ht, hw, -⟩ := hwear 0 500 550 0 0 0 _ wornBayState rfl rfl (.inl ⟨Nat.le_refl _, rfl⟩)
  have hnext : t = wornBayState.hourly 0 500 550 0 0 := Host.Outcome.next.inj (ht.symm.trans (exec_wearHourly 0 500 550 0 0 wornBayState))
  have hfull : (t.bay 0).wear = 0xFFFFFFFF#32 := by rw [hnext, wornBayState_hourly_wear]
  exact absurd (hfull.symm.trans hw) (by decide)

end Sys2Proof.Machine
